-- ==== Sys2Proof/Word.lean ====
section
/-! DEFINITION. The word types and the names of things that several layers share. Every multi-byte quantity that software sees
as a word is a bit vector of the manual's width; counts, addresses and beat numbers are natural numbers (R6, R38). -/

namespace Sys2Proof

/-- One byte of memory, of a container or of a message. -/
abbrev Byte := BitVec 8

/-- A 32-bit register or counter; counters of this type wrap (Table 2-5 and the like). -/
abbrev W32 := BitVec 32

/-- A 64-bit register. -/
abbrev W64 := BitVec 64

/-- A PCIe function: 0 the PF, n the VFn (R15). -/
abbrev Fn := Fin 9

/-- A partition P0 to P7 (Table 1-2). -/
abbrev Part := Fin 8

/-- A compute die CD0 to CD3 and its Granary slice (R15). -/
abbrev Die := Fin 4

/-- A link group in the order of R43: XW.0, XW.1, XE.0, XE.1, YN.0, YN.1, YS.0, YS.1. -/
abbrev Link := Fin 8

/-- A logical tile of the package, 16s + i (Tiles, groups, tokens and ordering). -/
abbrev Tile := Fin 1024

/-- A group slot of a tile. -/
abbrev GSlot := Fin 8

/-- Power states, ordered RUN > PARK > STANDBY > OFF (R483). -/
inductive PState where
  | run | park | standby | off
  deriving DecidableEq, Repr, Inhabited

/-- The package bins of Table 0-1. -/
inductive Bin where
  | yp4A | yp4L
  deriving DecidableEq, Repr, Inhabited

/-- The states of the tempo unit (Table 2-6). -/
inductive TempoMode where
  | locked | holdover | fenced
  deriving DecidableEq, Repr, Inhabited

/-- The status codes of Table 19-7 (R663). -/
inductive Code where
  | ok
  | sigBad | tableTie | loadIo | hdrBad | targetBad | fwTooOld | recBad | structBad | fuseLimit | planBudget | structNone
  | loadChanged | keyopBad
  | tempoSlip | tempoHoldover | tempoFenced | gradeUnavailable | classDenied | planUnknown | c0Nofit | tileReserved | descBad
  | ctxRange | partFaulted | stepAborted | planBodyBad
  | groupSelfWait | tokenNotHolder | tokenHeldAtExit | illegalInstr | localRange | tokenRange | misaligned
  | deadRead | windowDenied | deviceRange | deadlineMiss | partRange | poison | memChannelFailed | memRemapFull
  | dieMismatch | dieFailed
  | collReshape | collTime | collMemberTrip | rankDuplicate | hashMismatch | compatMismatch | linkDown | trainFail
  | collNotMember | collShape | collStart
  | issueLimitEngaged | capRange | stackWarn | stackTrip | stackTempLost | tileWarn | tileCrit | thermtrip
  | wakeLockout | leaseForfeit | hubHang | dieHang | fwBad | dieWakeFail | partResFailed | railFault
  | ctxInvalid | ctxOpen | pageMissing | pageHost | rtkBusy | rtkNodeBad | wnwBad | wnwDup | truncBad
  | trlPushBad | trlSlotBad | ingestVariant | ingestNomatch | trlGridBad | trlOverlap
  | hostErr | dmaBad | dmaAborted | barRange | barBusy
  | rackHold | binMismatch | gateHeld | updateBad | updateRollback | slotFault | fanFail | inputRange | classStrapBad
  | notPermitted
  deriving DecidableEq, Repr, Inhabited

/-- The number of a status code (Table 19-7). -/
def Code.num : Code → BitVec 16
  | .ok => 0x0000
  | .sigBad => 0x1001 | .tableTie => 0x1002 | .loadIo => 0x1003 | .hdrBad => 0x1004 | .targetBad => 0x1005
  | .fwTooOld => 0x1006 | .recBad => 0x1007 | .structBad => 0x1008 | .fuseLimit => 0x1009 | .planBudget => 0x100A
  | .structNone => 0x100B | .loadChanged => 0x100C | .keyopBad => 0x100D
  | .tempoSlip => 0x2001 | .tempoHoldover => 0x2002 | .tempoFenced => 0x2003 | .gradeUnavailable => 0x2004
  | .classDenied => 0x2005 | .planUnknown => 0x2006 | .c0Nofit => 0x2007 | .tileReserved => 0x2008 | .descBad => 0x2009
  | .ctxRange => 0x200A | .partFaulted => 0x200B | .stepAborted => 0x200C | .planBodyBad => 0x200D
  | .groupSelfWait => 0x3001 | .tokenNotHolder => 0x3002 | .tokenHeldAtExit => 0x3003 | .illegalInstr => 0x3004
  | .localRange => 0x3005 | .tokenRange => 0x3006 | .misaligned => 0x3007
  | .deadRead => 0x4010 | .windowDenied => 0x4011 | .deviceRange => 0x4012 | .deadlineMiss => 0x4013 | .partRange => 0x4014
  | .poison => 0x4020 | .memChannelFailed => 0x4032 | .memRemapFull => 0x4034
  | .dieMismatch => 0x5001 | .dieFailed => 0x5002
  | .collReshape => 0x6001 | .collTime => 0x6002 | .collMemberTrip => 0x6003 | .rankDuplicate => 0x6010
  | .hashMismatch => 0x6011 | .compatMismatch => 0x6012 | .linkDown => 0x6013 | .trainFail => 0x6014
  | .collNotMember => 0x6015 | .collShape => 0x6016 | .collStart => 0x6017
  | .issueLimitEngaged => 0x7001 | .capRange => 0x7002 | .stackWarn => 0x7010 | .stackTrip => 0x7011
  | .stackTempLost => 0x7012 | .tileWarn => 0x7020 | .tileCrit => 0x7021 | .thermtrip => 0x7022
  | .wakeLockout => 0x8001 | .leaseForfeit => 0x8002 | .hubHang => 0x8003 | .dieHang => 0x8004 | .fwBad => 0x8005
  | .dieWakeFail => 0x8006 | .partResFailed => 0x8007 | .railFault => 0x8008
  | .ctxInvalid => 0x9001 | .ctxOpen => 0x9002 | .pageMissing => 0x9003 | .pageHost => 0x9004 | .rtkBusy => 0x9005
  | .rtkNodeBad => 0x9006 | .wnwBad => 0x9007 | .wnwDup => 0x9008 | .truncBad => 0x9009
  | .trlPushBad => 0xA001 | .trlSlotBad => 0xA002 | .ingestVariant => 0xA003 | .ingestNomatch => 0xA004
  | .trlGridBad => 0xA005 | .trlOverlap => 0xA006
  | .hostErr => 0xB001 | .dmaBad => 0xB002 | .dmaAborted => 0xB003 | .barRange => 0xB004 | .barBusy => 0xB005
  | .rackHold => 0xC001 | .binMismatch => 0xC002 | .gateHeld => 0xC004 | .updateBad => 0xC005 | .updateRollback => 0xC006
  | .slotFault => 0xC007 | .fanFail => 0xC008 | .inputRange => 0xC009 | .classStrapBad => 0xC00A | .notPermitted => 0xC00B

end Sys2Proof
end

