-- ==== Sys2Proof/Syntax.lean ====
section
/-! DEFINITION. The commands of the block: one constructor per row of spec/opcode_table.json, with the row's operands. An operand
is what the outside gives with the event: who writes and what, the data that arrives, the quantity sensed, the cycle of issue. -/

namespace Sys2Proof

/-- What the system ECC finds in one 32-byte burst read from a stack (R280). -/
inductive Burst where
  | clean | corrected | uncorrectable
  deriving DecidableEq, Repr, Inhabited

/-- What the SEC-DED code finds in a Granary line (R538). -/
inductive GrEcc where
  | clean | single | double
  deriving DecidableEq, Repr, Inhabited

/-- The parity failures of Table 7-3. -/
inductive ParityKind where
  | command | write | read
  deriving DecidableEq, Repr, Inhabited

/-- What a CONTROL instruction does (R139); Table 4-6 gives it no OP values, so the event names it. -/
inductive ControlKind where
  | branch | setExec | saveExec | restoreExec
  deriving DecidableEq, Repr, Inhabited

/-- The ring collective operations of Table 12-6. -/
inductive CollOp where
  | reduceScatter | allGather | allReduce | broadcast
  deriving DecidableEq, Repr, Inhabited

/-- The dimension of a collective phase: along X, along Y, or over both (Table 12-6). -/
inductive CollDim where
  | x | y | xy
  deriving DecidableEq, Repr, Inhabited

/-- What one slot of a plan runs (R59, R79 and 95): the schedule body is Hokusy's own encoding, so the event brings its actions. -/
inductive SlotAction where
  /-- Launch a kernel of CODE record `codeId` at instruction `pc` with up to eight arguments (R135), preloading `words` words. -/
  | launch (tile : Tile) (gslot : GSlot) (codeId pc words : Nat) (args : List W32)
  /-- Start the reduction of a TREE entry over `flits` output flits (R242, R250). -/
  | reduce (tree flits : Nat)
  /-- Multicast one device line to a local address of one logical tile of every sheaf of an MCAST entry (R202, R246). -/
  | multicast (entry : Nat) (tile : Fin 16) (laddr dev : Nat)
  /-- Change a window entry (R214). -/
  | windowChange (n : Fin 64) (base limit : Nat) (ctrl : W32)
  /-- A plan transfer of a DMA engine from device memory to local memory. -/
  | toLocal (engine : Fin 16) (tile : Tile) (laddr dev len : Nat)
  /-- A plan transfer of a DMA engine from local memory to device memory. -/
  | toDevice (engine : Fin 16) (tile : Tile) (laddr dev len : Nat)
  /-- KV.GATHER of `count` tokens from `token` into local memory of a tile (R386). -/
  | kvGather (ctx token count : Nat) (tile : Tile) (laddr : Nat)
  /-- KV.GATHER of `count` tokens from `token` into device memory of the partition (R386). -/
  | kvGatherDev (ctx token count dev : Nat)
  /-- KV.SCATTER of `count` tokens from local memory into pages (R386). -/
  | kvScatter (ctx token count : Nat) (tile : Tile) (laddr : Nat)
  /-- KV.SCATTER of `count` tokens from device memory into pages (R386). -/
  | kvScatterDev (ctx token count dev : Nat)
  /-- A plan transfer that copies the PLAN_AREA of a context into local memory (Table 10-3). -/
  | planArea (ctx : Nat) (tile : Tile) (laddr : Nat)
  /-- RTK.WALK of the request at a device address (R393). -/
  | rtkWalk (req : Nat)
  /-- WNW.VERIFY of `count` records (R400 to R405). -/
  | wnwVerify (inAddr outAddr count : Nat)
  /-- TRL.SCATTER with the descriptor at a device address (R422 to R425). -/
  | trlScatter (desc : Nat)
  /-- TRL.SHIFT with the descriptor at a device address (R422, R426). -/
  | trlShift (desc : Nat)
  /-- A ring collective over `elements` 32-bit elements held in local memory of a tile (R453 to R461). -/
  | collective (op : CollOp) (dim : CollDim) (int32 : Bool) (elements : Nat) (root : Nat) (tile : Tile) (laddr : Nat)
  deriving DecidableEq, Repr

/-- What a flit of the package fabric carries (Table 6-3). -/
inductive FlitContent where
  | readData | stackFill | storeAck | tokenResult | multicastDelivery
  | eviction | forwardedStore
  | reductionPartial | thresherOutput
  | readRequest | storeRequest | tokenRequest | deadHint | windowChange
  | hostWrite | ingestWrite
  deriving DecidableEq, Repr

/-- A flit of the package fabric (R239): what it carries, the nodes it goes to (several only for a multicast), its name. -/
structure FabFlit where
  content : FlitContent
  dests : List Nat
  tag : Nat
  deriving DecidableEq, Repr

/-- A flit of a reduction (R253 to R258): POISON, or the elements' 32-bit words. -/
structure RedFlit where
  poison : Bool
  bytes : List Byte
  deriving DecidableEq, Repr

/-- A RED or DATA flit of the ring (R454): partition, plan, start beat, chunk and place, POISON, payload words. -/
structure RingFlit where
  red : Bool
  part : Part
  planId : Nat
  start : Nat
  chunk : Nat
  index : Nat
  poison : Bool
  vals : List W32
  deriving DecidableEq, Repr

/-- What wake step 12 and the steps of a die find out (Table 14-3): failed seam wires each way, stacks that fail training, tiles
that fail their test (sheaf of the die, physical tile), hPPR resources of the banks of both stacks (64 × pseudo-channel + bank, count)
read at training (R294). -/
structure DieTests where
  seamEW : Nat
  seamWE : Nat
  stackFail0 : Bool
  stackFail1 : Bool
  chFail0 : BitVec 64
  chFail1 : BitVec 64
  tileFails : List (Fin 16 × Fin 17)
  hppr0 : List (Nat × Nat)
  hppr1 : List (Nat × Nat)
  deriving DecidableEq, Repr

/-- What a VR_PG input does (R637, R639): a low of so many ns, or its level while VR_EN of the rail is low. -/
inductive PgChange where
  | low (ns : Nat)
  | level (high : Bool)
  deriving DecidableEq, Repr

/-- What a wake step reports when the condition it waits for is met (Table 14-3). -/
inductive WakeInfo where
  /-- Nothing but that the condition is met. -/
  | plain
  /-- Step 6: which hub firmware bank verified (R616). -/
  | firmware (bank : Bool)
  /-- Step 12 of a die: its tests. -/
  | tests (t : DieTests)
  /-- Step 13: the remap entries (by their order) whose hPPR succeeded, and per-bank resources left are the stack's own (R294). -/
  | repaired (entries : List Nat)
  deriving DecidableEq, Repr

/-- A write of a queue or completion-ring base or size (R368). -/
inductive QueueCfg where
  | qBase (q : Fin 32) (v : W64)
  | qSize (q : Fin 32) (v : BitVec 4)
  | cqBase (p : Part) (v : W64)
  | cqSize (p : Part) (v : BitVec 4)
  deriving DecidableEq, Repr

/-- Requests that R554 rejects. -/
inductive BadRequest where
  | peerToPeer | atomicOp | pasid
  deriving DecidableEq, Repr

/-- Tag sizes that the package uses as requester (R568). -/
inductive TagMode where
  | bits8 | bits10 | bits14
  deriving DecidableEq, Repr

/-- The mode of a trained link: FLIT mode, and the tags that the host has enabled (R553, R568). -/
structure LinkMode where
  flit : Bool
  tags : TagMode
  deriving DecidableEq, Repr

/-- Link errors that Table 16-5 maps to AER. -/
inductive LinkError where
  | receiver | badTlp | badDllp | replayTimeout | replayRollover | bufferCorrected | malformedTlp | flowControl | dataLink
  deriving DecidableEq, Repr

/-- The source of a Larkspur command (Table 17-3). -/
inductive CmdSrc where
  | host (port : Fin 8)
  | rack
  deriving DecidableEq, Repr

/-- The components of Table 17-6. -/
inductive Component where
  | larkspur
  | hub (slot : Fin 8)
  | bitstream (slot : Fin 8)
  deriving DecidableEq, Repr

/-- Redfish ResetType values (Table 17-5), and any other value. -/
inductive RedfishReset where
  | on | resume | suspend | gracefulShutdown (grace : Option Nat) | forceOff | forceRestart | powerCycle | other
  deriving DecidableEq, Repr

/-- The sensors of R610. -/
inductive Sensor where
  | tile (slot : Fin 8) | stack (slot : Fin 8) | power (slot : Fin 8) | cap (slot : Fin 8) | state (slot : Fin 8)
  | inputVolt | inputPower | fan (i : Fin 8) | cool0 | cool1
  deriving DecidableEq, Repr

/-- The commands, one constructor per row of the opcode table. -/
inductive Instr where
  /-- BEAT_BOUNDARY (R38): was the reference valid through the beat that ends, and on which dies was overcurrent sensed. -/
  | beatBoundary (refValid : Bool) (sense : BitVec 4)
  /-- TMP_BEAT_NOW_LOW_READ (R40). -/
  | tmpBeatNowLowRead (fn : Fn)
  /-- MARKER_RECEIVED (R45): the sender's beat number and the arrival, in ticks from the nearest own frame start. -/
  | markerReceived (link : Link) (beatNo : Nat) (arrival : Int)
  /-- CATCH_UP_REALIGN (R48). -/
  | catchUpRealign
  /-- BEAT_NUMBER_LOAD (R49). -/
  | beatNumberLoad
  /-- REF_EDGE_TIMEOUT (R51). -/
  | refEdgeTimeout
  /-- REF_FREQ_INTERVAL_END (R51): measured deviation in ppm. -/
  | refFreqIntervalEnd (ppm : Int)
  /-- HOLDOVER_EXPIRY (R55). -/
  | holdoverExpiry
  /-- HOLDOVER_EXIT (R58). -/
  | holdoverExit
  /-- FENCED_EXIT (R58). -/
  | fencedExit
  /-- SLOT_START (R59): step, slot of its grade, what the slot runs. -/
  | slotStart (step slot : Nat) (actions : List SlotAction)
  /-- SLOT_END (R70): overrun in whole foreground beats, and whether a ring slot was missed. -/
  | slotEnd (step slot overrun : Nat) (ringMissed : Bool)
  /-- SLD_VALIDATE (R118): the SRC and KEEP_MEM fields of the SLD_CTRL write. -/
  | sldValidate (src : BitVec 2) (keepMem : Bool)
  /-- SLD_LOAD (R119). -/
  | sldLoad (src : BitVec 2) (keepMem : Bool)
  /-- SLD_KEYOP (R671). -/
  | sldKeyop (src : BitVec 2) (keepMem : Bool)
  /-- SLD_READ_DONE (R670): did the read succeed, and its bytes. -/
  | sldReadDone (good : Bool) (data : List Byte)
  /-- MATCH_TIE_CLEAR (R113): the slice whose GRN_MATCH_TIE is written. -/
  | matchTieClear (slice : Die)
  /-- ALU_INSTR (R149): where it issues, at which cycle, and whether its OP is one the class defines. -/
  | aluInstr (tile : Tile) (slot : GSlot) (cycle : Nat) (legal : Bool)
  /-- CONVERT_INSTR (R149). -/
  | convertInstr (tile : Tile) (slot : GSlot) (cycle : Nat) (legal : Bool)
  /-- CONTROL_INSTR (R139). -/
  | controlInstr (tile : Tile) (slot : GSlot) (cycle : Nat) (legal : Bool) (kind : ControlKind)
  /-- MXE_MMA (R153). -/
  | mxeMma (tile : Tile) (slot : GSlot) (cycle : Nat) (legal : Bool)
  /-- MXE_ST (R157): `fp32` when its OP writes FP32, else it converts under FMT. -/
  | mxeSt (tile : Tile) (slot : GSlot) (cycle : Nat) (legal fp32 : Bool)
  /-- LOCAL_LOAD (R161). -/
  | localLoad (tile : Tile) (slot : GSlot) (cycle : Nat) (legal : Bool)
  /-- LOCAL_STORE (R178). -/
  | localStore (tile : Tile) (slot : GSlot) (cycle : Nat) (legal : Bool)
  /-- DEVICE_LOAD (R181). -/
  | deviceLoad (tile : Tile) (slot : GSlot) (cycle : Nat) (legal : Bool)
  /-- DEVICE_STORE (R178). -/
  | deviceStore (tile : Tile) (slot : GSlot) (cycle : Nat) (legal : Bool)
  /-- FENCE_L (R174). -/
  | fenceL (tile : Tile) (slot : GSlot) (cycle : Nat)
  /-- FENCE_D (R174). -/
  | fenceD (tile : Tile) (slot : GSlot) (cycle : Nat)
  /-- TOKEN_ACQ (R164). -/
  | tokenAcq (tile : Tile) (slot : GSlot) (cycle : Nat)
  /-- TOKEN_WAIT (R166). -/
  | tokenWait (tile : Tile) (slot : GSlot) (cycle : Nat)
  /-- TOKEN_REL (R168). -/
  | tokenRel (tile : Tile) (slot : GSlot) (cycle : Nat)
  /-- TOKEN_WAIT_LIMIT (R166). -/
  | tokenWaitLimit (tile : Tile) (slot : GSlot) (cycle : Nat)
  /-- GROUP_EXIT (R169). -/
  | groupExit (tile : Tile) (slot : GSlot)
  /-- ICACHE_FILL (R141): the line brings this many instruction words from the group's pc on. -/
  | icacheFill (tile : Tile) (slot : GSlot) (words : Nat)
  /-- STORE_DRAIN_START (R179). -/
  | storeDrainStart (tile : Tile) (cycle : Nat)
  /-- STORE_ACK (R180): the entry acknowledged, by its name. -/
  | storeAck (tile : Tile) (entry : Nat) (cycle : Nat)
  /-- LOAD_RESPONSE (R181): the load whose data returns, by its name. -/
  | loadResponse (load : Nat) (cycle : Nat)
  /-- GRANARY_READ (R192): the request, by its name, and what the line's check bits show on a hit. -/
  | granaryRead (req : Nat) (ecc : GrEcc)
  /-- GRANARY_FILL (R197): the line, and what the system ECC finds in its eight bursts. -/
  | granaryFill (line : Nat) (bursts : List Burst)
  /-- GRANARY_STORE (R199). -/
  | granaryStore (req : Nat)
  /-- WB_ENTRY_GRANT (R241): the pseudo-channel, and what the system ECC finds in the bursts that the write's merge reads (R272). -/
  | wbEntryGrant (x : Fin 512) (found : List Burst)
  /-- GRN_WIN_STAGE_WRITE (R212): by a function, through a slice's block, entry, LIMIT or BASE, value. -/
  | grnWinStageWrite (fn : Fn) (via : Die) (n : Fin 64) (isLimit : Bool) (value : W64)
  /-- GRN_WIN_CTRL_WRITE (R212). -/
  | grnWinCtrlWrite (fn : Fn) (via : Die) (n : Fin 64) (value : W32)
  /-- WINDOW_COMMIT (R212). -/
  | windowCommit
  /-- GRN_QUOTA_WRITE (R216). -/
  | grnQuotaWrite (fn : Fn) (via : Die) (p : Part) (value : W32)
  /-- STREAM_TRACKER_TIMEOUT (R219). -/
  | streamTrackerTimeout (slice : Die) (tracker : Fin 32)
  /-- FABRIC_FLIT_ARRIVAL (R244): the node, the input port, the flit. -/
  | fabricFlitArrival (node port : Nat) (flit : FabFlit)
  /-- ING_CREDIT_GRANT (R245). -/
  | ingCreditGrant (slice : Die)
  /-- THRESHER_INPUT (R256). -/
  | thresherInput (red node : Nat) (input : Fin 4) (flit : RedFlit)
  /-- THRESHER_EMIT (R256). -/
  | thresherEmit (red node : Nat)
  /-- DIE_CONSENSUS_REPORT (R260): the three values reported. -/
  | dieConsensusReport (die : Die) (fixedCrc winCrc : Option W64) (beatNo : Option Nat)
  /-- DIE_REPORT_TIMEOUT (R260). -/
  | dieReportTimeout (die : Die)
  /-- DIE_RELOAD_DONE (R509). -/
  | dieReloadDone (die : Die)
  /-- PARITY_RETRY (R274): pseudo-channel, device line address, failure, does this attempt pass. -/
  | parityRetry (x : Fin 512) (line : Nat) (kind : ParityKind) (pass : Bool)
  /-- REMAP_COPY_DONE (R288): the entry, and what the system ECC found in the 32 bursts of the row. -/
  | remapCopyDone (entry : Nat) (found : List Burst)
  /-- REMAP_TAKE_EFFECT (R290). -/
  | remapTakeEffect (entry : Nat)
  /-- REPAIR_LOG_WRITE (R292). -/
  | repairLogWrite (entry : Nat)
  /-- REFRESH_SLOT (R298): slot number n of pseudo-channel c of every stack. -/
  | refreshSlot (c : Fin 64) (n : Nat)
  /-- STACK_TEMP_SAMPLE (R300): the temperatures of the dies of a stack, none when the sample is invalid. -/
  | stackTempSample (stack : Fin 8) (temps : Option (List Int))
  /-- STACK_TRIP_RETURN (R306). -/
  | stackTripReturn (stack : Fin 8)
  /-- STACK_TEMP_LOST (R307). -/
  | stackTempLost (stack : Fin 8)
  /-- STP_DOORBELL (R345): by a function, through a BAR4 page or not, for a partition, value. -/
  | stpDoorbell (fn : Fn) (bar4 : Bool) (p : Part) (value : W32)
  /-- DESCRIPTOR_READ (R344). -/
  | descriptorRead (q : Fin 32)
  /-- STEP_ADMIT (R356). -/
  | stepAdmit (step : Nat)
  /-- C0_SLOT_START (R360). -/
  | c0SlotStart
  /-- STEP_COMPLETE (R352). -/
  | stepComplete (step : Nat)
  /-- STP_SHARE_WRITE (R357). -/
  | stpShareWrite (fn : Fn) (p : Part) (value : W32)
  /-- STP_C0_PHASE_WRITE (R358). -/
  | stpC0PhaseWrite (fn : Fn) (value : W32)
  /-- STP_C0_SHEAVES_WRITE (R359). -/
  | stpC0SheavesWrite (fn : Fn) (p : Part) (value : W64)
  /-- PART_RESET (R366): a write of STP_PART_CTRL[p].RESET. -/
  | partReset (fn : Fn) (p : Part)
  /-- QUEUE_CONFIG_WRITE (R368). -/
  | queueConfigWrite (fn : Fn) (w : QueueCfg)
  /-- SRV_CTX_READ (R380). -/
  | srvCtxRead (fn : Fn)
  /-- SRV_CTX_WRITE (R381). -/
  | srvCtxWrite (fn : Fn)
  /-- SRV_CTX_TRUNCATE (R382). -/
  | srvCtxTruncate (fn : Fn)
  /-- RTK_WALK_GO (R394). -/
  | rtkWalkGo (fn : Fn)
  /-- WALK_NODE_READ (R390): the walk slot. -/
  | walkNodeRead (slot : Fin 64)
  /-- ROOTSTOCK_WALK_DONE (R392). -/
  | rootstockWalkDone (slot : Fin 64)
  /-- TRL_SLOT_OWNER_WRITE (R407). -/
  | trlSlotOwnerWrite (fn : Fn) (n : Fin 64) (value : W32)
  /-- TRL_SLOT_CFG_WRITE (R408). -/
  | trlSlotCfgWrite (fn : Fn) (n : Fin 64) (value : BitVec 128)
  /-- TRL_PUSH (R409). -/
  | trlPush (fn : Fn) (n : Fin 64) (len : W32)
  /-- TRELLIS_FILL_DATA (R410): the next bytes of the fill. -/
  | trellisFillData (n : Fin 64) (data : List Byte)
  /-- BUFFER_COMPLETE (R410). -/
  | bufferComplete (n : Fin 64)
  /-- INGEST_SNAPSHOT (R413). -/
  | ingestSnapshot (step : Nat)
  /-- LINK_REPLAY (R431). -/
  | linkReplay (link : Link)
  /-- LINK_TRAIN_START (R435). -/
  | linkTrainStart
  /-- TRAIN_STEP_DONE (R434): the measured delay in ns is used at IDENT (R44). -/
  | trainStepDone (link : Link) (delayNs : Nat)
  /-- TRAIN_STEP_TIMEOUT (R434). -/
  | trainStepTimeout (link : Link)
  /-- LINK_LOCK_LOST (R449). -/
  | linkLockLost (link : Link)
  /-- CONSENSUS_WORD_RECEIVE (R442): the 32 bytes of the word. -/
  | consensusWordReceive (link : Link) (bytes : List Byte)
  /-- CONSENSUS_WORD_TIMEOUT (R438): a consensus beat passed with no valid CONSENSUS word on the link. -/
  | consensusWordTimeout (link : Link)
  /-- UPDATE_WORD_RECEIVE (R440). -/
  | updateWordReceive (link : Link) (bytes : List Byte)
  /-- DOMAIN_OF_ONE (R445). -/
  | domainOfOne
  /-- RESHAPE_ABORT_BEAT (R450). -/
  | reshapeAbortBeat
  /-- RING_FLIT_RECEIVE (R454). -/
  | ringFlitReceive (link : Link) (flit : RingFlit)
  /-- TRIP_WORD_ABORT (R462). -/
  | tripWordAbort
  /-- PWR_CAP_HOST_WRITE (R477). -/
  | pwrCapHostWrite (fn : Fn) (value : W32)
  /-- PWR_STATE_HOST_WRITE (R485). -/
  | pwrStateHostWrite (fn : Fn) (value : W32)
  /-- SIDEBAND_HOST_ORDER (R474): a cap or a state order of the host. -/
  | sidebandHostOrder (cap : Option Nat) (state : Option PState)
  /-- RACK_CAP_ORDER (R475): watts, or none to withdraw. -/
  | rackCapOrder (watts : Option Nat)
  /-- RACK_STATE_ORDER (R487): the state, grace in seconds when named, FORCE. -/
  | rackStateOrder (state : PState) (grace : Option Nat) (force : Bool)
  /-- BOARD_CAP_ORDER (R475). -/
  | boardCapOrder (watts : Nat)
  /-- BOARD_STATE_ORDER (R486). -/
  | boardStateOrder (state : PState)
  /-- RACK_OFF_GRACE_EXPIRY (R487). -/
  | rackOffGraceExpiry
  /-- PARK_DRAIN_DONE (R490). -/
  | parkDrainDone
  /-- PARK_EXIT_RESUME (R492). -/
  | parkExitResume
  /-- OVERCURRENT_SENSE (R494). -/
  | overcurrentSense (die : Die)
  /-- LIMITER_STEP_UP (R495). -/
  | limiterStepUp (die : Die)
  /-- LIMITER_STEP_DOWN (R495). -/
  | limiterStepDown (die : Die)
  /-- TILE_TEMP_SAMPLE (R499): hottest tile of each die. -/
  | tileTempSample (t0 t1 t2 t3 : List Int)
  /-- THERMTRIP (R502). -/
  | thermtrip
  /-- COLD_RESET (R634). -/
  | coldReset
  /-- AON_POWER_LOSS (R634). -/
  | aonPowerLoss
  /-- PKG_RESET (R648): which pin, and how long it was low in ns. -/
  | pkgReset (perst : Bool) (lowNs : Nat)
  /-- RESET_RELEASE (R650): both pins are released. -/
  | resetRelease
  /-- RST_CTRL_WARM (R508): the value written to RST_CTRL. -/
  | rstCtrlWarm (fn : Fn) (value : W32)
  /-- RST_CTRL_DIE (R509). -/
  | rstCtrlDie (fn : Fn) (value : W32)
  /-- FUNCTION_LEVEL_RESET (R513). -/
  | functionLevelReset (fn : Fn)
  /-- WAKE_STEP_DONE (R515): the die of a stage 2 step, and what the step reports. -/
  | wakeStepDone (die : Die) (info : WakeInfo)
  /-- WAKE_STEP_TIMEOUT (R515). -/
  | wakeStepTimeout (die : Die)
  /-- WAKE_RETRY_RESTART (R516, R517). -/
  | wakeRetryRestart (die : Die)
  /-- DIE_HANG_TIMEOUT (R526). -/
  | dieHangTimeout (die : Die)
  /-- HUB_WATCHDOG_KICK (R527). -/
  | hubWatchdogKick
  /-- HUB_WATCHDOG_EXPIRY (R527). -/
  | hubWatchdogExpiry
  /-- STACK_PATROL (R533): the bursts of the line read in one pseudo-channel. -/
  | stackPatrol (x : Fin 512) (bursts : List Burst)
  /-- GRANARY_PATROL (R537): what the check bits of the set's lines show, by line address. -/
  | granaryPatrol (slice : Die) (finds : List (Nat × GrEcc))
  /-- PHY_RETRAIN_PASS (R540). -/
  | phyRetrainPass
  /-- PHY_DRIFT_CHECK (R541): does the drift exceed the margin. -/
  | phyDriftCheck (exceeds : Bool)
  /-- TELEMETRY_WRITE (R546): the frame-average input power in watts. -/
  | telemetryWrite (watts : Nat)
  /-- BAR2_WRITE (R561). -/
  | bar2Write (fn : Fn) (off : Nat) (data : List Byte) (poisoned : Bool)
  /-- BAR2_READ (R563). -/
  | bar2Read (fn : Fn) (off len : Nat)
  /-- UNSUPPORTED_REQUEST (R554). -/
  | unsupportedRequest (fn : Fn) (kind : BadRequest)
  /-- SRIOV_CONFIG_CHANGE (R556). -/
  | sriovConfigChange (vfEnable : Bool) (numVfs : Fin 9)
  /-- BAR2_RESIZE (R559): the size as a power of two of GiB, and Memory Space Enable of the function as it stands. -/
  | bar2Resize (fn : Fn) (log2GiB : Nat) (mse : Bool)
  /-- DMA_START (R569): the value written to HIF_DMA_CTRL[e]. -/
  | dmaStart (fn : Fn) (e : Fin 16) (value : W32)
  /-- DMA_DONE (R571): bytes the host side moved, in address order, and whether the host side failed. -/
  | dmaDone (e : Fin 16) (data : List Byte) (hostErr : Bool)
  /-- UPSTREAM_COMPLETION (R567): the request's tag and its data. -/
  | upstreamCompletion (tag : Nat) (data : List Byte)
  /-- COMPLETION_TIMEOUT (R567). -/
  | completionTimeout (tag : Nat)
  /-- HOT_RESET (R578). -/
  | hotReset
  /-- LARKSPUR_START (R581): the COOL_CLASS reading. -/
  | larkspurStart (strap : Nat)
  /-- BIN_ID_READ (R583). -/
  | binIdRead (slot : Fin 8) (bin : Bin)
  /-- SLOT_PRESENT_RISE (R595). -/
  | slotPresentRise (slot : Fin 8)
  /-- TRAY_ID_WRITE (R28). -/
  | trayIdWrite (trayId : Fin 128) (slot : Fin 8)
  /-- FAN_FAIL (R588). -/
  | fanFail (fan : Fin 8)
  /-- INPUT_RANGE_LOSS (R590). -/
  | inputRangeLoss (nowMs : Nat)
  /-- INPUT_RANGE_RESTORE (R590). -/
  | inputRangeRestore
  /-- OFF_READY (R594). -/
  | offReady (slot : Fin 8) (nowMs : Nat)
  /-- OFF_READY_TIMEOUT (R594). -/
  | offReadyTimeout (slot : Fin 8) (nowMs : Nat)
  /-- PKG_GOOD_RISE (R596). -/
  | pkgGoodRise (slot : Fin 8)
  /-- PKG_GOOD_FALL (R595). -/
  | pkgGoodFall (slot : Fin 8) (nowMs : Nat)
  /-- REF_IN_CHANGE (R600): deviation of REF_IN in ppm, none when absent. -/
  | refInChange (ppm : Option Int)
  /-- COOLING_UPDATE (R602): hottest tile or stack temperature of each slot, none when not valid for 1 s. -/
  | coolingUpdate (temps : List (Option Int))
  /-- COOLING_WATCHDOG_KICK (R605). -/
  | coolingWatchdogKick
  /-- COOLING_WATCHDOG_EXPIRY (R605). -/
  | coolingWatchdogExpiry (nowMs : Nat)
  /-- COOLING_WATCHDOG_RELEASE (R606): two bytes, the time between them in us, the health check's findings (R607), the time. -/
  | coolingWatchdogRelease (b1 b2 : Byte) (us : Nat) (imageOk tachsOk tempsOk : Bool) (nowMs : Nat)
  /-- PKG_FAULT_RECOVERY (R611). -/
  | pkgFaultRecovery (slot : Fin 8) (lockout : Bool) (nowMs : Nat)
  /-- HOST_MCTP_MESSAGE (R608): host port, destination EID, and the slot a command names. -/
  | hostMctpMessage (port : Fin 8) (eid : Nat) (cmdSlot : Option (Fin 8))
  /-- SET_CAP (R609). -/
  | setCap (src : CmdSrc) (slot : Fin 8) (watts : Nat)
  /-- SET_STATE (R609). -/
  | setState (src : CmdSrc) (slot : Fin 8) (state : PState) (grace : Option Nat) (force : Bool)
  /-- GET_STATUS (R609). -/
  | getStatus (src : CmdSrc) (slot : Fin 8)
  /-- RESET_PKG (R609). -/
  | resetPkg (src : CmdSrc) (slot : Fin 8)
  /-- COLD_CYCLE (R612). -/
  | coldCycle (src : CmdSrc) (slot : Fin 8) (nowMs : Nat)
  /-- GATE_FORCE (R609). -/
  | gateForce (src : CmdSrc) (slot : Fin 8)
  /-- GATE_RELEASE (R598). -/
  | gateRelease (src : CmdSrc) (slot : Fin 8)
  /-- RETRAIN (R436). -/
  | retrain (src : CmdSrc) (slot : Fin 8)
  /-- SET_TRAY_ID (R587). -/
  | setTrayId (src : CmdSrc) (trayId : Fin 128)
  /-- SET_TEMPO (R600). -/
  | setTempo (src : CmdSrc) (track : Bool)
  /-- SET_BOOT (R617). -/
  | setBoot (src : CmdSrc) (slot : Fin 8) (hubBank sldBank : Bool)
  /-- SET_INPUT (R588). -/
  | setInput (src : CmdSrc) (watts : Nat)
  /-- SET_RECOVER (R611). -/
  | setRecover (src : CmdSrc) (slot : Fin 8) (auto : Bool)
  /-- PLDM_SENSOR_READ (R610): the sensor, and the reading of those that Larkspur measures itself or another package holds. -/
  | pldmSensorRead (sensor : Sensor) (measured : Int)
  /-- SPDM_GET_VERSION (R614): the responder, false the package, true Larkspur. -/
  | spdmGetVersion (larkspur : Bool)
  /-- SPDM_GET_CAPABILITIES (R614). -/
  | spdmGetCapabilities (larkspur : Bool)
  /-- SPDM_NEGOTIATE_ALGORITHMS (R614): does the requester offer ECDSA P-384 and SHA-384. -/
  | spdmNegotiateAlgorithms (larkspur : Bool) (ecdsaP384 sha384 : Bool)
  /-- SPDM_GET_DIGESTS (R614). -/
  | spdmGetDigests (larkspur : Bool)
  /-- SPDM_GET_CERTIFICATE (R614): a portion of the chain. -/
  | spdmGetCertificate (larkspur : Bool) (off len : Nat)
  /-- SPDM_CHALLENGE (R614): the requester's nonce. -/
  | spdmChallenge (larkspur : Bool) (nonce : BitVec 256)
  /-- SPDM_GET_MEASUREMENTS (R614): a block of Table 17-4. -/
  | spdmGetMeasurements (larkspur : Bool) (index : Nat)
  /-- REDFISH_PROCESSOR_RESET (R615). -/
  | redfishProcessorReset (slot : Fin 8) (kind : RedfishReset) (nowMs : Nat)
  /-- REDFISH_STANDBY (R615). -/
  | redfishStandby (slot : Fin 8)
  /-- REDFISH_POWER_LIMIT (R615): a set point in watts, or null. -/
  | redfishPowerLimit (slot : Fin 8) (watts : Option Nat)
  /-- REDFISH_CHASSIS_RESET (R615): PowerCycle, or another value. -/
  | redfishChassisReset (powerCycle : Bool) (nowMs : Nat)
  /-- FIRMWARE_UPDATE_REQUEST (R621): component, image, does its signature verify, is it STAGED, was it written whole. -/
  | firmwareUpdateRequest (comp : Component) (image : List Byte) (sigOk staged complete : Bool)
  /-- TRAY_POWER_CYCLE (R619): the tray's input power goes and returns. -/
  | trayPowerCycle
  /-- HEALTH_CHECK_FAIL (R620). -/
  | healthCheckFail (comp : Component)
  /-- RAIL_FAULT (R637, R642): the rail index of Table 18-3, and what its VR_PG does. -/
  | railFault (d : Fin 64) (pg : PgChange)
  /-- REGISTER_WRITE (R8): function, BAR0 offset, size in bytes, value. -/
  | registerWrite (fn : Fn) (off size : Nat) (value : W64)
  /-- TMP_BEAT_NOW_HIGH_READ (R40). -/
  | tmpBeatNowHighRead (fn : Fn)
  /-- PCIE_LINK_TRAINED (R575): rate code of Table 16-7, width in lanes, FLIT mode and tags. -/
  | pcieLinkTrained (rate : Fin 8) (width : Nat) (mode : LinkMode)
  /-- HOST_PORT_LINK_ERROR (R574). -/
  | hostPortLinkError (kind : LinkError)
  /-- D3HOT_TRANSITION (R575). -/
  | d3hotTransition (fn : Fn) (toD3 : Bool)
  /-- I3C_DYNAMIC_ADDRESS_TIMEOUT (R629). -/
  | i3cDynamicAddressTimeout (slot : Fin 8)
  deriving DecidableEq, Repr

end Sys2Proof
end

