-- ==== Sys2Proof/Machine/State.lean ====
section
/-! DEFINITION. The state of the block as plain data: the command queue, every register, buffer, table, counter and pin the manual
names, and State.reset. Field comments name the rule; a value after ":=" is the value at reset (see notes/assumptions where the
manual gives none). -/

namespace Sys2Proof.Machine

/-- A sparse map with natural keys, kept sorted with no entry equal to the default (the one canonical form of every sparse store). -/
abbrev NMap (β : Type) := List (Nat × β)

/-! ## Fuses (R79, R98, R102 to R107, R469, R470, R494) -/

inductive KeyState where
  | empty | enrolled | revoked
  deriving DecidableEq, Repr

structure Fuses where
  bin : Bin := .yp4L
  opEnable : Vector Bool 8 := Vector.replicate 8 true
  vmin : Vector (Vector Nat 8) 4 := Vector.replicate 4 #v[840, 800, 760, 710, 660, 600, 550, 500]
  vmax : Vector Nat 4 := Vector.replicate 4 1000
  ocA : Vector Nat 4 := Vector.replicate 4 360
  ceil : Vector Nat 8 := #v[1720, 1450, 1190, 960, 770, 560, 400, 290]
  keyHash : Vector (BitVec 384) 5 := Vector.replicate 5 0
  keyState : Vector KeyState 4 := Vector.replicate 4 .empty
  rootOff : Bool := false
  deriving DecidableEq, Repr

/-! ## Structure in force (R79 to R100, R203, R246, R250, R319, R443) -/

/-- A partition descriptor (Table 3-5). -/
structure PartDesc where
  part : Nat
  enabled : Bool
  deadreadFault : Bool
  ring : Bool
  c0 : Bool
  vf : Nat
  grWays : Nat
  share : Nat
  ctxBase : Nat
  ctxCount : Nat
  dmaMask : BitVec 16
  sheafMask : BitVec 64
  channelMask : BitVec 512
  deriving DecidableEq, Repr

/-- The prefix of a table entry (03, TABLE). -/
structure EntryHead where
  prio : Nat
  part : Nat
  valid : Bool
  deriving DecidableEq, Repr

/-- A WINDOW entry of the container (R203). -/
structure WinEntry where
  head : EntryHead
  base : Nat
  limit : Nat
  cls : Nat
  detoff : Bool
  deriving DecidableEq, Repr

/-- A DEGRADE entry (11). -/
structure DegradeEntry where
  head : EntryHead
  value : W64
  mask : W64
  variant : Nat
  dstep : Nat
  deriving DecidableEq, Repr

/-- A node of a reduction tree (Table 6-4). -/
structure TreeNode where
  ins : List Nat
  site : Nat
  deriving DecidableEq, Repr

/-- A TREE entry (R250). -/
structure TreeEntry where
  head : EntryHead
  format : Nat
  root : Nat
  outCode : Nat
  dest : W32
  nodes : List TreeNode
  deriving DecidableEq, Repr

/-- A COMPAT entry (R443). -/
structure CompatEntry where
  head : EntryHead
  lo : Nat
  hi : Nat
  deriving DecidableEq, Repr

/-- A BUDGET entry (R319). -/
structure BudgetEntry where
  head : EntryHead
  bytes : List Nat
  deriving DecidableEq, Repr

/-- An MCAST entry (R246). -/
structure McastEntry where
  head : EntryHead
  mask : BitVec 64
  deriving DecidableEq, Repr

/-- A slot entry of a plan grade. -/
structure PlanSlot where
  off : Nat
  beats : Nat
  cycles : Nat
  deriving DecidableEq, Repr

/-- A grade entry of a plan with its tile map, references and slots. -/
structure PlanGrade where
  grade : Nat
  fgBeats : Nat
  tiles : List Nat
  refs : List (Nat × Nat)
  slots : List PlanSlot
  deriving DecidableEq, Repr

/-- A PLAN record (03). -/
structure PlanRec where
  id : Nat
  codeId : Nat
  tiles : Nat
  part : Nat
  variant : Nat
  collective : Bool
  grades : List PlanGrade
  deriving DecidableEq, Repr

/-- A CODE record (03). -/
structure CodeRec where
  id : Nat
  part : Nat
  addr : Nat
  image : List Byte
  deriving DecidableEq, Repr

/-- One entry of a SEQ list: OP, RAIL, DELAY_US (03). -/
structure SeqOp where
  op : Nat
  rail : Nat
  delayUs : Nat
  deriving DecidableEq, Repr

/-- The structure a container defines (R79), with the die share of R672 and the header fields the consensus word carries. -/
structure Structure where
  hash : BitVec 384
  compatClass : Nat
  minor : Nat
  c0Period : Nat
  parts : List PartDesc
  windows : List WinEntry
  degrade : Option (List DegradeEntry)
  trees : List TreeEntry
  compat : List CompatEntry
  budgets : List BudgetEntry
  mcasts : List McastEntry
  plans : List PlanRec
  codes : List CodeRec
  seq : Option (List SeqOp × List SeqOp)
  refresh : Option (List (Int × Nat))
  optable : Option (List (Bool × Nat))
  dieShare : List Byte
  deriving DecidableEq, Repr

/-! ## Tempo (02) -/

/-- What MARKER_RECEIVED found to do (R48, R49). -/
inductive Realign where
  | none | skip | hold | load
  deriving DecidableEq, Repr

/-- The last marker received on the alignment link (R45, R49): ticks are counted as Tempo.nowTicks is. -/
structure Marker where
  link : Link
  beatNo : Nat
  atTicks : Int
  /-- The own beat in which it arrived: a load it asks for waits for a later frame boundary (R49). -/
  atBeat : Nat
  deriving DecidableEq, Repr

/-- TMP_SLIP_LAST (Table 2-7); cause 0 OVERRUN, 1 LIMITER, 2 DELAYED, 3 REALIGN. -/
structure SlipLast where
  beat : BitVec 24 := 0
  planId : BitVec 16 := 0
  part : BitVec 3 := 0
  cause : BitVec 2 := 0
  overrun : BitVec 11 := 0
  deriving DecidableEq, Repr

structure Tempo where
  /-- The beat count has started (R41). -/
  counting : Bool := false
  beat : Nat := 0
  nowTicks : Nat := 0
  frameStart : Nat := 0
  beatTicks : Nat := 1000
  beatPhase : Nat := 0
  mode : TempoMode := .fenced
  refPresent : Bool := false
  validBeats : Nat := 0
  lastFreqPpm : Int := 0
  holdoverLeft : Nat := 1000
  phaseErr : Int := 0
  /-- Ticks of phase error still to trim, one in each foreground beat (R46). -/
  trimLeft : Int := 0
  aligned : Bool := false
  alignLink : Link := 0
  marker : Option Marker := none
  realign : Realign := .none
  /-- The skip or hold of R48 acts at the end of this beat. -/
  realignArmed : Bool := false
  realignCount : W32 := 0
  slipCount : W32 := 0
  slipPart : Vector W32 8 := Vector.replicate 8 0
  slipLast : SlipLast := {}
  linkDelay : Vector (Option (BitVec 16)) 8 := Vector.replicate 8 none
  latch : Vector (Option W32) 9 := Vector.replicate 9 none
  /-- The highest beat number reached, and whether the current one had been reached before (R665). -/
  reached : Nat := 0
  again : Bool := false
  /-- Beats and frame starts that have passed, whatever number a load gives the beat: what counts beats or frames counts these. -/
  elapsed : Nat := 0
  frames : Nat := 0
  deriving DecidableEq, Repr

/-! ## Grades (R62 to R69, R666) -/

/-- A grade announcement (R67). -/
structure Announce where
  rank : Nat
  own : Bool
  grade : Nat
  eff : Nat
  deriving DecidableEq, Repr

structure Grades where
  now : Nat := 0
  /-- The operating point that the core clock runs at (R62, R63). -/
  clock : Nat := 0
  announced : List Announce := []
  /-- Standing grades of the other members by rank (R68). -/
  standing : List (Nat × Nat) := []
  ownStanding : Nat := 0
  ownAnnounced : Option Nat := none
  reannounce : Bool := false
  deriving DecidableEq, Repr

/-! ## Loader (03) -/

inductive JobKind where
  | validate | load | keyop | boot (second : Bool)
  deriving DecidableEq, Repr

inductive JobStage where
  | header | body | reread | keyBlock
  deriving DecidableEq, Repr

/-- An SLD operation under way (R118, R119, R670, R671). -/
structure Job where
  kind : JobKind
  src : Nat
  stage : JobStage
  held : List Byte
  digest : BitVec 384
  shadow : Option Structure
  deriving DecidableEq, Repr

structure Loader where
  op : BitVec 2 := 0
  src : BitVec 2 := 0
  keepMem : Bool := false
  srcAddr : W64 := 0
  srcLen : W32 := 0
  code : Code := .structNone
  busy : Bool := false
  reject : Bool := false
  locked : Bool := false
  phase : Nat := 0
  lastSrc : BitVec 2 := 0
  errOff : W32 := 0
  errRec : BitVec 16 := 0
  bank : Bool := false
  fallback : Bool := false
  nonce : W64 := 0
  hash : BitVec 384 := 0
  dieHash : Vector W64 4 := Vector.replicate 4 0
  loadCount : W32 := 0
  job : Option Job := none
  deriving DecidableEq, Repr

/-! ## Tiles (04) -/

/-- Why a group does not issue (R137, R141, R166, R174, R178). -/
inductive Hold where
  | none | fetch | fenceL | fenceD | token | storeFull | release
  deriving DecidableEq, Repr

/-- A running group (R135 to R146). Registers are keyed 32 × register + lane, entries of the register cache 32 × entry + lane. -/
structure Group where
  /-- The launch it stems from, which its stores and loads name. -/
  id : Nat
  part : Nat
  step : Nat
  cls : Nat
  codeBase : Nat
  pc : Nat
  exec : W32
  preds : List W32
  regs : NMap W32
  rc : NMap W32
  /-- Cycle from which an operand code's value is ready (R140). -/
  ready : NMap Nat
  /-- The same for predicates p0 to p6. -/
  predReady : NMap Nat
  /-- Cycle from which later memory accesses may issue (R176). -/
  memReady : Nat
  /-- The latest cycle at which a DEVICE load of the group returned (R174, R181), and the cycle from which a fence lets it go on. -/
  loadsBack : Nat
  resumeAt : Nat
  /-- The group fetches from a line that was not preloaded (R141). -/
  fetching : Bool
  hold : Hold
  /-- Deadline of its tagged requests: the last beat of its slot (R326). -/
  deadline : Nat
  slotEnd : Nat
  deriving DecidableEq, Repr

/-- A token state (R164). -/
inductive Token where
  | free
  | held (part tile slot lane : Nat)
  | forfeit
  deriving DecidableEq, Repr

/-- A group waiting for a token (R166). -/
structure TokenWaiter where
  token : Nat
  tile : Nat
  slot : Nat
  dst : BitVec 8
  lanes : W32
  limit : Option Nat
  /-- The register-cache entry that KEEP copies the status into (R145). -/
  keep : Option Nat
  deriving DecidableEq, Repr

/-- What a request asks of a token unit (R164 to R168). -/
inductive TokenOp where
  | acq | wait | rel
  deriving DecidableEq, Repr

/-- A request as its token unit serves it. -/
structure TokenReq where
  op : TokenOp
  part : Nat
  tile : Nat
  slot : Nat
  dst : BitVec 8
  lanes : W32
  limit : Option Nat
  keep : Option Nat
  deriving DecidableEq, Repr

/-- The requests that reach a token in one cycle (R167): the token and its waiters before them. -/
structure TokenTurn where
  token : Nat
  cycle : Nat
  latency : Nat
  before : Token
  waits : List TokenWaiter
  reqs : List TokenReq
  deriving DecidableEq, Repr

/-- Bytes of an MXE.ST on their way to local memory (Table 4-2). -/
structure MxeWrite where
  tile : Nat
  addr : Nat
  bytes : List Byte
  at_ : Nat
  deriving DecidableEq, Repr

/-- A store-buffer entry (R178): `space` names the tile whose local memory it targets, none for device memory. -/
structure SbEntry where
  id : Nat
  tile : Nat
  space : Option Nat
  block : Nat
  mask : BitVec 64
  data : List Byte
  taken : Nat
  begun : Option Nat
  /-- The groups with bytes in it (R174, R179). -/
  groups : List Nat
  part : Nat
  step : Nat
  cls : Nat
  deadline : Option Nat
  deriving DecidableEq, Repr

/-- One active lane of a DEVICE load: its address and the bytes the store buffer held for it (R171, R181). -/
structure LaneAcc where
  lane : Nat
  addr : Nat
  ovl : List (Option Byte)
  deriving DecidableEq, Repr

/-- A DEVICE load outstanding. -/
structure Load where
  id : Nat
  tile : Nat
  slot : Nat
  group : Nat
  pc : Nat
  dst : BitVec 8
  /-- The entry that KEEP copies into, and whether it takes the result (R145). -/
  keep : Option (Nat × Bool)
  size : Nat
  lanes : List LaneAcc
  need : List Nat
  got : List (Nat × List Byte)
  code : Option Code
  partialOvl : Bool
  slots : Nat
  issue : Nat
  deadline : Option Nat
  /-- How many of its requests have lost their tag (R328). -/
  demoted : Nat
  deriving DecidableEq, Repr

/-- SHF_GROUP_FAULT (Table 4-13). -/
structure GroupFault where
  valid : Bool := false
  code : BitVec 16 := 0
  tile : BitVec 4 := 0
  slot : BitVec 3 := 0
  pc : W32 := 0
  /-- The cycle of the fault, which a lower group of the same cycle may still replace (R152). -/
  cycle : Option Nat := none
  deriving DecidableEq, Repr

structure Tiles where
  /-- Running groups, keyed 8 × tile + slot. -/
  groups : List (Nat × Group) := []
  lastSlot : NMap Nat := []
  nextIssue : NMap Nat := []
  mxeFree : NMap Nat := []
  /-- Bytes of local memory, keyed 2^19 × tile + address. -/
  localMem : NMap Byte := []
  /-- Accumulators, keyed 8192 × tile + 1024 × ACC + 32 × row + column. -/
  acc : NMap W32 := []
  storeBuf : List SbEntry := []
  /-- Preloaded instruction words, keyed 2^40 × tile + device address / 8. -/
  icache : NMap (BitVec 64) := []
  loads : List Load := []
  mxeOut : List MxeWrite := []
  /-- Response slots of token requests: the tile, and the cycle at which the result returns (R240). -/
  tokenOut : List (Nat × Nat) := []
  tokenTurn : List TokenTurn := []
  tokens : NMap Token := []
  tokenWait : List TokenWaiter := []
  spare : Vector Nat 64 := Vector.replicate 64 16
  failedTile : Vector Nat 64 := Vector.replicate 64 0x1F
  sheafFailed : Vector Bool 64 := Vector.replicate 64 false
  groupFault : Vector GroupFault 64 := Vector.replicate 64 {}
  fetchMiss : Vector W32 64 := Vector.replicate 64 0
  deriving DecidableEq, Repr

/-! ## Granary (05) -/

/-- A cached line (R189, R199, R205). -/
structure GLine where
  line : Nat
  part : Nat
  /-- Its way of the set, one of its partition's (R190). -/
  way : Nat
  data : List Byte
  valid : BitVec 256
  dirty : BitVec 256
  win : Option Nat
  used : Nat
  inserted : Nat
  deriving DecidableEq, Repr

/-- Who made a request (Table 8-2 and R193). -/
inductive ReqSrc where
  | load (id : Nat)
  | store (tile entry : Nat)
  | posted (fn id : Nat)
  | trellis (slot : Nat)
  | mcast (step entry tile laddr : Nat)
  /-- An access of an engine's job: the job, and the number of the access in its run. -/
  | engine (job n : Nat)
  deriving DecidableEq, Repr

/-- A request on its way to its home slice or held there. -/
structure MemReq where
  id : Nat
  line : Nat
  part : Nat
  master : Nat
  cls : Nat
  deadline : Option Nat
  last : Bool
  write : Bool
  mask : BitVec 256
  data : List Byte
  poisoned : Bool
  die : Option Nat
  step : Option Nat
  src : ReqSrc
  deriving DecidableEq, Repr

/-- A waiter of a miss register with the store bytes that had reached the slice when it joined (R197). -/
structure Waiter where
  req : MemReq
  mask : BitVec 256
  data : List Byte
  deriving DecidableEq, Repr

/-- A miss register (R192 to R197, R222, R331). -/
structure Miss where
  line : Nat
  part : Nat
  waiters : List Waiter
  mask : BitVec 256
  data : List Byte
  dead : Bool
  alloc : Bool
  win : Option Nat
  issued : Bool
  deadline : Option Nat
  /-- The request that took the register was deadline-tagged (R332). -/
  tagged : Bool
  master : Nat
  cls : Nat
  /-- The line as filled, while its way waits for an eviction, or the bytes kept here for their write-buffer entry (R241). -/
  fillData : Option (List Byte)
  /-- The fill was POISON: those who join it while it waits receive POISON too (R282, R676). -/
  bad : Bool
  /-- The masters whose stores the register keeps, with the bytes of each (R315). -/
  stores : List (Nat × BitVec 256)
  /-- The steps whose stores it keeps (R277). -/
  steps : List Nat
  deriving DecidableEq, Repr

/-- A read that a stack controller serves in the place of a slice that is out of service (R231, R232). -/
structure Direct where
  req : MemReq
  /-- Its stack read is not held by R318. -/
  issued : Bool
  deriving DecidableEq, Repr

/-! ### Accesses of engines (R188): DMA engines, plan transfers, the serving complex, Trellis, the host port, instruction fetch -/

/-- For whom an engine makes an access: its master, class, deadline, and step (R313, R324, R326). -/
structure Who where
  master : Nat
  cls : Nat
  deadline : Option Nat
  step : Option Nat
  deriving DecidableEq, Repr

/-- An access of a job: bytes to read, or bytes to write. -/
structure EngAcc where
  n : Nat
  who : Who
  addr : Nat
  len : Nat
  bytes : Option (List Byte)
  deriving DecidableEq, Repr

/-- An access that a job has made: the lines that have not answered, and what the others gave: their bytes, and a code. -/
structure EngRec where
  job : Nat
  n : Nat
  left : List Nat
  got : List (Nat × List Byte × Option Code)
  deriving DecidableEq, Repr

/-- The run of a job that is being tried: the next access, and the first one that has no answer yet. -/
structure EngRun where
  job : Nat
  n : Nat
  miss : Option EngAcc
  deriving DecidableEq, Repr

/-- Where the bytes of a gather go or those of a scatter come from. -/
inductive KvPlace where
  | local_ (tile addr : Nat)
  | device (addr : Nat)
  deriving DecidableEq, Repr

/-- What an engine does with device memory: it waits here until the slices have answered each of its accesses. -/
inductive EngJob where
  /-- An action of a slot of a step, with the slot's last beat. -/
  | action (step slot last : Nat) (a : SlotAction)
  /-- The ingest view of a step is written (R416). -/
  | view (step : Nat) (addr : Nat) (bytes : List Byte)
  /-- Bytes of a host page of a gather reach their place (R386). -/
  | hostPage (step : Nat) (addr : Nat) (deadline : Option Nat) (bytes : List Byte)
  /-- A queue's descriptor is read (R344). -/
  | descriptor (q : Nat)
  /-- A BAR2 read (R561). -/
  | bar2 (fn off len : Nat)
  | dmaOut (e moved : Nat) (hostErr : Bool)
  | dmaIn (e : Nat) (data : List Byte) (hostErr : Bool)
  /-- The request, the next node, or the result of the walk in a slot (R389 to R392). -/
  | walkRequest (slot : Nat)
  | walkNode (slot : Nat)
  | walkDone (slot : Nat)
  /-- Instruction words for a group (R141). -/
  | fetch (tile slot words : Nat)
  deriving DecidableEq, Repr

/-- A window entry (Tables 5-4, 5-8). -/
structure Window where
  base : Nat := 0
  limit : Nat := 0xFF
  valid : Bool := false
  prio : Nat := 0
  part : Nat := 0
  detoff : Bool := false
  cls : Nat := 1
  deriving DecidableEq, Repr

/-- Staged values of a window entry (R212). -/
structure Stage where
  base : Option Nat := none
  limit : Option Nat := none
  deriving DecidableEq, Repr

/-- GRN_QUOTA[p] (Table 5-7). -/
structure Quota where
  pin : Nat := 0
  persist : Nat := 0
  stream : Nat := 1
  deriving DecidableEq, Repr

/-- A stream tracker (R217 to R220). -/
structure Tracker where
  part : Nat
  lastLine : Int
  stride : Int
  count : Nat
  detected : Bool
  used : Nat
  lastBeat : Nat
  deriving DecidableEq, Repr

/-- The state of one slice besides its lines. -/
structure Slice where
  quotaErr : Bool := false
  winErr : Bool := false
  deadread : Bool := false
  drValid : Bool := false
  drPart : Nat := 0
  drAddr : Nat := 0
  matchTie : BitVec 16 := 0
  mergeFull : W32 := 0
  poolFull : W32 := 0
  trackers : List (Option Tracker) := []
  /-- The 64-entry dead-read detector, newest first: line and partition (R226). -/
  killed : List (Nat × Nat) := []
  patrolSet : Nat := 0
  /-- Beats passed when the last set was patrolled (R537). -/
  patrolAt : Option Nat := none
  deriving DecidableEq, Repr

structure Granary where
  lines : List GLine := []
  misses : List Miss := []
  direct : List Direct := []
  heldMerge : List MemReq := []
  heldPool : List MemReq := []
  reqs : List MemReq := []
  win : Vector Window 64 := Vector.replicate 64 {}
  stage : Vector Stage 64 := Vector.replicate 64 {}
  armed : List (Nat × Window) := []
  quota : Vector Quota 8 := Vector.replicate 8 {}
  slice : Vector Slice 4 := Vector.replicate 4 {}
  clock : Nat := 0
  /-- Engine jobs under way by name, the accesses they have made, and the run that is being tried. -/
  jobs : List (Nat × EngJob) := []
  recs : List EngRec := []
  run : Option EngRun := none
  deriving DecidableEq, Repr

/-! ## Fabric (06) -/

/-- A fabric input port (R244): shared buffers, one escape buffer per class. Nodes 0 to 63 are the routers of the sheaves, 64 the hub;
a port is named by the node its flits come from, the node itself for what attaches there. -/
structure Port where
  node : Nat
  port : Nat
  shared : List FabFlit
  escape : List FabFlit
  deriving DecidableEq, Repr

/-- A reduction in progress (R242, R253 to R258). -/
structure Red where
  id : Nat
  step : Nat
  part : Nat
  tree : Nat
  flits : Nat
  /-- Input slots, keyed 4 × node + input: what waits, oldest first, as flits of 16 FP32 or INT32 elements (R254). -/
  slots : List (Nat × List RedFlit)
  /-- Output flits the root has emitted. -/
  rootOut : Nat
  code : Option Code
  deriving DecidableEq, Repr

/-- The FAB registers of a die (Tables 6-6, 6-7). -/
structure FabDie where
  failed : Bool := false
  reloading : Bool := false
  /-- The reload has completed and the die waits for a frame boundary (R262). -/
  reloaded : Bool := false
  reloads : Nat := 0
  /-- Frames passed when the reload began (R262), and at the die's last report (R260). -/
  reloadAt : Nat := 0
  reportedAt : Option Nat := none
  /-- What the die's own copies have become where they differ from the hub's (R259, R261): the CRC of its share, the CRC of its slice's
  window image, its beat number. -/
  badShare : Option W64 := none
  badWindow : Option W64 := none
  badBeat : Option Nat := none
  lastFrame : W32 := 0
  lastBeatBad : Bool := false
  lastWinBad : Bool := false
  lastFixedBad : Bool := false
  fixedCrc : W64 := 0
  fixedCrcRef : W64 := 0
  seamEW : Nat := 0
  seamWE : Nat := 0
  escapeUse : Vector W32 5 := Vector.replicate 5 0
  thrPoison : W32 := 0
  deriving DecidableEq, Repr

structure Fabric where
  ports : List Port := []
  /-- Flits on their way between two nodes, oldest first: from, to, flit. -/
  transit : List (Nat × Nat × FabFlit) := []
  /-- Flits that have sunk at a node (R239). -/
  sunk : List (Nat × FabFlit) := []
  /-- The input port each output port served last, keyed by 128 × node + output port (R243). -/
  rotation : NMap Nat := []
  ingCredit : Vector Nat 4 := Vector.replicate 4 64
  ingWait : List MemReq := []
  reds : List Red := []
  die : Vector FabDie 4 := Vector.replicate 4 {}
  deriving DecidableEq, Repr

/-! ## Stacks (07) -/

/-- The registers and histories of one stack (Tables 7-4 to 7-6, R301 to R307). -/
structure Stack where
  failed : Bool := false
  trained : Bool := false
  tempLost : Bool := false
  tripped : Bool := false
  warn : Bool := false
  selfRefresh : Bool := false
  tempMax : Int := -128
  tempValid : Bool := false
  temp : Int := 0
  remapFull : W32 := 0
  ce : W32 := 0
  ue : W32 := 0
  parExhaust : BitVec 16 := 0
  parPass : BitVec 16 := 0
  errValid : Bool := false
  errCause : Nat := 0
  errAddr : Nat := 0
  chFail : BitVec 64 := 0
  mult : Nat := 512
  multNext : Option Nat := none
  pprLast : Nat := 0
  /-- The grade the stack warning reason allows, while it stands (R301, R302). -/
  warnGrade : Option Nat := none
  /-- The effective frame of the last drop that R301 or R302 announced. -/
  lastDropEff : Nat := 0
  hotSince : Option Nat := none
  coolSince : Option Nat := none
  below95Since : Option Nat := none
  lastValidBeat : Nat := 0
  /-- Elapsed beats at its last sample (R300). -/
  sampledAt : Option Nat := none
  /-- hPPR resources left in its banks, read at training, keyed 64 × pseudo-channel + bank (R294). -/
  hppr : NMap Nat := []
  deriving DecidableEq, Repr

/-- A remap entry (R288 to R294): pseudo-channel, bank (6 bits of o[15:10]), row, spare row. -/
structure Remap where
  order : Nat
  x : Nat
  bank : Nat
  row : Nat
  spare : Nat
  copied : Bool
  active : Bool
  logged : Bool
  deriving DecidableEq, Repr

/-- A row whose correctable errors are counted (R286). -/
structure CeRow where
  x : Nat
  bank : Nat
  row : Nat
  count : Nat
  order : Nat
  deriving DecidableEq, Repr

/-- What follows when the write-buffer entry is granted (R241). -/
inductive AfterWb where
  | nothing
  /-- Finish the fill of this line, which waited for the way that the eviction frees. -/
  | fill (line part : Nat)
  /-- Serve this store again, which waited for the way that the eviction frees. -/
  | store (r : MemReq)
  /-- Acknowledge this store, which goes to the stack itself (R207, R231). -/
  | ack (r : MemReq)
  deriving DecidableEq, Repr

/-- A line write that waits for a write-buffer entry of its pseudo-channel (R241), or holds one (R271). -/
structure WbWait where
  id : Nat
  x : Nat
  line : Nat
  mask : BitVec 256
  data : List Byte
  poisoned : Bool
  evict : Bool
  master : Nat
  andThen : AfterWb
  deriving DecidableEq, Repr

/-- A parity retry under way (R273): attempts made. -/
structure Retry where
  x : Nat
  line : Nat
  kind : ParityKind
  tries : Nat
  /-- The one poison write of Table 7-3 is being retried. -/
  poisonWrite : Bool
  deriving DecidableEq, Repr

structure Memory where
  cells : List Host.Cell := []
  /-- Bursts that hold the poison syndrome, as physical address / 32, sorted (R284). -/
  poison : List Nat := []
  wbWait : List WbWait := []
  /-- Writes in the write buffers of a tripped stack, which keep their entries until it returns (R271, R304). -/
  wbuf : List WbWait := []
  stack : Vector Stack 8 := Vector.replicate 8 {}
  remap : List Remap := []
  ceRows : List CeRow := []
  retries : List Retry := []
  retryUsed : NMap Nat := []
  exhaust : NMap Nat := []
  refreshSlots : NMap Nat := []
  /-- The next refresh slot of a pseudo-channel of every stack (R296). -/
  nextSlot : NMap Nat := []
  refreshes : NMap Nat := []
  deriving DecidableEq, Repr

/-! ## Byte windows (08) -/

/-- What R318 holds. -/
inductive HeldKind where
  /-- The stack read of a miss register. -/
  | miss (line part : Nat)
  /-- A write that waits for its write-buffer entry, by its name. -/
  | write (id : Nat)
  /-- The stack read of a request of R231, by its name. -/
  | direct (req : Nat)
  deriving DecidableEq, Repr

structure Held where
  master : Nat
  group : Nat
  charge : Nat
  /-- A descriptor read of a C0 queue, which may use the units that R323 keeps. -/
  c0 : Bool
  kind : HeldKind
  deriving DecidableEq, Repr

/-- BWR_DL_MISS_LAST (Table 8-6, 8-7). -/
structure DlMissLast where
  deadline : BitVec 24 := 0
  doneBeat : BitVec 24 := 0
  group : BitVec 6 := 0
  master : BitVec 7 := 0
  deriving DecidableEq, Repr

structure Bwr where
  /-- Units used in this beat, keyed 64 × master + group (R317). -/
  used : NMap Nat := []
  last : NMap Nat := []
  held : List Held := []
  select : BitVec 6 := 0
  dlMiss : W32 := 0
  dlDemoted : W32 := 0
  dlMissLast : DlMissLast := {}
  violation : Vector W32 92 := Vector.replicate 92 0
  deriving DecidableEq, Repr

/-! ## Steps and partitions (09) -/

inductive PartState where
  | disabled | active | faulted | resetting
  deriving DecidableEq, Repr

/-- A step queue (R341, Table 9-7). `tail` is the TAIL of the last doorbell taken. -/
structure Queue where
  base : W64 := 0
  size : BitVec 4 := 4
  head : Nat := 0
  tail : Nat := 0
  /-- Frame starts that had passed when a step of the queue last wrote its completion record (R343). -/
  recordAt : Option Nat := none
  deriving DecidableEq, Repr

/-- A partition's registers (Table 9-7). -/
structure PartSt where
  state : PartState := .disabled
  share : BitVec 16 := 0
  shareNext : Option (BitVec 16) := none
  account : W64 := 0
  c0Sheaves : W64 := 0
  c0SheavesNext : Option W64 := none
  cfgErr : Bool := false
  dbErr : Bool := false
  cqBase : W64 := 0
  cqSize : BitVec 4 := 4
  cqTail : Nat := 0
  cqHead : Nat := 0
  cqPhase : Bool := true
  /-- R512 left the partition FAULTED; only a commit clears it. -/
  resFailed : Bool := false
  /-- Engine-beats charged in the last 16 complete frames, newest first (R356). -/
  service : List Nat := []
  frameCharge : Nat := 0
  deriving DecidableEq, Repr

inductive StepPhase where
  | read | placed | live
  deriving DecidableEq, Repr

/-- A slot of a step that runs (R59, R74): its number, its end beat, the dies it runs on, and whether a limiter was engaged on one of them. -/
structure RunSlot where
  slot : Nat
  /-- Its end beat. -/
  last : Nat
  dies : List Nat
  limited : Bool
  deriving DecidableEq, Repr

/-- A step read and not yet completed (R344 to R363). -/
structure Step where
  id : Nat
  part : Nat
  cls : Nat
  planId : Nat
  runPlan : Nat
  irq : Bool
  ordered : Bool
  ingest : Bool
  ctxFirst : Nat
  ctxCount : Nat
  argAddr : Nat
  tag : W64
  notBefore : Nat
  readBeat : Nat
  phase : StepPhase
  start : Nat
  grade : Nat
  /-- Slots that have started: a slot starts once (R665). -/
  begun : List Nat
  /-- Slots under way. -/
  running : List RunSlot
  /-- For each slot that has ended: the foreground offset after its last beat, and the beats by which what follows it is late (R71). -/
  delays : List (Nat × Nat)
  overrun : Nat
  charge : Nat
  fault : Option Code
  /-- The cycle and group of a group fault that another of the same cycle may still precede (R152). -/
  faultAt : Option (Nat × Nat)
  dlMiss : Bool
  tokenHeld : Bool
  slip : Bool
  /-- The snapshot of R413 has been taken: selected slot and buffer, stamp, length. -/
  snap : Option (List (Nat × Nat × Nat × Nat))
  /-- The code that the snapshot ends the step with at its admission (R418, R419). -/
  snapCode : Option Code
  dstep : Nat
  deriving DecidableEq, Repr

/-- A doorbell that waits for posted writes (R348). -/
structure Doorbell where
  fn : Nat
  part : Nat
  cls : Nat
  tail : Nat
  waitFor : List Nat
  deriving DecidableEq, Repr

structure Steps where
  c0Phase : Nat := 1
  c0PhaseNext : Option Nat := none
  part : Vector PartSt 8 := Vector.replicate 8 {}
  queue : Vector Queue 32 := Vector.replicate 32 {}
  steps : List Step := []
  dbWait : List Doorbell := []
  /-- A C0 slot start was passed over and takes place at the first beat reached (R665). -/
  c0Due : Bool := false
  deriving DecidableEq, Repr

/-! ## Serving complex (10) -/

/-- Per-function serving registers (Table 10-6). -/
structure SrvFn where
  sel : Nat := 0
  data : Vector W32 32 := Vector.replicate 32 0
  truncLen : W64 := 0
  code : Code := .ok
  walkReq : W64 := 0
  walkStatus : Code := .ok
  deriving DecidableEq, Repr

/-- An open context (R373). -/
structure OpenCtx where
  ctx : Nat
  step : Nat
  c0 : Bool
  /-- The last block of its page list that was resolved, by its place in the chain, and its address (R384). -/
  cursor : Option (Nat × Nat) := none
  deriving DecidableEq, Repr

/-- What a walk reads next (R390). -/
inductive WalkAt where
  /-- Its request, at this device address. -/
  | request (addr : Nat)
  | root
  /-- Scan the child list that starts in this node, after this many EXT nodes. -/
  | scan (addr exts : Nat)
  /-- Read the chosen child. -/
  | child (addr : Nat)
  | ended (code : Code)
  deriving DecidableEq, Repr

/-- A walk in progress (R389 to R394); `fn` for a host walk, `step` for a plan walk. -/
structure Walk where
  slot : Nat
  part : Nat
  fn : Option Nat
  step : Option Nat
  /-- The last beat of the slot that a plan walk was started in (R326). -/
  last : Option Nat
  tokensAddr : Nat
  tokenCount : Nat
  pathMax : Nat
  pathAddr : Nat
  /-- None until the request is read. -/
  resultAddr : Option Nat
  node : Nat
  matched : Nat
  depth : Nat
  partialN : Nat
  start : Nat
  at_ : WalkAt
  deriving DecidableEq, Repr

structure Serving where
  /-- Context bytes, keyed 128 × context + offset (R371). -/
  ctx : NMap Byte := []
  opened : List OpenCtx := []
  fn : Vector SrvFn 9 := Vector.replicate 9 {}
  walks : List Walk := []
  /-- Plan walks that wait for a slot: partition, step, last beat of their slot, request address (R395). -/
  walkWait : List (Nat × Nat × Nat × Nat) := []
  /-- Host submissions that wait for posted writes: function, request address, writes (R394). -/
  goWait : List (Nat × Nat × List Nat) := []
  walkCount : W32 := 0
  wnwRecords : W32 := 0
  wnwDrafts : W32 := 0
  wnwAccepted : W32 := 0
  wnwErrors : W32 := 0
  deriving DecidableEq, Repr

/-! ## Trellis (11) -/

/-- A complete buffer (R411, R414). -/
structure TBuf where
  stamp : Nat
  len : Nat
  pins : List Nat
  deriving DecidableEq, Repr

/-- A fill in progress (R410). -/
structure TFill where
  buf : Bool
  /-- The device address of its buffer, and the partition whose memory that is. -/
  addr : Nat
  part : Nat
  stamp : Nat
  len : Nat
  got : Nat
  unacked : List Nat
  /-- Beats passed when its last write was acknowledged (R410). -/
  ackedAt : Nat
  /-- A write of OWNER or CFG has discarded its buffer (Table 11-4); the fill itself runs to completion (R412). -/
  void : Bool
  deriving DecidableEq, Repr

/-- A pending push (R412): host address, stamp, length. -/
structure TPush where
  addr : Nat
  stamp : Nat
  len : Nat
  deriving DecidableEq, Repr

structure TSlot where
  ownerValid : Bool := false
  owner : Nat := 0
  base : Nat := 0
  sizeLog2 : Nat := 0
  configured : Bool := false
  cfgWord : BitVec 128 := 0
  /-- TRL_SLOT_CFG[n] with the pieces of a refused write, which later pieces may complete (log 117). -/
  cfgStage : BitVec 128 := 0
  fresh : Nat := 0
  pushAddr : W64 := 0
  pushStamp : W64 := 0
  code : Code := .ok
  pending : Option TPush := none
  fill : Option TFill := none
  buf0 : Option TBuf := none
  buf1 : Option TBuf := none
  newest : Option Bool := none
  superseded : W32 := 0
  deriving DecidableEq, Repr

structure Trellis where
  denied : Bool := false
  dropped : W32 := 0
  noMatch : W32 := 0
  slot : Vector TSlot 64 := Vector.replicate 64 {}
  deriving DecidableEq, Repr

/-! ## Ring (12) -/

/-- The states of a link group (Table 12-9). -/
inductive LinkState where
  | down | loc | ready | relock | ident | up | transit
  deriving DecidableEq, Repr

/-- The states of a package in the consensus word (Table 12-3). -/
inductive RingState where
  | joining | member | fenced | leaving
  deriving DecidableEq, Repr

/-- A consensus word (Table 12-3). -/
structure CWord where
  hash8 : W64
  compatClass : Nat
  minor : Nat
  beat : Nat
  rankValid : Bool
  kind : Nat
  rank : Nat
  state : Nat
  pendingValid : Bool
  pendingGrade : Nat
  gradeNow : Nat
  effFrame : Nat
  thermal : Byte
  master : Nat
  deriving DecidableEq, Repr

/-- A reservation of credits of a link group (R433): the channel (true RED), the partition its lease names, the step of the
collective, and the credits it has left. -/
structure RingLease where
  red : Bool
  part : Nat
  step : Nat
  credits : Nat
  deriving DecidableEq, Repr

structure LinkSt where
  state : LinkState := .down
  code : Code := .ok
  tries : Nat := 0
  passed1 : Bool := false
  fecCorr : W32 := 0
  fecUncorr : W32 := 0
  replay : W32 := 0
  replayFrame : Nat := 0
  silent : Nat := 0
  heard : Bool := false
  peer : Option CWord := none
  peerBytes : List Byte := []
  peerOk : Bool := false
  bypassed : Bool := false
  /-- Reservations of the credits that the neighbour grants this link group (R433). -/
  leases : List RingLease := []
  deriving DecidableEq, Repr

/-- A reshape event (R449). -/
structure Reshape where
  d : Nat
  rank : Nat
  link : Option Nat
  /-- Ranks that join (an admission or a merge) and ranks that leave. -/
  joins : List Nat
  leaves : List Nat
  aborted : Bool
  deriving DecidableEq, Repr

/-- A TRIP word known (R462). -/
structure Trip where
  beat : Nat
  mask : BitVec 8
  deriving DecidableEq, Repr

/-- What a phase of a collective does along one dimension (Table 12-6). -/
inductive CollKind where
  | reduce | gather | bcast
  deriving DecidableEq, Repr

/-- A phase of a collective: its dimension (true Y), the own position and the ring size (R456), the elements it works on, and for a
broadcast the position it starts from. -/
structure CollPhase where
  kind : CollKind
  y : Bool
  pos : Nat
  size : Nat
  base : Nat
  count : Nat
  rootPos : Nat
  deriving DecidableEq, Repr

/-- A collective in flight (R453 to R461): the phases still to run, the one under way first, and the elements it still receives. -/
structure Coll where
  step : Nat
  part : Nat
  planId : Nat
  start : Nat
  int32 : Bool
  tile : Nat
  laddr : Nat
  phases : List CollPhase
  left : Nat
  poisoned : Bool
  /-- Flits that wait for a reserved credit, oldest first, with their dimension (R433). -/
  waiting : List (Bool × RingFlit)
  /-- Flits of a later phase that arrived already, oldest first, with the dimension they came along. -/
  early : List (Bool × RingFlit)
  deriving DecidableEq, Repr

structure Ring where
  link : Vector LinkSt 8 := Vector.replicate 8 {}
  rank : Option (Nat × Nat) := none
  /-- A tray ID and slot written while the link groups run, in force once they are DOWN (R436, R587). -/
  nextRank : Option (Nat × Nat) := none
  state : RingState := .joining
  members : List Nat := []
  /-- After a reshape every member announces its grade again (R666): the frame in which it does, and the ranks heard so far. -/
  roll : Option (Nat × List Nat) := none
  /-- The membership for which the beat master was computed last (R42). -/
  counted : List Nat := []
  master : Option Nat := none
  reshapes : List Reshape := []
  reshapeCount : W32 := 0
  reshapeD : BitVec 24 := 0
  reshapeRank : BitVec 10 := 0
  reshapeLink : BitVec 4 := 0xF
  joinBeats : Nat := 0
  trips : List Trip := []
  /-- Update words forwarded: kind, rank, beat (R440). -/
  seen : List (Nat × Nat × Nat) := []
  collCode : Code := .ok
  collBeat : BitVec 24 := 0
  collPlan : BitVec 16 := 0
  colls : List Coll := []
  stray : W32 := 0
  wordBad : W32 := 0
  /-- Ring link groups have completed step 2 since training last started at step 1 (R520). -/
  readySince : Bool := false
  /-- LEAVING is to be sent and the links taken down at the next consensus beat (R436). -/
  restart : Bool := false
  deriving DecidableEq, Repr

/-! ## Power (13) -/

/-- The orders of the four sources (R474 to R488); also what Larkspur keeps for each slot (R593). -/
structure Orders where
  capHost : Nat := 1200
  capRack : Option Nat := none
  capBoard : Nat := 1800
  host : PState := .run
  rack : PState := .run
  board : PState := .run
  /-- The rack order that stood before an OFF order in its grace time (R487). -/
  rackBefore : PState := .run
  /-- Milliseconds of grace left (R487). -/
  offLeft : Option Nat := none
  deriving DecidableEq, Repr

/-- The stages of the power state (R490 to R493). -/
inductive ParkStage where
  | run
  /-- PARK ordered; placement and admission stop at the next frame boundary. -/
  | stopping
  /-- Admission has stopped; steps in flight complete. -/
  | draining
  | parked
  /-- Powering up again, 50 ms. -/
  | exiting
  /-- A PARK entry was abandoned; placement resumes at the next frame boundary (R677). -/
  | resuming
  | standby
  | off
  deriving DecidableEq, Repr

/-- PWR_HOLD_LAST (Table 13-6). -/
structure HoldLast where
  beat : BitVec 24 := 0
  kind : Bool := false
  rack : BitVec 16 := 0
  host : BitVec 16 := 0
  deriving DecidableEq, Repr

/-- Per-die power and thermal state (R494 to R501). -/
structure DiePwr where
  limiter : Nat := 0
  sensing : Bool := false
  clearBeats : Nat := 0
  engagedBeats : Nat := 0
  temp : Int := 0
  tempMax : Int := -128
  warn : Bool := false
  crit : Bool := false
  /-- Voltage set, in mV (R469, R472, R473). -/
  mV : Nat := 0
  deriving DecidableEq, Repr

structure Power where
  orders : Orders := {}
  event : BitVec 7 := 0
  holdLast : HoldLast := {}
  holdCount : W32 := 0
  measuredMax : BitVec 16 := 0
  measuredLast : BitVec 16 := 0
  limitCount : W32 := 0
  die : Vector DiePwr 4 := Vector.replicate 4 {}
  /-- Tile warning reason: the grade allowed (Table 13-4), its counts, a drop due. -/
  tileGrade : Option Nat := none
  tileDropEff : Nat := 0
  tileHotSince : Option Nat := none
  tileCoolSince : Option Nat := none
  tileCrit : Bool := false
  /-- Beats passed at the last sample of the tiles (R499). -/
  tileSampledAt : Option Nat := none
  /-- Limiter persistence reason: the grade allowed, and the last frame with an engagement. -/
  limGrade : Option Nat := none
  limLastFrame : Nat := 0
  stage : ParkStage := .run
  exitBeats : Nat := 0
  offBeats : Nat := 0
  offReady : Bool := false
  /-- The PARK entry has begun to power the dies down (R677). -/
  diesDown : Bool := false
  deriving DecidableEq, Repr

/-! ## Reset and wake (14, 18) -/

inductive WakeKind where
  | cold | pkg | warm (keep : Bool) | standby
  deriving DecidableEq, Repr

/-- Wake state of one compute die (R515, R517). -/
structure DieWake where
  powered : Bool := false
  failed : Bool := false
  step : Nat := 0
  /-- The entry of the power-up list whose WAIT_PG the die waits for (R93). -/
  seqIdx : Nat := 0
  /-- The clamps and the clocks that the entries of SEQ drive (R79, R632). -/
  clamped : Bool := true
  clocked : Bool := false
  tries : Nat := 0
  waiting : Bool := false
  deriving DecidableEq, Repr

/-- RST_CAUSE (Table 14-7). -/
structure Cause where
  code : Code := .ok
  type : Nat := 0
  source : Nat := 0
  target : Nat := 0
  deriving DecidableEq, Repr

/-- RST_LEASE_STATUS (Table 14-9). -/
structure LeaseStatus where
  code : Code := .ok
  kind : Nat := 0
  index : Nat := 0
  waiters : Nat := 0
  tokens : Nat := 0
  thresher : Nat := 0
  contexts : Nat := 0
  deriving DecidableEq, Repr

/-- The controller states of the test access port (R628, IEEE 1149.1). -/
inductive TapState where
  | testLogicReset | runTestIdle
  | selectDr | captureDr | shiftDr | exit1Dr | pauseDr | exit2Dr | updateDr
  | selectIr | captureIr | shiftIr | exit1Ir | pauseIr | exit2Ir | updateIr
  deriving DecidableEq, Repr

structure Reset where
  aon : Bool := true
  resetN : Bool := false
  perst : Bool := false
  cause : Cause := {}
  lockout : Bool := false
  done : Bool := false
  failedStep : Nat := 0
  tries : Nat := 0
  failDie : Nat := 0
  step : Nat := 0
  wake : Option WakeKind := none
  /-- The wake that the next release of the pins starts. -/
  next : WakeKind := .cold
  stage1Tries : Nat := 0
  retryWait : Bool := false
  die : Vector DieWake 4 := Vector.replicate 4 {}
  vrEn : BitVec 64 := 0
  /-- The levels of VR_PG (R637). -/
  vrPg : BitVec 64 := 0
  lease : LeaseStatus := {}
  fenceCount : W32 := 0
  wdtExpired : Bool := false
  thermtrip : Bool := false
  faultN : Bool := true
  pkgGood : Bool := false
  /-- A WARM reset is under way; true for a commit's (R530). -/
  warm : Option Bool := none
  /-- A hub rail fault waits for the next reset (R641). -/
  railFault : Bool := false
  fwBank : Bool := false
  /-- The test access port (R628): TRST_N is pulled down, and no command of the table clocks it. -/
  tap : TapState := .testLogicReset
  deriving DecidableEq, Repr

/-! ## Background work (15) -/

structure Gleaner where
  age : NMap Nat := []
  loggedAt : Nat := 0
  wearBad : Bool := false
  stackPass : W32 := 0
  cursor : Vector Nat 8 := Vector.replicate 8 0
  visited : List Nat := []
  /-- Beats passed when a stack's patrol came to its line (R533). -/
  lineAt : Vector (Option Nat) 8 := Vector.replicate 8 none
  grPass : W32 := 0
  grCe : W32 := 0
  grUe : W32 := 0
  patrolFix : W32 := 0
  retrainLast : Nat := 0
  retrainActive : Bool := false
  /-- Segments done of the retraining pass under way, by pseudo-channel number in its stack (R540). -/
  retrainSeg : NMap Nat := []
  ageSel : Nat := 0
  deriving DecidableEq, Repr

/-- The boot flash contents that the rules name (R114, R292, R545, R616); images by component bank. -/
structure Flash where
  hubBank : Bool := false
  repairLog : List Remap := []
  wearLog : NMap Nat := []
  wearUnreadable : Bool := false
  /-- Images by bank, none for the contents that the flash was made with. -/
  hubImage : Vector (Option (List Byte)) 2 := Vector.replicate 2 none
  structImage : Vector (Option (List Byte)) 2 := Vector.replicate 2 none
  deriving DecidableEq, Repr

structure TelFn where
  enable : Bool := false
  all : Bool := false
  size : BitVec 4 := 4
  irqEvery : BitVec 16 := 0
  base : W64 := 0
  tail : Nat := 0
  head : Nat := 0
  phase : Bool := true
  dropped : W32 := 0
  since : Nat := 0
  deriving DecidableEq, Repr

/-- Counts of one frame for the telemetry records (Table 15-3). -/
structure PartFrame where
  charge : Nat := 0
  steps : Nat := 0
  slips : Nat := 0
  dlMiss : Nat := 0
  held : Nat := 0
  events : List Code := []
  deriving DecidableEq, Repr

structure FrameStat where
  frame : Nat := 0
  /-- The grade in force through the frame. -/
  grade : Nat := 0
  events : List Code := []
  held : Nat := 0
  dlMiss : Nat := 0
  part : Vector PartFrame 8 := Vector.replicate 8 {}
  deriving DecidableEq, Repr

structure Telemetry where
  fn : Vector TelFn 9 := Vector.replicate 9 {}
  now : FrameStat := {}
  last : FrameStat := {}
  /-- The records of the last frame are still to be written (R546). -/
  due : Bool := false
  deriving DecidableEq, Repr

/-! ## Host port (16) -/

structure HifFn where
  errCode : Code := .ok
  errBar : Nat := 0
  errOff : Nat := 0
  errCount : W32 := 0
  bar2Off : W64 := 0
  /-- BAR2 size as a power of two of GiB (R559). -/
  bar2Log2 : Nat := 2
  mse : Bool := false
  d3hot : Bool := false
  deriving DecidableEq, Repr

structure Dma where
  host : W64 := 0
  dev : W64 := 0
  len : W32 := 0
  irq : Bool := false
  dir : Bool := false
  code : Code := .ok
  busy : Bool := false
  reject : Bool := false
  done : W32 := 0
  deriving DecidableEq, Repr

/-- Who waits for an upstream read (Table 16-3). -/
inductive UpSrc where
  | dma (e : Nat)
  /-- KV.GATHER: step, the tile and local address (or device address) that takes the bytes. -/
  | kv (step : Nat) (tile : Option Nat) (addr : Nat) (deadline : Option Nat)
  | trellis (slot : Nat)
  deriving DecidableEq, Repr

structure Upstream where
  tag : Nat
  fn : Nat
  src : UpSrc
  abandoned : Bool
  deriving DecidableEq, Repr

/-- An upstream read that waits for a tag (R568). -/
structure UpRead where
  fn : Nat
  src : UpSrc
  addr : Nat
  len : Nat
  deriving DecidableEq, Repr

/-- A BAR2 read that waits for posted writes (R563). -/
structure Bar2Read where
  fn : Nat
  off : Nat
  len : Nat
  waitFor : List Nat
  deriving DecidableEq, Repr

structure HostPort where
  linkUp : Bool := false
  rate : Nat := 0
  width : Nat := 0
  flit : Bool := false
  tags : TagMode := .bits8
  vfEnable : Bool := false
  numVfs : Nat := 0
  fn : Vector HifFn 9 := (Vector.replicate 9 {}).set 0 { bar2Log2 := 6 }
  drop : W32 := 0
  dma : Vector Dma 16 := Vector.replicate 16 {}
  /-- Non-posted requests outstanding, and reads that wait for a tag, oldest first (R568). -/
  upstream : List Upstream := []
  upWait : List UpRead := []
  posted : List (Nat × Nat) := []
  bar2Reads : List Bar2Read := []
  /-- MSI-X table words and pending bits, keyed 2^16 × function + byte offset (R573); a vector control word is stored with its mask
  bit inverted, so that every vector is masked at reset as PCI Express has it (log 6). -/
  msix : NMap W32 := []
  deriving DecidableEq, Repr

/-! ## Tray (17) -/

/-- LAST_CAUSE of a slot (R613): RST_CAUSE, RST_WAKE_STEP and RST_PINS of its package, and the time of the removal. -/
structure LastCause where
  cause : W32
  wakeStep : W32
  pins : W32
  atMs : Nat
  deriving DecidableEq, Repr

/-- What Larkspur holds for a slot. -/
structure Slot where
  present : Bool := false
  bin : Bin := .yp4L
  /-- The rails of the slot are on; for the modelled package's slot its AON rail says it. -/
  powered : Bool := false
  binMismatch : Bool := false
  /-- The latch OPEN_EN (R595 to R597). -/
  openEn : Bool := false
  /-- PKG_GOOD as Larkspur last saw it. -/
  pkgGood : Bool := false
  /-- Levels of PKG_FAULT_N and THERMTRIP_N of a package that is not the modelled one. -/
  faultN : Bool := true
  thermtripN : Bool := true
  /-- GATE_FORCE stands. -/
  forced : Bool := false
  /-- Held under R598. -/
  held : Bool := false
  /-- Times in ms of gate closings because of PKG_GOOD, newest first (R598). -/
  closings : List Nat := []
  /-- Standing orders; of the modelled package while it is unpowered (R593). -/
  orders : Orders := {}
  /-- BOARD OFF given by the input share (R589). -/
  shed : Bool := false
  lastCause : Option LastCause := none
  recoverAuto : Bool := true
  /-- Times in ms of recovery resets, newest first (R611). -/
  resets : List Nat := []
  /-- Hottest temperature last read of a package that is not the modelled one (R602). -/
  temp : Option Int := none
  /-- The bus of the slot runs as SMBus. -/
  smbus : Bool := false
  /-- HUB_BANK of a package that is not the modelled one, and the SLD_BOOT.BANK that Larkspur has selected. -/
  hubBank : Bool := false
  sldBank : Bool := false
  deriving DecidableEq, Repr

structure Tray where
  /-- Larkspur firmware runs. -/
  started : Bool := false
  /-- COOL_CLASS (R581). -/
  liquid : Bool := false
  strapBad : Bool := false
  trayId : Option Nat := none
  /-- The slot in which the modelled package sits; none on an integrator's own carrier. -/
  pkgSlot : Option (Fin 8) := some 0
  /-- The tray input limit that the operator has set. -/
  inputLimit : Option Nat := none
  inputOk : Bool := true
  fanFailed : Vector Bool 8 := Vector.replicate 8 false
  /-- TRACK mode, and REF_IN within ±20 ppm (R600). -/
  track : Bool := false
  refIn : Bool := false
  slot : Vector Slot 8 := (Vector.replicate 8 {}).set 0 { present := true }
  /-- The fractions of R602 in thirtieths: COOL_DEMAND_0, COOL_DEMAND_1, the fans. -/
  cool0 : Nat := 0
  cool1 : Nat := 0
  fans : Nat := 0
  /-- The cooling watchdog holds cooling full, since this time in ms (R605 to R607). -/
  wdHold : Bool := false
  fullSince : Nat := 0
  lkBank : Bool := false
  /-- Larkspur's images by bank, none for the image it was made with. -/
  lkImage : Vector (Option (List Byte)) 2 := Vector.replicate 2 none
  /-- The set that is staged, each component with the bank that holds its new image (R619). -/
  staged : List (Component × Bool) := []
  /-- Sets that have been activated, each component with the bank selected before (R619, R620). -/
  active : List (List (Component × Bool)) := []
  deriving DecidableEq, Repr

/-! ## Outputs: what leaves the package or Larkspur -/

/-- A completion record (Table 9-5). -/
structure CqRecord where
  tag : W64
  status : Code
  planId : Nat
  grade : Nat
  phase : Bool
  cls : Nat
  overrun : Nat
  start : Nat
  charge : Nat
  deriving DecidableEq, Repr

/-- A telemetry record (Table 15-3). -/
structure TelRecord where
  kind : Nat
  part : Nat
  events : Nat
  phase : Bool
  mode : Nat
  grade : Nat
  frame : Nat
  event : List Code
  charge : Nat
  steps : Nat
  slips : Nat
  dlMiss : Nat
  held : Nat
  powerW : Nat
  tileC : Int
  stackC : Int
  deriving DecidableEq, Repr

/-- AER errors of Table 16-5; `fatal` none for correctable, some false non-fatal, some true fatal. -/
inductive Aer where
  | link (e : LinkError)
  | completerAbort | unsupportedRequest | poisonedTlp | completionTimeout | internalError
  deriving DecidableEq, Repr

/-- A status Larkspur answers to GET_STATUS (Table 17-3): RST_CAUSE and RST_WAKE_STEP and the temperatures while the package answers. -/
structure SlotStatus where
  present : Bool
  bin : Bin
  powered : Bool
  pkgGood : Bool
  faultN : Bool
  thermtripN : Bool
  gateOpen : Bool
  cause : Option W32
  wakeStep : Option W32
  lastCause : Option LastCause
  temp : Option Int
  orders : Orders
  deriving DecidableEq, Repr

/-- An order Larkspur relays to the package of a slot (R591). -/
inductive Relay where
  | cap (rack : Bool) (watts : Option Nat)
  | state (rack : Bool) (s : PState) (grace : Option Nat) (force : Bool)
  | boardCap (watts : Nat)
  | boardState (s : PState)
  | reset | hold | retrain
  | trayId (id : Nat)
  | boot (hubBank sldBank : Bool)
  /-- An image for a bank of its flash (R617): hub firmware or a bit-stream. -/
  | image (hub bank : Bool) (bytes : List Byte)
  deriving DecidableEq, Repr

inductive Output where
  /-- The value a register read returned to a function (R40). -/
  | readData (fn : Nat) (value : W64)
  | msix (fn : Nat) (vector : Nat)
  | aer (fn : Nat) (e : Aer)
  | completion (fn : Nat) (addr : Nat) (r : CqRecord)
  | telemetry (fn : Nat) (addr : Nat) (r : TelRecord)
  | upstreamRead (fn : Nat) (tag : Nat) (addr : Nat) (len : Nat)
  | hostWrite (fn : Nat) (addr : Nat) (data : List Byte)
  /-- The loader reads its source: flash bank A or B or host memory, offset or address, length (R670). -/
  | loaderRead (src : Nat) (addr : Nat) (len : Nat)
  /-- A BAR2 read completes: data, EP bit (R564), or Completer Abort (none). -/
  | bar2Data (fn : Nat) (data : Option (List Byte)) (ep : Bool)
  | word (link : Link) (bytes : List Byte)
  | ringFlit (link : Link) (f : RingFlit)
  /-- The status code the package returns to a side-band order (R592). -/
  | sideband (c : Code)
  /-- OFF_READY to Larkspur (R489). -/
  | offReady
  /-- The package fails a host request as an Unsupported Request (R554). -/
  | unsupported (fn : Nat)
  | clockSwitch (grade : Nat)
  | patrolRead (x line : Nat)
  /-- A Larkspur response with its status code (R609). -/
  | response (c : Code)
  /-- A Larkspur response whose status code the manual does not state. -/
  | responseOpen (code : BitVec 16)
  | status (s : SlotStatus)
  /-- The rails of a slot go on with RESET_N asserted, or off. -/
  | slotPower (slot : Nat) (on : Bool)
  /-- UPDATE_ROLLBACK with the failed component (R620). -/
  | rollback (comp : Component)
  | relay (slot : Nat) (o : Relay)
  | report (slot : Option Nat) (c : Code)
  | mctpForward (port eid : Nat)
  | sensor (v : Option Int)
  | http400
  | spdmVersion | spdmAlgorithms (granted : Bool)
  | spdmError
  | spdmCapabilities (w : W32)
  | spdmDigest (d : BitVec 384)
  | spdmCertificate (bytes : List Byte)
  | spdmSignature (nonce : BitVec 256) (sig : List W64)
  | spdmMeasurement (index : Nat) (bytes : List Byte)
  deriving DecidableEq, Repr

/-! ## The whole state -/

structure State where
  pending : List Instr
  out : List Output
  free : Nat
  nextId : Nat
  fuses : Fuses
  tmp : Tempo
  grade : Grades
  sld : Loader
  str : Option Structure
  tile : Tiles
  grn : Granary
  fab : Fabric
  mem : Memory
  bwr : Bwr
  stp : Steps
  srv : Serving
  trl : Trellis
  rhl : Ring
  pwr : Power
  rst : Reset
  gln : Gleaner
  flash : Flash
  tel : Telemetry
  hif : HostPort
  tray : Tray
  deriving DecidableEq, Repr

/-- Why the machine stops with a fault. No meaning of this block raises one: the manual gives every command an effect, and an
event whose condition does not hold changes nothing (log 1). -/
inductive Fault where
  /-- Raised by no meaning; kept so that the type is not empty. Safe. -/
  | noFault
  deriving DecidableEq, Repr

/-- Why a command is refused. -/
inductive Refusal where
  /-- Raised only by an arm of exec whose command has no meaning yet. Safe: nothing is claimed of it. -/
  | notModelled (mnemonic : String)
  deriving DecidableEq, Repr

/-- The machine right after reset: AON has just come into tolerance, a COLD reset has begun, every field is at its reset value
(Table 14-4, column COLD), RESET_N and PERST# are held low (R586), and no wake step has run. -/
def State.reset : State where
  pending := []
  out := []
  free := 0
  nextId := 0
  fuses := {}
  tmp := {}
  grade := {}
  sld := {}
  str := none
  tile := {}
  grn := {}
  fab := {}
  mem := {}
  bwr := {}
  stp := {}
  srv := {}
  trl := {}
  rhl := {}
  pwr := {}
  rst := {}
  gln := {}
  flash := {}
  tel := {}
  hif := {}
  tray := {}

end Sys2Proof.Machine
end

