-- ==== Sys2Proof/Machine/Maps.lean ====
section
/-! DEFINITION. The one canonical sparse map (sorted keys, no entry equal to the default) and the byte and vector helpers that every
store of the block is built from: device memory, local memory, registers of a group, contexts. -/

namespace Sys2Proof.Machine

variable {β : Type}

/-- Read of a sparse map: an unlisted key reads as the default. -/
def mget (d : β) : NMap β → Nat → β
  | [], _ => d
  | e :: m, k => if e.1 = k then e.2 else mget d m k

/-- Write of a sparse map. Writing the default removes the entry, so equal contents are equal lists. -/
def mset [DecidableEq β] (d : β) : NMap β → Nat → β → NMap β
  | [], k, v => if v = d then [] else [(k, v)]
  | e :: m, k, v =>
    if k < e.1 then (if v = d then e :: m else (k, v) :: e :: m)
    else if k = e.1 then (if v = d then m else (k, v) :: m)
    else e :: mset d m k v

/-- Every key of the map is at least `lo`, keys rise strictly, no entry equals the default. -/
def NMap.wfFrom [DecidableEq β] (d : β) : Nat → NMap β → Bool
  | _, [] => true
  | lo, e :: m => decide (lo ≤ e.1) && decide (e.2 ≠ d) && NMap.wfFrom d (e.1 + 1) m

/-- The canonical form of a sparse map. -/
def NMap.wf [DecidableEq β] (d : β) (m : NMap β) : Bool := NMap.wfFrom d 0 m

/-- `n` consecutive entries from `k` on. -/
def mgetN (d : β) (m : NMap β) : Nat → Nat → List β
  | _, 0 => []
  | k, n + 1 => mget d m k :: mgetN d m (k + 1) n

/-- Writes consecutive entries from `k` on. -/
def msetN [DecidableEq β] (d : β) : NMap β → Nat → List β → NMap β
  | m, _, [] => m
  | m, k, v :: vs => msetN d (mset d m k v) (k + 1) vs

/-- Drops every entry whose key lies in [lo, hi). -/
def mdrop (m : NMap β) (lo hi : Nat) : NMap β := m.filter fun e => !(decide (lo ≤ e.1) && decide (e.1 < hi))

/-- Lookup in an association list without a default. -/
def assoc : List (Nat × β) → Nat → Option β
  | [], _ => none
  | e :: m, k => if e.1 = k then some e.2 else assoc m k

/-- Replaces or adds the entry of a key, keeping keys in rising order. -/
def assocSet : List (Nat × β) → Nat → β → List (Nat × β)
  | [], k, v => [(k, v)]
  | e :: m, k, v => if k < e.1 then (k, v) :: e :: m else if k = e.1 then (k, v) :: m else e :: assocSet m k v

/-- Removes the entry of a key. -/
def assocDel (m : List (Nat × β)) (k : Nat) : List (Nat × β) := m.filter fun e => e.1 != k

/-- Changes one element of a vector. -/
def vmod {α : Type} {n : Nat} (v : Vector α n) (i : Fin n) (f : α → α) : Vector α n := v.set i (f v[i])

/-- The element at a natural index, or the given value beyond the end. -/
def vat {α : Type} {n : Nat} (v : Vector α n) (i : Nat) (d : α) : α := if h : i < n then v[i] else d

/-- Changes the element at a natural index; nothing happens beyond the end. -/
def vmodN {α : Type} {n : Nat} (v : Vector α n) (i : Nat) (f : α → α) : Vector α n :=
  if h : i < n then v.set i (f v[i]) else v

/-- Changes the first element of a list that satisfies the test. -/
def modFirst {α : Type} (p : α → Bool) (f : α → α) : List α → List α
  | [] => []
  | x :: xs => if p x then f x :: xs else x :: modFirst p f xs

/-- Removes the first element of a list that satisfies the test. -/
def dropFirst {α : Type} (p : α → Bool) : List α → List α
  | [] => []
  | x :: xs => if p x then xs else x :: dropFirst p xs

/-- The natural number that bytes spell, least significant first. -/
def leNat : List Byte → Nat
  | [] => 0
  | b :: bs => b.toNat + 256 * leNat bs

/-- `n` bytes of a number, least significant first. -/
def leBytes : Nat → Nat → List Byte
  | 0, _ => []
  | n + 1, v => BitVec.ofNat 8 v :: leBytes n (v / 256)

/-- `len` bytes of a byte list from offset `off`, zero beyond the end. -/
def slice (bs : List Byte) (off len : Nat) : List Byte :=
  let t := (bs.drop off).take len
  t ++ List.replicate (len - t.length) 0

/-- The unsigned little-endian field of `len` bytes at `off`. -/
def fieldAt (bs : List Byte) (off len : Nat) : Nat := leNat ((bs.drop off).take len)

/-- Bits [hi:lo] of a number. -/
def bitsOf (v hi lo : Nat) : Nat := v / 2 ^ lo % 2 ^ (hi + 1 - lo)

/-- Bit i of a number. -/
def bitOf (v i : Nat) : Bool := v / 2 ^ i % 2 == 1

/-- A number seen as signed two's complement of `w` bits. -/
def toSigned (w v : Nat) : Int := if v < 2 ^ (w - 1) then (v : Int) else (v : Int) - (2 ^ w : Nat)

/-- A signed value as an unsigned field of `w` bits. -/
def ofSigned (w : Nat) (v : Int) : Nat := (v % (2 ^ w : Nat)).toNat

/-- 1 for true. -/
def b2n (b : Bool) : Nat := if b then 1 else 0

/-- Sum of a list of numbers. -/
def sumN (xs : List Nat) : Nat := xs.foldl (· + ·) 0

/-- The largest of a list, 0 when empty. -/
def maxN (xs : List Nat) : Nat := xs.foldl max 0

/-- The indices below `n` that satisfy a test. -/
def idx (n : Nat) (p : Nat → Bool) : List Nat := (List.range n).filter p

/-- Merges a line: a byte is taken from `new` where the mask bit of its index is set. -/
def mergeBytes (mask : BitVec 256) (old new : List Byte) : List Byte :=
  (old.zip new).zipIdx.map fun e => if mask.getLsbD e.2 then e.1.2 else e.1.1

/-- The mask of `len` bytes from `off`. -/
def maskRange (off len : Nat) : BitVec 256 := BitVec.ofNat 256 ((2 ^ len - 1) * 2 ^ off)

/-- The mask of one 32-byte burst of a line. -/
def burstMask (b : Nat) : BitVec 256 := maskRange (32 * b) 32

end Sys2Proof.Machine
end

