-- ==== Sys2Proof/Machine/Crypto.lean ====
section
/-! DEFINITION. SHA-384, ECDSA over P-384, and the CRC-64 of R259. The manual names the first two by their standards (R101,
Table 3-1); their constants are those of FIPS 180-4 and FIPS 186 (log 23, PRESUMED). -/

namespace Sys2Proof.Machine

/-! ## SHA-384

FIPS 180-4 derives its constants from roots of the first primes, and each of its rounds makes one new word of two shift registers; the
text below says both as they are defined. -/

/-- The largest k-th root below 2^n above a part already found, bit by bit. -/
def rootBits (k v : Nat) : Nat → Nat → Nat
  | 0, r => r
  | n + 1, r => rootBits k v n (if (r + 2 ^ n) ^ k ≤ v then r + 2 ^ n else r)

/-- The first 64 bits after the binary point of the k-th root of a number below 512. -/
def rootFraction (k p : Nat) : W64 := BitVec.ofNat 64 (rootBits k (p * 2 ^ (64 * k)) 69 0)

/-- The first eighty primes. -/
def shaPrimes : List Nat := (List.range 410).filter fun n => decide (2 ≤ n) && (List.range n).all fun d => decide (d < 2) || n % d != 0

/-- The round constants: cube roots of the first eighty primes. -/
def shaK : List W64 := shaPrimes.map (rootFraction 3)

/-- The initial hash value: square roots of the ninth to the sixteenth prime. -/
def shaInit : List W64 := ((shaPrimes.drop 8).take 8).map (rootFraction 2)

/-- The sum of a word's rotations to the right by some amounts. -/
def turned (x : W64) (by_ : List Nat) : W64 := by_.foldl (fun y n => y ^^^ x.rotateRight n) 0

/-- Word i of a list, 0 beyond its end. -/
def wordAt (r : List W64) (i : Nat) : W64 := (r[i]?).getD 0

/-- Extends the schedule, newest word first. -/
def shaExtend : Nat → List W64 → List W64
  | 0, r => r
  | n + 1, r =>
    let near := wordAt r 1
    let far := wordAt r 14
    shaExtend n ((wordAt r 15 + wordAt r 6 + (turned far [1, 8] ^^^ far >>> 7) + (turned near [19, 61] ^^^ near >>> 6)) :: r)

/-- The number that bytes spell, most significant first. -/
def beNat (bs : List Byte) : Nat := bs.foldl (fun n b => 256 * n + b.toNat) 0

/-- The 80 schedule words of a block of 128 bytes. -/
def shaSchedule (b : List Byte) : List W64 :=
  (shaExtend 64 (((List.range 16).map fun i => BitVec.ofNat 64 (beNat (slice b (8 * i) 8))).reverse)).reverse

/-- The working words of a block: the last four of each of the two registers, newest first. -/
structure ShaRegs where
  up : List W64
  low : List W64

/-- One round: what leaves the lower register, its mixture and the round's constant and word feed both registers. -/
def shaStep (v : ShaRegs) (kw : W64 × W64) : ShaRegs :=
  let u := wordAt v.up
  let l := wordAt v.low
  let pick := l 2 ^^^ (l 0 &&& (l 1 ^^^ l 2))
  let majority := (u 0 &&& (u 1 ||| u 2)) ||| (u 1 &&& u 2)
  let feed := kw.1 + kw.2 + pick + turned (l 0) [14, 18, 41] + l 3
  { up := (feed + majority + turned (u 0) [28, 34, 39]) :: v.up.take 3, low := (u 3 + feed) :: v.low.take 3 }

/-- Compresses one block. -/
def shaBlock (h : List W64) (b : List Byte) : List W64 :=
  let v := (shaK.zip (shaSchedule b)).foldl shaStep { up := h.take 4, low := h.drop 4 }
  h.zipWith (· + ·) (v.up ++ v.low)

/-- The padded message: one bit, zeros, and the length in bits, up to a whole block. -/
def shaPad (m : List Byte) : List Byte :=
  let n := 128 * ((m.length + 144) / 128) - m.length
  m ++ (leBytes n (2 ^ (8 * n - 1) + 8 * m.length)).reverse

/-- Compresses the blocks of a padded message. -/
def shaBlocks (h : List W64) : Nat → List Byte → List W64
  | 0, _ => h
  | n + 1, m => shaBlocks (shaBlock h (m.take 128)) n (m.drop 128)

/-- SHA-384 as a number whose most significant byte is digest byte 0. -/
def sha384 (m : List Byte) : BitVec 384 :=
  let p := shaPad m
  BitVec.ofNat 384 (((shaBlocks shaInit (p.length / 128) p).take 6).foldl (fun n w => 2 ^ 64 * n + w.toNat) 0)

/-- Digest byte k. -/
def digestByte (h : BitVec 384) (k : Nat) : Byte := (h >>> (376 - 8 * k)).setWidth 8

/-- Digest bytes 0 to 7 as a little-endian field (R124). -/
def digestHead (h : BitVec 384) : W64 := BitVec.ofNat 64 (leNat ((List.range 8).map (digestByte h)))

/-! ## ECDSA over P-384 -/

/-- The field prime, the group order, the coefficient b and the base point. -/
def p384 : Nat := 2 ^ 384 - 2 ^ 128 - 2 ^ 96 + 2 ^ 32 - 1
def n384 : Nat := 0xFFFFFFFFFFFFFFFFFFFFFFFFFFFFFFFFFFFFFFFFFFFFFFFFC7634D81F4372DDF581A0DB248B0A77AECEC196ACCC52973
def b384 : Nat := 0xB3312FA7E23EE7E4988E056BE3F82D19181D9C6EFE8141120314088F5013875AC656398D8A2ED19D2A85C8EDD3EC2AEF
def gx384 : Nat := 0xAA87CA22BE8B05378EB1C71EF320AD746E1D3B628BA79B9859F741E082542A385502F25DBF55296C3A545E3872760AB7
def gy384 : Nat := 0x3617DE4A96262C6F5D9E98BF9292DC29F8F41DBD289A147CE9DA3113B5F0B8C00A60B1CE1D7E819D7A431D7C90EA0E5F

/-- Modular power by repeated squaring, one bit of the exponent a step. -/
def powMod (m : Nat) : Nat → Nat → Nat → Nat → Nat
  | 0, _, _, r => r
  | k + 1, b, e, r => powMod m k (b * b % m) (e / 2) (if e % 2 = 1 then r * b % m else r)

/-- Inverse modulo a prime. -/
def invMod (m a : Nat) : Nat := powMod m 384 (a % m) (m - 2) 1

/-- A point of the curve; none is the point at infinity. -/
abbrev Point := Option (Nat × Nat)

/-- Point addition. -/
def pointAdd (a b : Point) : Point := match a, b with
  | none, q => q
  | q, none => q
  | some (x1, y1), some (x2, y2) =>
    if x1 = x2 ∧ (y1 + y2) % p384 = 0 then none
    else
      let l := if x1 = x2 then (3 * x1 * x1 + (p384 - 3)) * invMod p384 (2 * y1) % p384
        else (y2 + p384 - y1) * invMod p384 (x2 + p384 - x1) % p384
      let x := (l * l + 2 * p384 - x1 - x2) % p384
      some (x, (l * (x1 + p384 - x) + p384 - y1) % p384)

/-- Scalar multiplication, one bit a step. -/
def pointMul : Nat → Nat → Point → Point → Point
  | 0, _, _, r => r
  | k + 1, e, q, r => pointMul k (e / 2) (pointAdd q q) (if e % 2 = 1 then pointAdd r q else r)

/-- Reads a SEC1 uncompressed point on the curve (R667). -/
def readPoint (b : List Byte) : Option (Nat × Nat) :=
  let x := beNat ((b.drop 1).take 48)
  let y := beNat ((b.drop 49).take 48)
  if b.length = 97 ∧ b.head? = some 4 ∧ x < p384 ∧ y < p384 ∧ y * y % p384 = (x * x * x + (p384 - 3) * x + b384) % p384 then some (x, y)
  else none

/-- ECDSA verification of a digest under a public key (R101). -/
def ecdsaVerify (key : List Byte) (e : BitVec 384) (r s : Nat) : Bool :=
  match readPoint key with
  | none => false
  | some q =>
    if r = 0 ∨ s = 0 ∨ n384 ≤ r ∨ n384 ≤ s then false
    else
      let w := invMod n384 s
      match pointAdd (pointMul 384 (e.toNat * w % n384) (some (gx384, gy384)) none) (pointMul 384 (r * w % n384) (some q) none) with
      | none => false
      | some (x, _) => x % n384 == r

/-! ## CRC-64 (R259) -/

/-- One bit of the CRC-64. -/
def crc64Bit (c : W64) : W64 := if c.msb then (c <<< 1) ^^^ 0x42F0E1EBA9EA3693 else c <<< 1

/-- The CRC-64 of R259 over bytes in ascending order. -/
def crc64 (bs : List Byte) : W64 :=
  bs.foldl (fun c b => (List.range 8).foldl (fun c _ => crc64Bit c) (c ^^^ BitVec.ofNat 64 (2 ^ 56 * b.toNat))) 0

end Sys2Proof.Machine
end

