-- ==== Sys2Proof/Config.lean ====
section
/-! DEFINITION. What the manual leaves open: every constant here has no body, so no proof can see its value and a claim holds
whatever it is. Each is named in a row of notes/assumptions. -/

namespace Sys2Proof

/-- The n-th free 64-bit value drawn: the nonce of R108 and Table 14-4 (N), challenge and signature material of R614. -/
opaque Config.freeWord : Nat → W64

/-- The n-th free choice: a pulse that is "either a complete reset or nothing" (R648) or a rail fault or nothing (R639). -/
opaque Config.freeBool : Nat → Bool

/-- The per-lane result of an ALU operation OP on its three sources: the manual tabulates no ALU operations (Table 4-6). -/
opaque Config.aluResult : BitVec 8 → W32 → W32 → W32 → W32

/-- The predicate an ALU compare OP gives (PDST of Table 4-6). -/
opaque Config.aluPred : BitVec 8 → W32 → W32 → W32 → Bool

/-- The per-lane result of a CONVERT from format FROM to format TO: the manual gives the formats no codes (Table 4-6). -/
opaque Config.convert : BitVec 8 → BitVec 4 → BitVec 4 → Bool → W32 → W32

/-- The element an MXE.ST writes where its value overflows a format without infinities (FMT, sign): R157 states none. -/
opaque Config.mxeOverflow : Nat → Bool → BitVec 8

/-- The E8M0 scale an MXE.ST gives a block of 32 FP32 elements of a microscaling format: R157 states no choice. -/
opaque Config.mxeScale : Nat → List W32 → BitVec 8

/-- Whether Winnow accepts a draft with U of 0 and an infinite draft probability, by its target probability: R401 takes the product
exactly, and it has none. -/
opaque Config.infAccept : W32 → Bool

/-- The cells that TRL.SHIFT moves a grid by for an offset that is a NaN or infinite: R426 states none. -/
opaque Config.gridShift : W32 → W32 → Int

/-- The certificate chain of an SPDM responder (R614), whose bytes the manual does not give: false the package, true Larkspur. -/
opaque Config.certificateChain : Bool → List Byte

/-- The capability flags an SPDM responder answers (R614 lists what it supports, not the flag word). -/
opaque Config.spdmCapabilities : Bool → W32

/-- SHA-384 of a running firmware image (Table 17-4): the package's hub firmware by bank, or Larkspur's. -/
opaque Config.firmwareDigest : Bool → Bool → BitVec 384

/-- The router, 0 to 7, of a half at which its end of the seam or of a bridge attaches, by the half and what lies at the other end (a
half, or 8 for the hub): R233 gives the half, not the router. -/
opaque Config.gate : Nat → Nat → Nat

end Sys2Proof
end

