-- ==== Sys2Proof/Machine/Float.lean ====
section
/-! DEFINITION. Exact arithmetic of the formats of Tables 4-7 and 6-4: a finite value is an integer count of units of 2^-600, so that
sums and products of the Matrix engine are exact and rounding happens once (R154, R155, R253 to R255). -/

namespace Sys2Proof.Machine

/-- A value of a floating-point format, exactly: `neg` is the sign of a zero, `units` counts 2^-600. -/
inductive Fx where
  | nan
  | inf (neg : Bool)
  | fin (neg : Bool) (units : Int)
  deriving DecidableEq, Repr

/-- The exponent of the unit. -/
def fxScale : Nat := 600

/-- The parameters of a binary format: exponent bits, fraction bits, bias. -/
structure FpFmt where
  eb : Nat
  mb : Nat
  bias : Nat
  deriving DecidableEq, Repr

def fp32Fmt : FpFmt := { eb := 8, mb := 23, bias := 127 }
def bf16Fmt : FpFmt := { eb := 8, mb := 7, bias := 127 }
def fp16Fmt : FpFmt := { eb := 5, mb := 10, bias := 15 }
def e4m3Fmt : FpFmt := { eb := 4, mb := 3, bias := 7 }
def e5m2Fmt : FpFmt := { eb := 5, mb := 2, bias := 15 }
def e2m1Fmt : FpFmt := { eb := 2, mb := 1, bias := 1 }

/-- The sign bit of an encoded value. -/
def fpNeg (f : FpFmt) (w : Nat) : Bool := bitOf w (f.eb + f.mb)

/-- The magnitude of a finite encoding in units. -/
def fpMag (f : FpFmt) (w : Nat) : Nat :=
  let e := w / 2 ^ f.mb % 2 ^ f.eb
  let m := w % 2 ^ f.mb
  if e = 0 then m * 2 ^ (fxScale + 1 - f.bias - f.mb) else (2 ^ f.mb + m) * 2 ^ (fxScale + e - f.bias - f.mb)

/-- A finite value of an encoding. -/
def fpFin (f : FpFmt) (w : Nat) : Fx :=
  .fin (fpNeg f w) (if fpNeg f w then -(fpMag f w : Int) else (fpMag f w : Int))

/-- Decodes a format with infinities and NaNs (IEEE 754). -/
def fpDecode (f : FpFmt) (w : Nat) : Fx :=
  if w / 2 ^ f.mb % 2 ^ f.eb = 2 ^ f.eb - 1 then (if w % 2 ^ f.mb = 0 then .inf (fpNeg f w) else .nan) else fpFin f w

/-- Decodes FP8 E4M3 (OCP): no infinities, NaN where exponent and fraction are all ones. -/
def e4m3Decode (w : Nat) : Fx := if w % 128 = 127 then .nan else fpFin e4m3Fmt w

/-- Decodes FP4 E2M1 (OCP): every encoding is finite. -/
def e2m1Decode (w : Nat) : Fx := fpFin e2m1Fmt w

/-- The integer nearest to n / d, ties to even. -/
def rneDiv (n d : Nat) : Nat :=
  let q := n / d
  let r := n % d
  if 2 * r < d then q else if d < 2 * r then q + 1 else if q % 2 = 0 then q else q + 1

/-- The encoding of a non-zero magnitude, rounded to nearest even, before overflow is looked at (biased exponent and fraction). -/
def fpRound (f : FpFmt) (mag : Nat) : Nat :=
  let l := Nat.log2 mag
  let min := fxScale + 1 - f.bias
  if l < min then rneDiv mag (2 ^ (min - f.mb))
  else (l - min + 1) * 2 ^ f.mb + rneDiv mag (2 ^ (l - f.mb)) - 2 ^ f.mb

/-- The canonical NaN of a format (R255). -/
def fpNaN (f : FpFmt) : Nat := (2 ^ f.eb - 1) * 2 ^ f.mb + 2 ^ (f.mb - 1)

/-- Encodes a value in a format with infinities, round-to-nearest-even (R155, R255). -/
def fpEncode (f : FpFmt) (x : Fx) : Nat :=
  let sign := fun (n : Bool) => if n then 2 ^ (f.eb + f.mb) else 0
  let infty := (2 ^ f.eb - 1) * 2 ^ f.mb
  match x with
  | .nan => fpNaN f
  | .inf n => sign n + infty
  | .fin n u =>
    if u = 0 then sign n
    else
      let r := fpRound f u.natAbs
      sign (decide (u < 0)) + (if infty ≤ r then infty else r)

/-- The exact sum of two values (R255): opposite infinities give NaN, +0 and −0 give +0. -/
def Fx.add (a b : Fx) : Fx :=
  match a, b with
  | .nan, _ => .nan
  | _, .nan => .nan
  | .inf x, .inf y => if x = y then .inf x else .nan
  | .inf x, _ => .inf x
  | _, .inf y => .inf y
  | .fin x u, .fin y v => .fin (x && y && u + v == 0) (u + v)

/-- The exact product of two values; a product of infinity and zero gives NaN. The product of finite values is scaled back to
units: it is exact because both factors are multiples of 2^-150 or coarser. -/
def Fx.mul (a b : Fx) : Fx :=
  match a, b with
  | .nan, _ => .nan
  | _, .nan => .nan
  | .inf x, .inf y => .inf (x != y)
  | .inf x, .fin y v => if v = 0 then .nan else .inf (x != y)
  | .fin x u, .inf y => if u = 0 then .nan else .inf (x != y)
  | .fin x u, .fin y v => .fin (x != y) (u * v / 2 ^ fxScale)

/-- Scales a value by a power of two. -/
def Fx.scale (a : Fx) (e : Int) : Fx :=
  match a with
  | .fin n u => .fin n (if 0 ≤ e then u * 2 ^ e.toNat else u / 2 ^ (-e).toNat)
  | x => x

/-- FP32 addition with one round-to-nearest-even (R254). -/
def fp32Add (a b : W32) : W32 :=
  BitVec.ofNat 32 (fpEncode fp32Fmt ((fpDecode fp32Fmt a.toNat).add (fpDecode fp32Fmt b.toNat)))

/-- Converts an FP32 value to another format with infinities (R254). -/
def fp32To (f : FpFmt) (a : W32) : Nat := fpEncode f (fpDecode fp32Fmt a.toNat)

/-- Converts a value of a narrower format to FP32, exactly (R254). -/
def toFp32 (f : FpFmt) (w : Nat) : W32 := BitVec.ofNat 32 (fpEncode fp32Fmt (fpDecode f w))

/-! ## The Matrix engine's formats (Table 4-7) -/

/-- K of a format. -/
def mxeK (fmt : Nat) : Nat := if fmt = 2 then 32 else if fmt = 4 ∨ fmt = 7 then 128 else 64

/-- Bits of an element. -/
def mxeBits (fmt : Nat) : Nat := if fmt = 2 then 16 else if fmt = 4 ∨ fmt = 7 then 4 else 8

/-- A format with an E8M0 scale for every 32 elements. -/
def mxeScaled (fmt : Nat) : Bool := decide (5 ≤ fmt)

/-- Element i of a packed list of elements, low bits first. -/
def mxeElem (fmt : Nat) (bs : List Byte) (i : Nat) : Nat :=
  if mxeBits fmt = 16 then fieldAt bs (2 * i) 2
  else if mxeBits fmt = 8 then fieldAt bs i 1
  else fieldAt bs (i / 2) 1 / 16 ^ (i % 2) % 16

/-- The value of an element. -/
def mxeValue (fmt w : Nat) : Fx :=
  if fmt = 0 ∨ fmt = 5 then e4m3Decode w
  else if fmt = 1 ∨ fmt = 6 then fpDecode e5m2Fmt w
  else if fmt = 2 then fpDecode bf16Fmt w
  else if fmt = 3 then .fin false (toSigned 8 w * 2 ^ fxScale)
  else e2m1Decode w

/-- An E8M0 scale: 0xFF is NaN (R155). -/
def e8m0 (w : Nat) : Option Int := if w = 0xFF then none else some ((w : Int) - 127)

/-- A value under its block's scale. -/
def scaled (x : Fx) (s : Option Int) : Fx := match s with
  | some e => x.scale e
  | none => .nan

/-- One element of ACC + A × B (R153 to R155): the products are summed exactly and added with one rounding. `sa` and `sb` are the
scales of the blocks of 32 of A's row and B's column. -/
def mmaElement (fmt : Nat) (acc : W32) (row col : List Byte) (sa sb : List Nat) : W32 :=
  let sc := fun (l : List Nat) (k : Nat) => if mxeScaled fmt then e8m0 ((l[k / 32]?).getD 0) else some 0
  let sum := (List.range (mxeK fmt)).foldl (fun (t : Fx) k =>
    t.add ((scaled (mxeValue fmt (mxeElem fmt row k)) (sc sa k)).mul (scaled (mxeValue fmt (mxeElem fmt col k)) (sc sb k))))
    (.fin false 0)
  BitVec.ofNat 32 (fpEncode fp32Fmt ((fpDecode fp32Fmt acc.toNat).add sum))

/-- An FP32 element converted for MXE.ST under FMT, scaled down by the block's scale first (R157). Formats without infinities take
a free value where the value overflows (log 17); NaN in them is free too. -/
def mxeConvert (fmt : Nat) (e : Int) (a : W32) : Nat :=
  let x := (fpDecode fp32Fmt a.toNat).scale (-e)
  if fmt = 1 ∨ fmt = 6 then fpEncode e5m2Fmt x
  else if fmt = 2 then fpEncode bf16Fmt x
  else
    match x with
    | .nan => (Config.mxeOverflow fmt false).toNat
    | .inf n => (Config.mxeOverflow fmt n).toNat
    | .fin n u =>
      let free := (Config.mxeOverflow fmt (decide (u < 0))).toNat
      if fmt = 3 then
        let m := rneDiv u.natAbs (2 ^ fxScale)
        if u < 0 then (if 128 < m then free else (256 - m) % 256) else if 127 < m then free else m
      else if fmt = 0 ∨ fmt = 5 then
        let m := if u = 0 then 0 else fpRound e4m3Fmt u.natAbs
        if 126 < m then free else b2n (if u = 0 then n else decide (u < 0)) * 128 + m
      else
        let m := if u = 0 then 0 else fpRound e2m1Fmt u.natAbs
        if 7 < m then free % 16 else b2n (if u = 0 then n else decide (u < 0)) * 8 + m

end Sys2Proof.Machine
end

