-- ==== Sys2Proof/Machine/Update.lean ====
section
/-! DEFINITION. One update per field of State: every operation changes the state only through these, so that what it leaves
unchanged is read off the lemmas of Laws/State.lean. -/

namespace Sys2Proof.Machine

/-- Changes the field `pending` and nothing else. -/
def State.modPending (s : State) (f : List Instr → List Instr) : State := { s with pending := f s.pending }

/-- Changes the field `out` and nothing else. -/
def State.modOut (s : State) (f : List Output → List Output) : State := { s with out := f s.out }

/-- Changes the field `free` and nothing else. -/
def State.modFree (s : State) (f : Nat → Nat) : State := { s with free := f s.free }

/-- Changes the field `nextId` and nothing else. -/
def State.modNextId (s : State) (f : Nat → Nat) : State := { s with nextId := f s.nextId }

/-- Changes the field `fuses` and nothing else. -/
def State.modFuses (s : State) (f : Fuses → Fuses) : State := { s with fuses := f s.fuses }

/-- Changes the field `tmp` and nothing else. -/
def State.modTmp (s : State) (f : Tempo → Tempo) : State := { s with tmp := f s.tmp }

/-- Changes the field `grade` and nothing else. -/
def State.modGrade (s : State) (f : Grades → Grades) : State := { s with grade := f s.grade }

/-- Changes the field `sld` and nothing else. -/
def State.modSld (s : State) (f : Loader → Loader) : State := { s with sld := f s.sld }

/-- Changes the field `str` and nothing else. -/
def State.modStr (s : State) (f : Option Structure → Option Structure) : State := { s with str := f s.str }

/-- Changes the field `tile` and nothing else. -/
def State.modTile (s : State) (f : Tiles → Tiles) : State := { s with tile := f s.tile }

/-- Changes the field `grn` and nothing else. -/
def State.modGrn (s : State) (f : Granary → Granary) : State := { s with grn := f s.grn }

/-- Changes the field `fab` and nothing else. -/
def State.modFab (s : State) (f : Fabric → Fabric) : State := { s with fab := f s.fab }

/-- Changes the field `mem` and nothing else. -/
def State.modMem (s : State) (f : Memory → Memory) : State := { s with mem := f s.mem }

/-- Changes the field `bwr` and nothing else. -/
def State.modBwr (s : State) (f : Bwr → Bwr) : State := { s with bwr := f s.bwr }

/-- Changes the field `stp` and nothing else. -/
def State.modStp (s : State) (f : Steps → Steps) : State := { s with stp := f s.stp }

/-- Changes the field `srv` and nothing else. -/
def State.modSrv (s : State) (f : Serving → Serving) : State := { s with srv := f s.srv }

/-- Changes the field `trl` and nothing else. -/
def State.modTrl (s : State) (f : Trellis → Trellis) : State := { s with trl := f s.trl }

/-- Changes the field `rhl` and nothing else. -/
def State.modRhl (s : State) (f : Ring → Ring) : State := { s with rhl := f s.rhl }

/-- Changes the field `pwr` and nothing else. -/
def State.modPwr (s : State) (f : Power → Power) : State := { s with pwr := f s.pwr }

/-- Changes the field `rst` and nothing else. -/
def State.modRst (s : State) (f : Reset → Reset) : State := { s with rst := f s.rst }

/-- Changes the field `gln` and nothing else. -/
def State.modGln (s : State) (f : Gleaner → Gleaner) : State := { s with gln := f s.gln }

/-- Changes the field `flash` and nothing else. -/
def State.modFlash (s : State) (f : Flash → Flash) : State := { s with flash := f s.flash }

/-- Changes the field `tel` and nothing else. -/
def State.modTel (s : State) (f : Telemetry → Telemetry) : State := { s with tel := f s.tel }

/-- Changes the field `hif` and nothing else. -/
def State.modHif (s : State) (f : HostPort → HostPort) : State := { s with hif := f s.hif }

/-- Changes the field `tray` and nothing else. -/
def State.modTray (s : State) (f : Tray → Tray) : State := { s with tray := f s.tray }

/-- Something leaves the package or Larkspur. -/
def State.emit (s : State) (o : Output) : State := s.modOut (· ++ [o])

/-- Folds an operation over a list, left to right. -/
def State.each {α : Type} (s : State) (xs : List α) (f : State → α → State) : State := xs.foldl f s

/-- Does something only when a condition holds. -/
def State.when (s : State) (c : Bool) (f : State → State) : State := if c then f s else s

end Sys2Proof.Machine
end

