-- ==== Sys2Proof/Machine/Ops.lean ====
section
/-! DEFINITION. The named operations every family shares: the beat and frame arithmetic, who serves and owns what, the fields of
device addresses, and what is reported where (telemetry events, MSI-X, host-port errors). -/

namespace Sys2Proof.Machine

/-! ## Beats and frames (R38, R39, R59) -/

/-- The beat-in-frame of a beat number (R38). -/
def bInF (b : Nat) : Nat := b % 1024

/-- The frame number of a beat number (R38). -/
def frameOf (b : Nat) : Nat := b / 1024

/-- A foreground beat: neither the consensus beat nor the guard beat (R39). -/
def isFg (b : Nat) : Bool := bInF b != 0 && bInF b != 1023

/-- The beat number at foreground offset `k` from a start beat that is a foreground beat (R59). -/
def fgBeat (start k : Nat) : Nat :=
  let p := bInF start - 1 + k
  (frameOf start + p / 1022) * 1024 + p % 1022 + 1

/-- The first foreground beat at or after a beat (R59). -/
def nextFg (b : Nat) : Nat :=
  if bInF b = 0 then b + 1 else if bInF b = 1023 then b + 2 else b

/-- The current beat. -/
def State.beat (s : State) : Nat := s.tmp.beat

/-! ## Partitions and functions (R85, R338, R555) -/

/-- The descriptor of an enabled partition under the structure in force. -/
def partDesc (s : State) (p : Nat) : Option PartDesc :=
  s.str.bind fun t => t.parts.find? fun d => d.part == p && d.enabled

/-- The partition owns the pseudo-channel (R85). -/
def ownsChan (s : State) (p x : Nat) : Bool := (partDesc s p).any fun d => d.channelMask.getLsbD x

/-- The partition owns the sheaf (R85). -/
def ownsSheaf (s : State) (p sh : Nat) : Bool := (partDesc s p).any fun d => d.sheafMask.getLsbD sh

/-- The partition that owns a pseudo-channel. -/
def chanPart (s : State) (x : Nat) : Option Nat := (List.range 8).find? fun p => ownsChan s p x

/-- The function that serves a partition (R555): the VF its descriptor names while SR-IOV provides it, else the PF. -/
def servingFn (s : State) (p : Nat) : Nat :=
  match partDesc s p with
  | some d => if d.vf ≠ 0 ∧ s.hif.vfEnable = true ∧ d.vf ≤ s.hif.numVfs then d.vf else 0
  | none => 0

/-- The partition a VF serves (R555). -/
def fnPart (s : State) (fn : Nat) : Option Nat :=
  if fn = 0 then none else (List.range 8).find? fun p => (partDesc s p).isSome && servingFn s p == fn

/-- The function may use the per-partition registers of the partition (R367): the PF, or the VF that serves it. -/
def mayPart (s : State) (fn p : Nat) : Bool := fn == 0 || fnPart s fn == some p

/-- The function that owns DMA engine `e` (R572). -/
def dmaOwner (s : State) (e : Nat) : Nat :=
  match (List.range 8).find? fun p => (partDesc s p).any fun d => d.dmaMask.getLsbD e with
  | some p => servingFn s p
  | none => 0

/-- The partition that owns DMA engine `e`. -/
def dmaPart (s : State) (e : Nat) : Option Nat :=
  (List.range 8).find? fun p => (partDesc s p).any fun d => d.dmaMask.getLsbD e

/-- A step by its name. -/
def getStep (s : State) (id : Nat) : Option Step := s.stp.steps.find? fun t => t.id == id

/-- Changes a step. -/
def State.modStep (s : State) (id : Nat) (f : Step → Step) : State :=
  s.modStp fun t => { t with steps := t.steps.map fun x => if x.id = id then f x else x }

/-- Changes the state of a partition. -/
def State.modPart (s : State) (p : Nat) (f : PartSt → PartSt) : State :=
  s.modStp fun t => { t with part := vmodN t.part p f }

/-- A partition's registers. -/
def partSt (s : State) (p : Nat) : PartSt := vat s.stp.part p {}

/-- Takes a fresh name for a step, a load, a request or an upstream read (log 3). -/
def State.fresh (s : State) : State := s.modNextId (· + 1)

/-! ## Device addresses (R17, R19, R268, R269, R270) -/

/-- The first address above device memory (R19, R269). -/
def devTop : Nat := 0x5FD0000000

/-- Bytes of one pseudo-channel (R268). -/
def chanSize : Nat := 0x2FE80000

/-- The pseudo-channel of a device address, 64 × stack + channel (R268). -/
def chanOf (a : Nat) : Nat := a / chanSize

/-- The offset of a device address within its pseudo-channel (R268). -/
def chanOff (a : Nat) : Nat := a % chanSize

/-- The stack of a device address (R268). -/
def stackOf (a : Nat) : Nat := chanOf a / 64

/-- The row of a device address, o[29:16] (R268). -/
def rowOf (a : Nat) : Nat := chanOff a / 65536

/-- Stack ID, bank group and bank, o[15:10], as one bank number (R268). -/
def bankOf (a : Nat) : Nat := chanOff a / 1024 % 64

/-- The channel group of a device address (R311). -/
def groupOf (a : Nat) : Nat := chanOf a / 8

/-- The home slice of a device address (R17): A[9:8] XOR A[19:18]. -/
def homeSlice (a : Nat) : Fin 4 := ⟨(a / 256 % 4) ^^^ (a / 262144 % 4), by
  have h1 : a / 256 % 4 < 2 ^ 2 := Nat.mod_lt _ (by decide)
  have h2 : a / 262144 % 4 < 2 ^ 2 := Nat.mod_lt _ (by decide)
  exact Nat.xor_lt_two_pow h1 h2⟩

/-- The Granary set of a device address (R185): A[25:10]. -/
def setIndex (a : Nat) : Nat := a / 1024 % 65536

/-- The local line number of a device address (R217): A[38:10]. -/
def localLine (a : Nat) : Nat := a / 1024 % 2 ^ 29

/-- The address of a device line by its number. -/
def lineAddr (l : Nat) : Nat := 256 * l

/-! ## Dies, slices and stacks (R230 to R232, R276 to R279, R304) -/

/-- The die is failed under any rule (Table 19-4). -/
def dieFailed (s : State) (n : Nat) : Bool := (vat s.rst.die n {}).failed || (vat s.fab.die n {}).failed

/-- The CDn and GRn domains are on (Table 19-4). -/
def diePowered (s : State) (n : Nat) : Bool := (vat s.rst.die n {}).powered

/-- Slice n is out of service: unpowered, or its die failed at wake, under R236 or after a rail fault (R231). -/
def sliceOut (s : State) (n : Nat) : Bool := !diePowered s n || (vat s.rst.die n {}).failed

/-- The state of a stack. -/
def stackSt (s : State) (t : Nat) : Stack := vat s.mem.stack t {}

/-- Changes the state of a stack. -/
def State.modStack (s : State) (t : Nat) (f : Stack → Stack) : State :=
  s.modMem fun m => { m with stack := vmodN m.stack t f }

/-- A stack is failed (R279). -/
def stackFailed (s : State) (t : Nat) : Bool := (stackSt s t).failed || dieFailed s (t / 2)

/-- A stack is tripped (R303, R307). -/
def stackTripped (s : State) (t : Nat) : Bool := (stackSt s t).tripped

/-- A pseudo-channel is failed (R276, R279). -/
def chanFailed (s : State) (x : Nat) : Bool := stackFailed s (x / 64) || (stackSt s (x / 64)).chFail.getLsbD (x % 64)

/-- A stack that holds a pseudo-channel of the partition is tripped (check 7 of Table 9-4). -/
def partTripped (s : State) (p : Nat) : Bool :=
  (List.range 512).any fun x => ownsChan s p x && stackTripped s (x / 64)

/-! ## Reports -/

/-- A package event of the telemetry record (R547). -/
def State.event (s : State) (c : Code) : State :=
  s.modTel fun t => { t with now := { t.now with events := t.now.events ++ [c] } }

/-- An event that also appears in the record of a partition (R547). -/
def State.partEvent (s : State) (p : Nat) (c : Code) : State :=
  (s.event c).modTel fun t => { t with now := { t.now with
    part := vmodN t.now.part p fun q => { q with events := q.events ++ [c] } } }

/-- Changes the current frame's counts of a partition (Table 15-3). -/
def State.partFrame (s : State) (p : Nat) (f : PartFrame → PartFrame) : State :=
  s.modTel fun t => { t with now := { t.now with part := vmodN t.now.part p f } }

/-- The key of a word of the MSI-X structures: the table at 0, the pending bits from 0x8000. -/
def msixKey (fn off : Nat) : Nat := 65536 * fn + off

/-- A vector of a function is masked: bit 0 of the vector control word of its MSI-X table entry (R553: MSI-X is supported), 1 at
reset (log 6); the word is stored with that bit inverted. -/
def msixMasked (s : State) (fn vec : Nat) : Bool := !(mget 0 s.hif.msix (msixKey fn (16 * vec + 12))).getLsbD 0

/-- Signals an event on a vector (R573): its pending bit is set while the vector is masked, else the message leaves while the link is
up. -/
def State.signal (s : State) (fn vec : Nat) : State :=
  if msixMasked s fn vec then
    let k := msixKey fn (0x8000 + 4 * (vec / 32))
    s.modHif fun h => { h with msix := mset 0 h.msix k (mget 0 h.msix k ||| BitVec.ofNat 32 (2 ^ (vec % 32))) }
  else if s.hif.linkUp then s.emit (.msix fn vec) else s

/-- Changes the host-port registers of a function. -/
def State.modFn (s : State) (fn : Nat) (f : HifFn → HifFn) : State :=
  s.modHif fun h => { h with fn := vmodN h.fn fn f }

/-- Logs a host-port error in HIF_ERR_LAST of the function and signals its vector (Table 16-4, Table 16-7). -/
def State.hifErr (s : State) (fn : Nat) (c : Code) (bar off : Nat) : State :=
  (s.modFn fn fun h => { h with errCode := c, errBar := bar, errOff := off, errCount := h.errCount + 1 }).signal fn
    (if fn = 0 then 14 else 5)

/-- Signals the change of a partition's state or a fence of it (Table 16-4). -/
def State.signalPart (s : State) (p : Nat) : State :=
  let fn := servingFn s p
  s.signal fn (if fn = 0 then 10 else 3)

/-- Signals a power event on every function (Table 16-4, R487). -/
def State.signalPower (s : State) : State :=
  (s.signal 0 8).each (List.range s.hif.numVfs) fun s n => if s.hif.vfEnable then s.signal (n + 1) 1 else s

/-- A free 64-bit value (log 2): nothing is known of it. -/
def freeVal (s : State) : W64 := Config.freeWord s.free

/-- Moves to the next free value. -/
def State.drawn (s : State) : State := s.modFree (· + 1)

/-- Free bytes, eight of each free value (log 2). -/
def freeBytes (s : State) (n : Nat) : List Byte :=
  (List.range n).map fun i => BitVec.ofNat 8 ((Config.freeWord (s.free + i / 8)).toNat / 2 ^ (8 * (i % 8)))

/-! ## Host accesses (Tables 16-5 and 16-6) -/

/-- The function exists: the PF, or a VF that SR-IOV enables. -/
def fnEnabled (s : State) (fn : Nat) : Bool := fn == 0 || (s.hif.vfEnable && decide (fn ≤ s.hif.numVfs))

/-- The host-port registers of a function. -/
def hifFn (s : State) (fn : Nat) : HifFn := vat s.hif.fn fn {}

/-- Memory accesses of the function are decoded: it is enabled and not in D3hot (Table 16-6). -/
def decodes (s : State) (fn : Nat) : Bool := fnEnabled s fn && !(hifFn s fn).d3hot

/-- A request to a disabled function, or of a kind the package does not take (R554, Table 16-5). -/
def State.unsupportedReq (s : State) (fn : Nat) : State := (s.emit (.unsupported fn)).emit (.aer fn .unsupportedRequest)

/-- A host access through a BAR of a function: none arrives while the link is down, and a function that does not decode it answers
Unsupported Request (Tables 16-5 and 16-6). -/
def hostAccess (s : State) (fn : Nat) (f : State → State) : State :=
  if s.hif.linkUp then (if decodes s fn then f s else s.unsupportedReq fn) else s

end Sys2Proof.Machine
end

