-- ==== Sys2Proof/Machine/MemOps.lean ====
section
/-! DEFINITION. The memory stacks: where a device byte lies, reading and writing bursts with their poison, row error counts and the
remap table (07). -/

namespace Sys2Proof.Machine

/-! ## Where a byte lies (R268, R290) -/

/-- The row that serves a row of a bank: the remap entries in effect, in the order they were created (R290). -/
def physRow (s : State) (x bank row : Nat) : Nat :=
  s.mem.remap.foldl (fun r e => if e.x = x ∧ e.bank = bank ∧ e.row = r ∧ e.active = true then e.spare else r) row

/-- The key in memory of a place: pseudo-channel, row, and the offset in the rows of that number over the 64 banks. -/
def placeKey (x row low : Nat) : Nat := x * 0x30000000 + row * 65536 + low

/-- The key in memory of a device byte (R268), through the remap table (R290). -/
def physOf (s : State) (a : Nat) : Nat :=
  placeKey (chanOf a) (physRow s (chanOf a) (bankOf a) (rowOf a)) (chanOff a % 65536)

/-- The places a write of a device line goes to: its row, and the spare row too while the copy runs (R289). -/
def writePlaces (s : State) (a : Nat) : List Nat :=
  let x := chanOf a
  let row := physRow s x (bankOf a) (rowOf a)
  placeKey x row (chanOff a % 65536) ::
    (s.mem.remap.filter fun e => e.x == x && e.bank == bankOf a && e.row == row && !e.active).map fun e =>
      placeKey x e.spare (chanOff a % 65536)

/-! ## The canonical form of memory -/

/-- What a byte nothing has written reads as (log 8). -/
def Memory.fresh : Byte := 0

/-- The canonical form of device memory: addresses strictly rising, no entry equal to what an unlisted address reads as. -/
def Memory.wf (m : Memory) : Bool := NMap.wf Memory.fresh m.cells

/-- Reads a byte at a place. -/
def Memory.read (m : Memory) (k : Nat) : Byte := mget Memory.fresh m.cells k

/-- Writes a byte at a place. -/
def Memory.write (m : Memory) (k : Nat) (b : Byte) : Memory := { m with cells := mset Memory.fresh m.cells k b }

/-- Writes consecutive bytes. -/
def Memory.writeN (m : Memory) (k : Nat) (bs : List Byte) : Memory := { m with cells := msetN Memory.fresh m.cells k bs }

/-- Drops everything in a range of places, as losing the contents of a stack does. -/
def Memory.clear (m : Memory) (lo hi : Nat) : Memory :=
  { m with cells := mdrop m.cells lo hi, poison := m.poison.filter fun b => !(decide (lo ≤ 32 * b) && decide (32 * b < hi)) }

/-- A burst carries the poison syndrome (R284). -/
def Memory.poisoned (m : Memory) (k : Nat) : Bool := m.poison.contains (k / 32)

/-- Sets or clears the poison syndrome of a burst. -/
def Memory.setPoison (m : Memory) (k : Nat) (on : Bool) : Memory :=
  let below := m.poison.filter fun b => decide (b < k / 32)
  let above := m.poison.filter fun b => decide (k / 32 < b)
  { m with poison := if on then below ++ k / 32 :: above else below ++ above }

/-! ## Lines -/

/-- The byte the stacks hold at a device address. -/
def stackByte (s : State) (a : Nat) : Byte := s.mem.read (physOf s a)

/-- The 256 bytes the stacks hold of a line. -/
def stackLine (s : State) (line : Nat) : List Byte := mgetN Memory.fresh s.mem.cells (physOf s (lineAddr line)) 256

/-- Bursts of the line that carry the poison syndrome. -/
def linePoison (s : State) (line : Nat) : Bool :=
  (List.range 8).any fun b => s.mem.poisoned (physOf s (lineAddr line) + 32 * b)

/-- The burst's bits of a line mask. -/
def burstBits (mask : BitVec 256) (b : Nat) : Nat := mask.toNat / 2 ^ (32 * b) % 2 ^ 32

/-- Writes one burst of a line at one place (R272, R284, R285): a burst covered in whole is written and loses any poison; one
covered in part is merged, and keeps or takes the poison syndrome when its read finds it uncorrectable. -/
def writeBurst (m : Memory) (k b : Nat) (mask : BitVec 256) (data : List Byte) (poisoned bad : Bool) : Memory :=
  if burstBits mask b = 0 then m
  else
    let bytes := (slice data (32 * b) 32).zipIdx.map fun e =>
      if mask.getLsbD (32 * b + e.2) then e.1 else m.read (k + 32 * b + e.2)
    let whole := burstBits mask b == 2 ^ 32 - 1
    let syn := poisoned || (!whole && (bad || m.poisoned (k + 32 * b)))
    (m.writeN (k + 32 * b) bytes).setPoison (k + 32 * b) syn

/-- Writes the masked bytes of a line into the stacks; `bad` marks bursts whose merge read finds them uncorrectable. A write to a
failed pseudo-channel is discarded (R277). -/
def writeLine (s : State) (line : Nat) (mask : BitVec 256) (data : List Byte) (poisoned : Bool) (bad : BitVec 8) : State :=
  if chanFailed s (chanOf (lineAddr line)) then s
  else
    let places := writePlaces s (lineAddr line)
    s.modMem fun m => places.foldl (fun m k =>
      (List.range 8).foldl (fun m b => writeBurst m k b mask data poisoned (bad.getLsbD b)) m) m

/-- Records an error address when none is recorded (Table 7-4); cause 0 uncorrectable, 1 parity exhaustion, 2 failed channel. -/
def recordErr (s : State) (line cause : Nat) : State :=
  s.modStack (stackOf (lineAddr line)) fun t =>
    if t.errValid then t else { t with errValid := true, errCause := cause, errAddr := lineAddr line }

/-! ## Row errors and the remap table (R286 to R291) -/

/-- The lowest free spare row of a bank (R288). -/
def freeSpare (s : State) (x bank : Nat) : Option Nat :=
  ((List.range 24).map (12264 + ·)).find? fun r => s.mem.remap.all fun e => !(e.x == x && e.bank == bank && e.spare == r)

/-- Starts the remap of a row (R288), or reports that nothing is free (R291). A row already being replaced is left alone. -/
def remapStart (s : State) (x bank row : Nat) : State :=
  if s.mem.remap.any fun e => e.x == x && e.bank == bank && e.row == row then s
  else
    match freeSpare s x bank with
    | some r =>
      if (s.mem.remap.filter fun e => e.x == x).length < 32 then
        s.fresh.modMem fun m => { m with remap := m.remap ++
          [{ order := s.nextId, x := x, bank := bank, row := row, spare := r, copied := false, active := false, logged := false }] }
      else (s.event .memRemapFull).modStack (x / 64) fun t => { t with remapFull := t.remapFull + 1 }
    | none => (s.event .memRemapFull).modStack (x / 64) fun t => { t with remapFull := t.remapFull + 1 }

/-- The row count that a new row of a full table replaces: the lowest count, the oldest among equals (R286). -/
def ceVictim (rows : List CeRow) : Option CeRow :=
  rows.foldl (fun best r => match best with
    | none => some r
    | some b => if r.count < b.count ∨ (r.count = b.count ∧ r.order < b.order) then some r else some b) none

/-- Counts one corrected error of a row (R286) and remaps it at the fourth (R287). -/
def countCe (s : State) (x bank row : Nat) : State :=
  let mine := s.mem.ceRows.filter fun r => r.x == x
  match mine.find? fun r => r.bank == bank && r.row == row with
  | some r =>
    let s := s.modMem fun m => { m with ceRows := m.ceRows.map fun q =>
      if q.x = x ∧ q.bank = bank ∧ q.row = row then { q with count := q.count + 1 } else q }
    if r.count + 1 = 4 then remapStart s x bank row else s
  | none =>
    let rows := if mine.length < 16 then s.mem.ceRows else
      match ceVictim mine with
      | some v => s.mem.ceRows.filter fun q => q != v
      | none => s.mem.ceRows
    s.fresh.modMem fun m => { m with ceRows := rows ++ [{ x := x, bank := bank, row := row, count := 1, order := s.nextId }] }

/-- What the system ECC does on the bursts of a line that a stack read covers (R280 to R282, R286, R287): counts, error address, row
counts and remap. `found` are the findings of the event; a burst with the poison syndrome is always uncorrectable (R284). -/
def eccOn (s : State) (line : Nat) (read : Nat → Bool) (found : List Burst) : State :=
  let a := lineAddr line
  let x := chanOf a
  let row := physRow s x (bankOf a) (rowOf a)
  let p := physOf s a
  ((List.range 8).filter read).foldl (fun s b =>
    if s.mem.poisoned (p + 32 * b) || found[b]? == some Burst.uncorrectable then
      remapStart (recordErr (s.modStack (x / 64) fun t => { t with ue := t.ue + 1 }) line 0) x (bankOf a) row
    else if found[b]? == some Burst.corrected then
      countCe (s.modStack (x / 64) fun t => { t with ce := t.ce + 1 }) x (bankOf a) row
    else s) s

/-- A stack read of a whole line. -/
def eccCount (s : State) (line : Nat) (found : List Burst) : State := eccOn s line (fun _ => true) found

/-- The bursts that a merge reads (R272). -/
def mergeReads (mask : BitVec 256) (b : Nat) : Bool := burstBits mask b != 0 && burstBits mask b != 2 ^ 32 - 1

/-- The uncorrectable bursts among some findings, as a mask. -/
def badBursts (found : List Burst) : BitVec 8 :=
  (List.range 8).foldl (fun (m : BitVec 8) b => if found[b]? = some .uncorrectable then m ||| BitVec.ofNat 8 (2 ^ b) else m) 0

/-- A write of a line's masked bytes by the stack controller: bursts covered in part are read, checked and merged (R272, R280 to
R282, R285 to R287). -/
def mergeLine (s : State) (line : Nat) (mask : BitVec 256) (data : List Byte) (poisoned : Bool) (found : List Burst) : State :=
  let s := if chanFailed s (chanOf (lineAddr line)) then s else eccOn s line (mergeReads mask) found
  writeLine s line mask data poisoned (badBursts found)

/-- The line has an uncorrectable burst: stored poison or a finding of this read (R282, R284). -/
def lineBad (s : State) (line : Nat) (found : List Burst) : Bool :=
  linePoison s line || found.any fun b => b == Burst.uncorrectable

/-- The stack answers reads of the line with POISON whatever it holds: failed (R277), tripped (R304). -/
def linePoisonAnswer (s : State) (line : Nat) : Bool :=
  let x := chanOf (lineAddr line)
  chanFailed s x || stackTripped s (x / 64)

/-! ## The refresh rate -/

/-- The MULT that a temperature gives under the REFRESH curve in force (R299, R100). -/
def refreshMult (s : State) (v : Int) : Nat := match s.str.bind (·.refresh) with
  | none => 512
  | some ps =>
    match ps.filter fun p => decide (p.1 ≤ v) with
    | [] => (ps.head?).elim 512 (·.2)
    | q :: qs => (qs.foldl (fun b p => if b.1 ≤ p.1 then p else b) q).2

end Sys2Proof.Machine
end

