-- ==== Sys2Proof/Machine/BwrOps.lean ====
section
/-! DEFINITION. The byte-window regulator: budgets, charges, holding and release, deadlines (08). -/

namespace Sys2Proof.Machine

/-- The budget of a master on a channel group in units (R319); master 90 has none (R316). -/
def budgetOf (s : State) (m g : Nat) : Nat :=
  match s.str.bind fun t => t.budgets[8 * m + g / 8]? with
  | some e => if e.head.valid && m != 90 then 4 * (e.bytes[g % 8]?).getD 0 else 0
  | none => 0

/-- Units a master has used in this beat on a group. -/
def usedOf (s : State) (m g : Nat) : Nat := mget 0 s.bwr.used (64 * m + g)

/-- Units a master has left in this beat on a group (R317). -/
def unitsLeft (s : State) (m g : Nat) : Nat := budgetOf s m g - usedOf s m g

/-- Records in a queue ring. -/
def ringSize (l : BitVec 4) : Nat := 2 ^ l.toNat

/-- The group holds part of the C0 queue of an ACTIVE partition (R323). -/
def c0QueueOn (s : State) (g : Nat) : Bool :=
  (List.range 8).any fun p =>
    (partSt s p).state == .active && (partDesc s p).any (·.c0) &&
      (let q := vat s.stp.queue (4 * p) {}
       let b := q.base.toNat
       let l := b + 64 * ringSize q.size - 1
       decide (groupOf b ≤ g) && decide (g ≤ groupOf l))

/-- Units of master 91 kept for descriptor reads of C0 queues (R323). -/
def keptUnits (s : State) (m g : Nat) (c0Read : Bool) : Nat :=
  if m = 91 ∧ c0Read = false ∧ c0QueueOn s g = true then 32 else 0

/-- A charge fits the units left (R318, R323). -/
def fits (s : State) (m g u : Nat) (c0Read : Bool) : Bool := decide (u + keptUnits s m g c0Read ≤ unitsLeft s m g)

/-- Charges units to a master. -/
def State.take (s : State) (m g u : Nat) : State :=
  s.modBwr fun b => { b with used := mset 0 b.used (64 * m + g) (mget 0 b.used (64 * m + g) + u) }

/-- The partition whose telemetry record counts the units a master holds (Table 15-3). -/
def masterPart (s : State) (m : Nat) : Option Nat :=
  if m < 64 then (List.range 8).find? fun p => ownsSheaf s p m
  else if m < 80 then dmaPart s (m - 64) else none

/-- Adds held units to BWR_VIOLATION and to the frame's counts (R318, Table 15-3). -/
def State.violate (s : State) (m u : Nat) : State :=
  let p := masterPart s m
  ((s.modBwr fun b => { b with violation := vmodN b.violation m (· + BitVec.ofNat 32 u) }).modTel fun t =>
    { t with now := { t.now with held := t.now.held + u } }).each p.toList fun s q =>
      s.partFrame q fun f => { f with held := f.held + u }

/-- Holds a request under R318. -/
def State.hold (s : State) (m g u : Nat) (c0Read : Bool) (k : HeldKind) : State :=
  (s.violate m u).modBwr fun b => { b with held := b.held ++ [{ master := m, group := g, charge := u, c0 := c0Read, kind := k }] }

/-- Charges a request, or holds it (R315, R318). -/
def State.charge (s : State) (m g u : Nat) (c0Read : Bool) (k : HeldKind) : State :=
  if fits s m g u c0Read then s.take m g u else s.hold m g u c0Read k

/-- The read of a descriptor of a C0 queue: class C0 of master 91, which makes no other C0 request (R323, R324). -/
def c0Desc (r : MemReq) : Bool := r.master == 91 && r.cls == 0

/-- Units of a write of these bytes of a line (R315): one for each 64-byte quarter touched, two where a burst is covered in part. -/
def writeUnits (mask : BitVec 256) : Nat :=
  sumN ((List.range 4).map fun q =>
    let b0 := burstBits mask (2 * q)
    let b1 := burstBits mask (2 * q + 1)
    let part := fun b => b != 0 && b != 2 ^ 32 - 1
    if b0 = 0 ∧ b1 = 0 then 0 else if part b0 || part b1 then 2 else 1)

/-- A deadline has passed at the current beat (R327). -/
def passed (s : State) (d : Nat) : Bool := decide ((d + 2 ^ 24 - s.beat % 2 ^ 24) % 2 ^ 24 ≥ 2 ^ 23)

/-- The earlier of two deadlines (R327, R331). -/
def earlier (s : State) (a b : Option Nat) : Option Nat :=
  match a, b with
  | some x, some y =>
    let now := s.beat % 2 ^ 24
    if (x + 2 ^ 24 - now) % 2 ^ 24 ≤ (y + 2 ^ 24 - now) % 2 ^ 24 then some x else some y
  | some x, none => some x
  | none, y => y

/-- A tile's request has lost its tag (R328): what it completes is no tagged request any more (R333, log 141). -/
def untagged (s : State) (r : MemReq) : State := match r.src with
  | .load id => s.modTile fun t => { t with loads := t.loads.map fun l => if l.id = id then { l with demoted := l.demoted + 1 } else l }
  | .store _ id => s.modTile fun t => { t with storeBuf := t.storeBuf.map fun e => if e.id = id then { e with deadline := none } else e }
  | _ => s

/-- Takes the tag off a request whose deadline has passed at an arbitration point (R328). -/
def demote (s : State) (r : MemReq) : State × MemReq :=
  match r.deadline with
  | some d =>
    if passed s d then (untagged (s.modBwr fun b => { b with dlDemoted := b.dlDemoted + 1 }) r, { r with deadline := none }) else (s, r)
  | none => (s, r)

/-- The waiters of a register reach the command scheduler (R328). -/
def demoteWaiters (s : State) (ws : List Waiter) : State × List Waiter :=
  ws.foldl (fun st w => ((demote st.1 w.req).1, st.2 ++ [{ w with req := (demote st.1 w.req).2 }])) (s, [])

/-- The store that a held write belongs to reaches the command scheduler (R328). -/
def demoteNext (s : State) (n : AfterWb) : State × AfterWb := match n with
  | .ack r => ((demote s r).1, .ack (demote s r).2)
  | .store r => ((demote s r).1, .store (demote s r).2)
  | _ => (s, n)

/-- Counts a tagged request that completed after its deadline (R333): the register and the step. -/
def dlMissed (s : State) (d master group : Nat) (step : Option Nat) : State :=
  let last : DlMissLast := { deadline := BitVec.ofNat 24 d, doneBeat := BitVec.ofNat 24 s.beat, group := BitVec.ofNat 6 group,
                             master := BitVec.ofNat 7 master }
  let s := s.modBwr fun b => { b with dlMiss := b.dlMiss + 1, dlMissLast := last }
  let s := s.modTel fun t => { t with now := { t.now with dlMiss := t.now.dlMiss + 1 } }
  match step.bind (getStep s) with
  | some t => (s.modStep t.id fun x => { x with dlMiss := true }).partFrame t.part fun f => { f with dlMiss := f.dlMiss + 1 }
  | none => s

/-- What a released request does: a held stack read may be filled; a held write may take its write-buffer entry once nothing holds it
(R318). A tag whose deadline has passed by then is lost (R328). -/
def State.release (s : State) (k : HeldKind) : State :=
  match k with
  | .miss line part => (s.grn.misses.find? fun m => m.line == line && m.part == part).elim s fun m =>
      let p := demoteWaiters s m.waiters
      let d := p.2.foldl (fun d w => earlier p.1 d w.req.deadline) none
      p.1.modGrn fun g => { g with misses := g.misses.map fun m =>
        if m.line = line ∧ m.part = part then { m with issued := true, waiters := p.2, deadline := d } else m }
  | .direct req => (s.grn.direct.find? fun d => d.req.id == req).elim s fun d =>
      (demote s d.req).1.modGrn fun g => { g with direct := g.direct.map fun x =>
        if x.req.id = req then { x with issued := true, req := (demote s d.req).2 } else x }
  | .write id => (s.mem.wbWait.find? fun w => w.id == id).elim s fun w =>
      (demoteNext s w.andThen).1.modMem fun m => { m with wbWait := m.wbWait.map fun x =>
        if x.id = id then { x with andThen := (demoteNext s w.andThen).2 } else x }

/-- The regulator holds a write. -/
def writeHeld (s : State) (id : Nat) : Bool := s.bwr.held.any fun h => h.kind == .write id

/-- Releases the held requests at a beat boundary in the order they were held (R318): the first of each master and group always,
each later one while the units cover it. -/
def releaseHeld (s : State) : State :=
  let held := s.bwr.held
  let start := s.modBwr fun b => { b with held := [] }
  (held.foldl (fun (st : State × List (Nat × Nat) × List (Nat × Nat)) h =>
    let (s, seen, stuck) := st
    let key := (h.master, h.group)
    if !(seen.contains key) then
      ((s.take h.master h.group (min h.charge (unitsLeft s h.master h.group))).release h.kind, key :: seen, stuck)
    else if !(stuck.contains key) && fits s h.master h.group h.charge h.c0 then
      ((s.take h.master h.group h.charge).release h.kind, seen, stuck)
    else (s.modBwr fun b => { b with held := b.held ++ [h] }, seen, key :: stuck)) (start, [], [])).1

/-- The regulator at a beat boundary (R317, R318): counts are set anew, the last beat's are kept for BWR_BUDGET. -/
def bwrBoundary (s : State) : State := releaseHeld (s.modBwr fun b => { b with last := b.used, used := [] })

end Sys2Proof.Machine
end

