-- ==== Sys2Proof/Machine/TileOps.lean ====
section
/-! DEFINITION. Tiles: groups and their registers, local memory, the store buffer, tokens and group faults (04). -/

namespace Sys2Proof.Machine

/-! ## Groups -/

/-- The key of a group slot of a tile. -/
def gKey (tile slot : Nat) : Nat := 8 * tile + slot

/-- The sheaf of a logical tile. -/
def sheafOf (tile : Nat) : Nat := tile / 16

/-- The compute die of a logical tile (16 sheaves per die). -/
def dieOf (tile : Nat) : Nat := tile / 256

/-- The running group of a slot. -/
def getGroup (s : State) (tile slot : Nat) : Option Group := assoc s.tile.groups (gKey tile slot)

/-- Changes a running group. -/
def State.modGroup (s : State) (tile slot : Nat) (f : Group → Group) : State :=
  s.modTile fun t => { t with groups := t.groups.map fun e => if e.1 = gKey tile slot then (e.1, f e.2) else e }

/-- A fault comes before the one that stands: of one cycle, the lower tile and slot (R152). -/
def precedes (new old : Option (Nat × Nat)) : Bool := match new, old with
  | some a, some b => a.1 == b.1 && decide (a.2 < b.2)
  | _, _ => false

/-- The first fault code of a step stands (R152, R353); the cycle and group of a group fault come with it. -/
def State.faultStepAt (s : State) (id : Nat) (c : Code) (key : Option (Nat × Nat)) : State :=
  s.modStep id fun t => if t.fault.isSome && !precedes key t.faultAt then t else { t with fault := some c, faultAt := key }

/-- A step takes a fault code that is no group's. -/
def State.faultStep (s : State) (id : Nat) (c : Code) : State := s.faultStepAt id c none

/-! ## Local memory (R158) -/

/-- Bytes of local memory of a tile. -/
def localSize : Nat := 0x60000

/-- The key of a byte of local memory. -/
def localKey (tile a : Nat) : Nat := 2 ^ 19 * tile + a

/-- Local memory with some writes of matrix engines done. -/
def mxeDone (m : NMap Byte) (ws : List MxeWrite) : NMap Byte := ws.foldl (fun m w => msetN 0 m (localKey w.tile w.addr) w.bytes) m

/-- Carries out the writes of matrix engines that satisfy a test. -/
def State.settleMxe (s : State) (p : MxeWrite → Bool) : State :=
  s.modTile fun t => { t with localMem := mxeDone t.localMem (t.mxeOut.filter p), mxeOut := t.mxeOut.filter fun w => !p w }

/-- The writes of matrix engines whose latency has passed at a cycle (Table 4-2). -/
def State.mxeUpTo (s : State) (cycle : Nat) : State := s.settleMxe fun w => decide (w.at_ ≤ cycle)

/-- Reads local memory, as an access that is not one of the tile's own instructions does. -/
def readLocal (s : State) (tile a n : Nat) : List Byte :=
  mgetN 0 (mxeDone s.tile.localMem (s.tile.mxeOut.filter fun w => w.tile == tile)) (localKey tile a) n

/-- Puts bytes into local memory. -/
def State.pokeLocal (s : State) (tile a : Nat) (bs : List Byte) : State :=
  s.modTile fun t => { t with localMem := msetN 0 t.localMem (localKey tile a) bs }

/-- Writes local memory, after what the tile's matrix engine has on its way. -/
def State.writeLocal (s : State) (tile a : Nat) (bs : List Byte) : State := (s.settleMxe fun w => w.tile == tile).pokeLocal tile a bs

/-- The tile and address a local address reaches from a tile, or none outside the populated ranges (Table 4-8). -/
def localTarget (tile a : Nat) : Option (Nat × Nat) :=
  if a < localSize then some (tile, a)
  else if 0x100000 ≤ a ∧ a < 0x900000 then
    let t := (a - 0x100000) / 0x80000
    let o := (a - 0x100000) % 0x80000
    if o < localSize then some (16 * sheafOf tile + t, o) else none
  else none

/-! ## Registers (R143 to R146) -/

/-- Writes the destination operand of a lane: v0 to v127, c0 to c5, or nothing for ZERO. -/
def Group.writeDst (g : Group) (code : Nat) (lane : Nat) (v : W32) : Group :=
  if code < 0x80 then { g with regs := mset 0 g.regs (32 * code + lane) v }
  else if code < 0x86 then { g with rc := mset 0 g.rc (32 * (code - 0x80) + lane) v }
  else g

/-- The code may be a destination (Table 4-3). -/
def dstOk (code : Nat) : Bool := decide (code < 0x86) || code == 0xFF

/-- Marks a result as ready from a cycle on (R140). -/
def Group.setReady (g : Group) (code cycle : Nat) : Group :=
  if code < 0x86 then { g with ready := mset 0 g.ready code cycle } else g

/-- The lanes of a mask, lowest first. -/
def lanesOf (m : W32) : List Nat := idx 32 fun i => m.getLsbD i

/-! ## Tokens (R164 to R170) -/

/-- The state of a token. -/
def token (s : State) (t : Nat) : Token := mget .free s.tile.tokens t

/-- Sets the state of a token. -/
def State.setToken (s : State) (t : Nat) (v : Token) : State :=
  s.modTile fun x => { x with tokens := mset .free x.tokens t v }

/-- A token is held by a lane of this group. -/
def heldBy (k : Token) (tile slot : Nat) : Bool :=
  match k with
  | .held _ t g _ => t == tile && g == slot
  | _ => false

/-- Status codes of a token instruction (R164). -/
def stGranted : W32 := 0
def stBusy : W32 := 1
def stSelfHeld : W32 := 2
def stForfeit : W32 := 3

/-- Writes a status to the destination and, under KEEP, to its entry (R145). -/
def Group.writeStatus (g : Group) (dst : Nat) (keep : Option Nat) (lane : Nat) (v : W32) : Group :=
  let g := g.writeDst dst lane v
  match keep with
  | some k => g.writeDst (0x80 + k) lane v
  | none => g

/-- Writes one token status to the lowest active lane and another to the other active lanes of a group. -/
def State.tokenStatus (s : State) (tile slot dst : Nat) (keep : Option Nat) (lanes : W32) (first rest : W32) : State :=
  match lanesOf lanes with
  | [] => s
  | l :: ls => s.modGroup tile slot fun g => ls.foldl (fun g i => g.writeStatus dst keep i rest) (g.writeStatus dst keep l first)

/-- Gives a free or forfeit token to the lowest active lane of a group (Table 4-9). -/
def State.grantToken (s : State) (t part tile slot dst : Nat) (keep : Option Nat) (lanes : W32) : State :=
  match lanesOf lanes with
  | [] => s
  | l :: _ =>
    let st := if token s t == .forfeit then stForfeit else stGranted
    (s.setToken t (.held part tile slot l)).tokenStatus tile slot dst keep lanes st stSelfHeld

/-- The group that waits for a token and is served first: the lowest tile × 8 + slot (R167). -/
def nextWaiter (s : State) (t : Nat) : Option TokenWaiter :=
  (s.tile.tokenWait.filter fun w => w.token == t).foldl (fun b w => match b with
    | none => some w
    | some v => if gKey w.tile w.slot < gKey v.tile v.slot then some w else some v) none

/-- Serves the next group that waits for a token that is no longer held (R166, R168). -/
def State.serveToken (s : State) (t : Nat) : State :=
  match nextWaiter s t with
  | none => s
  | some w =>
    let p := (getGroup s w.tile w.slot).elim 0 (·.part)
    ((s.modTile fun x => { x with tokenWait := x.tokenWait.filter fun v => v != w }).modGroup w.tile w.slot fun g =>
      { g with hold := .none }).grantToken t p w.tile w.slot w.dst.toNat w.keep w.lanes

/-- Every token held by a group becomes FORFEIT (R152, R169). -/
def State.forfeitTokens (s : State) (tile slot : Nat) : State :=
  let ts := (s.tile.tokens.filter fun e => heldBy e.2 tile slot).map (·.1)
  let s := s.modTile fun x => { x with tokens := x.tokens.map fun e => if heldBy e.2 tile slot then (e.1, .forfeit) else e }
  s.each ts fun s t => s.serveToken t

/-- A group holds a token. -/
def holdsToken (s : State) (tile slot : Nat) : Bool := s.tile.tokens.any fun e => heldBy e.2 tile slot

/-- Takes a group off its slot, with its wait for a token; its loads keep their response slots until they return (R240). -/
def State.dropGroup (s : State) (tile slot : Nat) : State :=
  s.modTile fun t => { t with groups := assocDel t.groups (gKey tile slot),
                              tokenWait := t.tokenWait.filter fun w => !(w.tile == tile && w.slot == slot) }

/-- The record of a group fault comes before the one that SHF_GROUP_FAULT holds (R152). -/
def GroupFault.follows (f : GroupFault) (tile slot : Nat) (cycle : Option Nat) : Bool :=
  precedes (cycle.map fun c => (c, gKey (tile % 16) slot)) (f.cycle.map fun c => (c, gKey f.tile.toNat f.slot.toNat))

/-- A group fault (R152) of the instruction at an index: the group stops, its tokens become FORFEIT, SHF_GROUP_FAULT records it, its
step takes the code. -/
def State.groupFault (s : State) (tile slot : Nat) (c : Code) (pc : Nat) (cycle : Option Nat) : State :=
  match getGroup s tile slot with
  | none => s
  | some g =>
    let s := (s.dropGroup tile slot).forfeitTokens tile slot
    let s := s.modTile fun t => { t with groupFault := vmodN t.groupFault (sheafOf tile) fun f =>
      if f.valid && !(f.follows tile slot cycle) then f
      else { valid := true, code := c.num, tile := BitVec.ofNat 4 tile, slot := BitVec.ofNat 3 slot, pc := BitVec.ofNat 32 pc,
             cycle := cycle } }
    s.faultStepAt g.step c (cycle.map fun k => (k, gKey tile slot))

/-! ## The store buffer (R171, R178 to R182) -/

/-- The youngest buffered byte of a tile at an address of a space, if any (R171). -/
def sbByte (s : State) (tile : Nat) (space : Option Nat) (a : Nat) : Option Byte :=
  s.tile.storeBuf.foldl (fun r e =>
    if e.tile = tile ∧ e.space = space ∧ e.block = a / 64 ∧ e.mask.getLsbD (a % 64) = true then e.data[a % 64]? else r) none

/-- Entries of a tile. -/
def sbCount (s : State) (tile : Nat) : Nat := (s.tile.storeBuf.filter fun e => e.tile == tile).length

/-- The youngest entry of a tile for a block that has not begun to drain (R178). -/
def sbOpen (s : State) (tile : Nat) (space : Option Nat) (block : Nat) : Option SbEntry :=
  match (s.tile.storeBuf.filter fun e => e.tile == tile && e.space == space && e.block == block).getLast? with
  | some e => if e.begun.isNone then some e else none
  | none => none

/-- The data of a block after a lane's bytes are stored into it, and its mask. -/
def sbMerge (data : List Byte) (off : Nat) (bs : List Byte) : List Byte :=
  data.take off ++ bs ++ data.drop (off + bs.length)

/-- The mask of `len` bytes of a block from `off`. -/
def mask64 (off len : Nat) : BitVec 64 := BitVec.ofNat 64 ((2 ^ len - 1) * 2 ^ off)

/-- Stores bytes that lie within one block: merges into the open entry or takes a new one (R178). -/
def State.sbStore (s : State) (tile group : Nat) (space : Option Nat) (a cycle : Nat) (bs : List Byte)
    (part step cls : Nat) (deadline : Option Nat) : State :=
  let off := a % 64
  match sbOpen s tile space (a / 64) with
  | some o => s.modTile fun t => { t with storeBuf := t.storeBuf.map fun e => if e.id = o.id then
      { e with mask := e.mask ||| mask64 off bs.length, data := sbMerge e.data off bs,
               groups := if e.groups.contains group then e.groups else e.groups ++ [group] } else e }
  | none => s.fresh.modTile fun t => { t with storeBuf := t.storeBuf ++
      [{ id := s.nextId, tile := tile, space := space, block := a / 64, mask := mask64 off bs.length,
         data := sbMerge (List.replicate 64 0) off bs, taken := cycle, begun := none, groups := [group],
         part := part, step := step, cls := cls, deadline := deadline }] }

/-- A request of an entry is still on its way to its slice, or waits there. -/
def storePending (s : State) (tile entry : Nat) : Bool :=
  let mine := fun (r : MemReq) => r.src == .store tile entry
  s.grn.reqs.any mine || s.mem.wbWait.any fun w => match w.andThen with
    | .store r => mine r
    | .ack r => mine r
    | _ => false

end Sys2Proof.Machine
end

