-- ==== Sys2Proof/Machine/GranaryOps.lean ====
section
/-! DEFINITION. The Granary: windows and classes, victims, stream trackers, misses and waiters, kills, stores, evictions (05), with
the write-buffer reservation of R241. -/

namespace Sys2Proof.Machine

/-! ## Windows and classes (R204 to R206, R112, R113) -/

def clsStream : Nat := 0
def clsNormal : Nat := 1
def clsPersist : Nat := 2
def clsPin : Nat := 3
def clsDead : Nat := 4

/-- A window entry matches a line of a partition. -/
def Window.hits (w : Window) (a part : Nat) : Bool :=
  w.valid && (w.part == part || w.part == 0xFF) && decide (w.base ≤ a) && decide (a ≤ w.limit)

/-- The window entries of a line, by index. -/
def winMatches (s : State) (a part : Nat) : List Nat := idx 64 fun n => (vat s.grn.win n {}).hits a part

/-- The highest priority among window entries. -/
def winTop (s : State) (ns : List Nat) : Nat := maxN (ns.map fun n => (vat s.grn.win n {}).prio)

/-- The window a lookup selects: the highest priority, then the lowest index (R112). -/
def winLookup (s : State) (a part : Nat) : Option Nat :=
  let ns := winMatches s a part
  ns.find? fun n => (vat s.grn.win n {}).prio == winTop s ns

/-- The lookup finds two or more winners (R113). -/
def winTie (s : State) (a part : Nat) : Bool :=
  let ns := winMatches s a part
  decide (2 ≤ (ns.filter fun n => (vat s.grn.win n {}).prio == winTop s ns).length)

/-- Changes the registers of a slice. -/
def State.modSlice (s : State) (n : Nat) (f : Slice → Slice) : State :=
  s.modGrn fun g => { g with slice := vmodN g.slice n f }

/-- A slice's registers. -/
def sliceSt (s : State) (n : Nat) : Slice := vat s.grn.slice n {}

/-- Counts a tie of a lookup in GRN_MATCH_TIE of the slice, saturating (R113). -/
def countTie (s : State) (a part : Nat) : State :=
  if winTie s a part then s.modSlice (homeSlice a) fun x =>
    { x with matchTie := if x.matchTie = 0xFFFF then x.matchTie else x.matchTie + 1 }
  else s

/-- The class of an access under a window index; NORMAL where none matches (R204, R205). -/
def classOf (s : State) (win : Option Nat) (a part : Nat) : Nat :=
  match win with
  | some n => let w := vat s.grn.win n {}; if w.hits a part then w.cls else clsNormal
  | none => clsNormal

/-- The class of a cached line as its window stands now (R205). -/
def lineClass (s : State) (l : GLine) : Nat := classOf s l.win (lineAddr l.line) l.part

/-! ## Lines and ways (R189 to R191, R206, R208) -/

/-- The line of a partition, when the slice holds it (R189). -/
def findLine (s : State) (line part : Nat) : Option GLine := s.grn.lines.find? fun l => l.line == line && l.part == part

/-- Changes a cached line. -/
def State.modLine (s : State) (line part : Nat) (f : GLine → GLine) : State :=
  s.modGrn fun g => { g with lines := g.lines.map fun l => if l.line = line ∧ l.part = part then f l else l }

/-- Takes a line out of its slice. -/
def State.dropLine (s : State) (line part : Nat) : State :=
  s.modGrn fun g => { g with lines := g.lines.filter fun l => !(l.line == line && l.part == part) }

/-- Marks a line as the one used last. -/
def State.touch (s : State) (line part : Nat) : State :=
  (s.modLine line part fun l => { l with used := s.grn.clock + 1 }).modGrn fun g => { g with clock := g.clock + 1 }

/-- Lines of the partition in the set of an address. -/
def setLines (s : State) (a part : Nat) : List GLine :=
  s.grn.lines.filter fun l => l.part == part && homeSlice (lineAddr l.line) == homeSlice a && setIndex (lineAddr l.line) == setIndex a

/-- The least recently used of some lines. -/
def lruLine (ls : List GLine) : Option GLine :=
  ls.foldl (fun b l => match b with
    | none => some l
    | some x => if l.used < x.used ∨ (l.used = x.used ∧ l.inserted < x.inserted) then some l else some x) none

/-- The oldest of some lines. -/
def oldestLine (ls : List GLine) : Option GLine :=
  ls.foldl (fun b l => match b with
    | none => some l
    | some x => if l.inserted < x.inserted then some l else some x) none

/-- A line that waits for the write-buffer entry of its own eviction. -/
def evicting (s : State) (l : GLine) : Bool := s.mem.wbWait.any fun w => w.evict && w.line == l.line

/-- A line may be chosen as a victim: it is not already leaving, and no line homed on a tripped stack goes (R305). -/
def mayEvict (s : State) (l : GLine) : Bool := !evicting s l && !stackTripped s (stackOf (lineAddr l.line))

/-- The quota of a class of a partition, where it has one. -/
def quotaOf (s : State) (p cls : Nat) : Option Nat :=
  let q := vat s.grn.quota p {}
  if cls = clsStream then some q.stream else if cls = clsPersist then some q.persist
  else if cls = clsPin then some q.pin else none

/-- Ways of a partition in every set (R190). -/
def waysOf (s : State) (p : Nat) : Nat := (partDesc s p).elim 0 (·.grWays)

/-- The first way of a partition: the enabled partitions below it have taken theirs from way 0 on (R190). -/
def firstWay (s : State) (p : Nat) : Nat := sumN ((List.range p).map (waysOf s))

/-- The lowest free way of a partition in the set of an address (R190). -/
def freeWay (s : State) (a p : Nat) : Nat :=
  let taken := (setLines s a p).map (·.way)
  (((List.range (waysOf s p)).map (firstWay s p + ·)).find? fun w => !taken.contains w).getD (firstWay s p)

/-- What an allocation finds: nothing to take, a free way, or a victim (Table 5-3, R208). A store allocates whatever its class but
DEAD (R199): at a full PERSIST quota it takes the way of a PERSIST line (log 123). -/
def findWay (s : State) (a part cls : Nat) (store : Bool) : Option (Option GLine) :=
  let ls := setLines s a part
  let ofCls := fun c => ls.filter fun l => lineClass s l == c
  let full := match quotaOf s part cls with
    | some q => decide (q ≤ (ofCls cls).length)
    | none => false
  if full && !store && (cls == clsPersist || cls == clsPin) then none
  else
    let overrun := [clsStream, clsPersist, clsPin].find? fun c =>
      match quotaOf s part c with
      | some q => decide (q < (ofCls c).length) && (lruLine ((ofCls c).filter (mayEvict s))).isSome
      | none => false
    match overrun with
    | some c => (lruLine ((ofCls c).filter (mayEvict s))).map some
    | none =>
      if full && cls == clsStream then (oldestLine ((ofCls clsStream).filter (mayEvict s))).map some
      else if full && cls == clsPersist then (lruLine ((ofCls clsPersist).filter (mayEvict s))).map some
      else if ls.length < waysOf s part then some none
      else
        match lruLine (ls.filter fun l => mayEvict s l && (lineClass s l != clsPersist && lineClass s l != clsPin)) with
        | some l => some (some l)
        | none => if cls = clsPersist then (lruLine ((ofCls clsPersist).filter (mayEvict s))).map some else none

/-- Puts a line into a free way. A STREAM line is inserted as least recently used (Table 5-3). -/
def State.installLine (s : State) (l : GLine) (cls : Nat) : State :=
  s.modGrn fun g => { g with lines := g.lines ++ [{ l with way := freeWay s (lineAddr l.line) l.part,
                                                           used := if cls = clsStream then 0 else g.clock + 1,
                                                           inserted := g.clock + 1 }],
                             clock := g.clock + 1 }

/-- Queues a write to a stack until its write-buffer entry is granted (R241): each of its charges is taken (R315) or held (R318). -/
def State.queueWrite (s : State) (w : WbWait) (charges : List (Nat × Nat)) : State :=
  (s.fresh.each charges fun s' c => s'.charge c.1 (w.x / 8) c.2 false (.write s.nextId)).modMem fun m =>
    { m with wbWait := m.wbWait ++ [{ w with id := s.nextId }] }

/-- The eviction of a dirty victim: it stays in its way until the entry is granted (R201, R241). -/
def evictWait (l : GLine) (master : Nat) (next : AfterWb) : WbWait :=
  { id := 0, x := chanOf (lineAddr l.line), line := l.line, mask := l.dirty, data := l.data, poisoned := false, evict := true,
    master := master, andThen := next }

/-- Evicts a dirty victim for an allocation of a master, which is charged for it (R201, R241, R315). -/
def State.evict (s : State) (l : GLine) (master : Nat) (next : AfterWb) : State :=
  s.queueWrite (evictWait l master next) [(master, writeUnits l.dirty)]

/-! ## Stream trackers (R217 to R220) -/

/-- The 32 trackers of a slice. -/
def trackersOf (x : Slice) : List (Option Tracker) := x.trackers ++ List.replicate (32 - x.trackers.length) none

/-- The tracker expects this local line next. -/
def Tracker.expects (t : Tracker) (part : Nat) (l : Int) : Bool :=
  t.part == part && (if t.count ≤ 1 then decide (l ≠ t.lastLine) && decide ((l - t.lastLine).natAbs ≤ 4) else l == t.lastLine + t.stride)

/-- A tracker after a read miss it matches: it detects a stream at the fourth miss of one stride (R218). -/
def Tracker.advance (t : Tracker) (l : Int) (order beat : Nat) : Tracker :=
  { t with lastLine := l, stride := l - t.lastLine, count := t.count + 1, detected := t.detected || decide (3 ≤ t.count),
           used := order, lastBeat := beat }

/-- The index of the tracker that a miss matching none takes: a free one, else the least recently matched not detected (R220). -/
def freeTracker (ts : List (Option Tracker)) : Option Nat :=
  match (List.range 32).find? fun i => ts[i]? == some none with
  | some i => some i
  | none =>
    (idx 32 fun i => (ts[i]?.join).any fun t => !t.detected).foldl (fun b i => match b with
      | none => some i
      | some j => if (ts[i]?.join).elim 0 (·.used) < (ts[j]?.join).elim 0 (·.used) then some i else some j) none

/-- The tracker of a slice that a read miss matches: a detected one before any other (R218, R219). -/
def matchTracker (ts : List (Option Tracker)) (part : Nat) (l : Int) : Option Nat :=
  match (List.range 32).find? fun i => (ts[i]?.join).any fun t => t.detected && t.expects part l with
  | some i => some i
  | none => (List.range 32).find? fun i => (ts[i]?.join).any fun t => t.expects part l

/-- The trackers of a slice after a read miss: the one it matches advances, else one is taken (R218, R220). -/
def trackedBy (ts : List (Option Tracker)) (part : Nat) (l : Int) (order beat : Nat) : List (Option Tracker) :=
  match matchTracker ts part l with
  | some i => ts.modify i (Option.map fun t => t.advance l order beat)
  | none =>
    match freeTracker ts with
    | some i => ts.set i (some { part := part, lastLine := l, stride := 0, count := 1, detected := false, used := order, lastBeat := beat })
    | none => ts

/-- A NORMAL read miss passes the detector of its slice. -/
def trackMiss (s : State) (a part : Nat) : State :=
  (s.modSlice (homeSlice a) fun x =>
    { x with trackers := trackedBy (trackersOf x) part (localLine a) (s.grn.clock + 1) s.tmp.elapsed }).modGrn fun g =>
    { g with clock := g.clock + 1 }

/-- A detected stream expects this line: the read miss is served without allocating (R219). -/
def streamBypass (s : State) (a part : Nat) : Bool :=
  (sliceSt s (homeSlice a)).trackers.any fun t => t.any fun t => t.detected && t.expects part (localLine a)

/-- A read of the expected line that hits takes the tracker out of the detected state (R219). -/
def trackHit (s : State) (a part : Nat) : State :=
  if streamBypass s a part then s.modSlice (homeSlice a) fun x =>
    { x with trackers := x.trackers.map fun t => if t.any fun t => t.detected && t.expects part (localLine a) then none else t }
  else s

/-! ## Kills (R221 to R228) -/

/-- Records a kill, newest first, in the 64-entry detector (R226). -/
def recordKill (s : State) (line part : Nat) : State :=
  s.modSlice (homeSlice (lineAddr line)) fun x => { x with killed := ((line, part) :: x.killed).take 64 }

/-- Invalidates a line without writeback (R221). -/
def killLine (s : State) (line part : Nat) : State := recordKill (s.dropLine line part) line part

/-- A store removes the detector entry of its line (R226). -/
def unkill (s : State) (line part : Nat) : State :=
  s.modSlice (homeSlice (lineAddr line)) fun x => { x with killed := x.killed.filter fun e => e != (line, part) }

/-- The read hits a detector entry (R227). -/
def wasKilled (s : State) (line part : Nat) : Bool := (sliceSt s (homeSlice (lineAddr line))).killed.contains (line, part)

/-- Sets DEADREAD and records the address of a dead read (R227). -/
def noteDeadRead (s : State) (line part : Nat) : State :=
  s.modSlice (homeSlice (lineAddr line)) fun x =>
    if x.drValid then { x with deadread := true }
    else { x with deadread := true, drValid := true, drPart := part, drAddr := lineAddr line }

/-- The partition's descriptor sets DEADREAD_FAULT (R228). -/
def deadFaults (s : State) (part : Nat) : Bool := (partDesc s part).any (·.deadreadFault)

/-! ## Answers -/

/-- A read of a failed pseudo-channel: the address is recorded and the step completes with MEM_CHANNEL_FAILED (R277). -/
def channelFault (s : State) (line : Nat) (step : Option Nat) : State :=
  if chanFailed s (chanOf (lineAddr line)) then (recordErr s line 2).each step.toList fun s id => s.faultStep id .memChannelFailed
  else s

/-- The sheaves of an MCAST entry (R246). -/
def mcastSheaves (s : State) (entry : Nat) : List Nat :=
  match s.str.bind fun t => t.mcasts[entry]? with
  | some m => if m.head.valid then idx 64 fun k => m.mask.getLsbD k else []
  | none => []

/-- An access of a job is answered for a line. -/
def EngRec.answer (e : EngRec) (line : Nat) (data : List Byte) (code : Option Code) : EngRec :=
  { e with left := dropFirst (· == line) e.left, got := e.got ++ [(line, data, code)] }

/-- A slice answers an engine's access to a line. -/
def engineAnswer (s : State) (job n line : Nat) (data : List Byte) (code : Option Code) : State :=
  s.modGrn fun g => { g with recs := g.recs.map fun e => if e.job = job ∧ e.n = n then e.answer line data code else e }

/-- The code of a line that is answered with POISON, or whose write is lost (R277, R283). -/
def lineCode (s : State) (line : Nat) : Code := if chanFailed s (chanOf (lineAddr line)) then .memChannelFailed else .poison

/-- A tagged request of an engine completes after its deadline (R333); those of tiles are looked at as they reach the tile. -/
def lateTag (s : State) (r : MemReq) : State := match r.deadline with
  | some d => if passed s d then dlMissed s d r.master (groupOf (lineAddr r.line)) r.step else s
  | none => s

/-- Gives a read its answer: the line's bytes, or POISON (R283). -/
def answerRead (s : State) (r : MemReq) (data : List Byte) (poison : Bool) : State :=
  match r.src with
  | .load id => s.modTile fun t => { t with loads := t.loads.map fun l =>
      if l.id = id then
        if poison then { l with code := some (l.code.getD .poison), got := l.got ++ [(r.line, [])] }
        else { l with got := l.got ++ [(r.line, data)] }
      else l }
  | .mcast step entry tile laddr =>
    let s := lateTag s r
    if poison then s.faultStep step .poison
    else s.each (mcastSheaves s entry) fun s k => s.writeLocal (16 * k + tile) laddr data
  | .engine job n => engineAnswer (lateTag s r) job n r.line (if poison then [] else data) (if poison then some (lineCode s r.line) else none)
  | _ => s

/-- Faults the requester of a detector hit (R228): a group, or the step of a plan transfer; host and DMA reads carry no step. -/
def deadReadFault (s : State) (r : MemReq) : Option State :=
  if deadFaults s r.part then
    match r.src with
    | .load id =>
      match s.tile.loads.find? fun l => l.id == id with
      | some l => some ((s.groupFault l.tile l.slot .deadRead l.pc none).modTile fun t => { t with loads := t.loads.filter fun l => l.id != id })
      | none => none
    | .mcast step _ _ _ => some (s.faultStep step .deadRead)
    | .engine job n => if r.step.isSome then some (engineAnswer s job n r.line [] (some .deadRead)) else none
    | _ => none
  else none

/-- A store is acknowledged (R175, R200): a posted write, a Trellis write or an engine's write is struck off its list. A write that a
failed pseudo-channel discards is acknowledged with its code (R277). -/
def ackStore (s : State) (r : MemReq) (lost : Bool) : State :=
  match r.src with
  | .posted fn id => s.modHif fun h => { h with posted := h.posted.filter fun e => e != (fn, id) }
  | .trellis slot => s.modTrl fun t => { t with slot := vmodN t.slot slot fun x =>
      { x with fill := x.fill.map fun f => { f with unacked := f.unacked.filter (fun i => i != r.id), ackedAt := s.tmp.elapsed } } }
  | .engine job n => engineAnswer (lateTag s r) job n r.line [] (if lost then some .memChannelFailed else none)
  | _ => s

/-! ## Reads (R192 to R197) -/

/-- Miss registers of a partition in a slice. -/
def missesOf (s : State) (n part : Nat) : List Miss :=
  s.grn.misses.filter fun m => m.part == part && (homeSlice (lineAddr m.line)).val == n

/-- A miss register of a line. -/
def findMiss (s : State) (line part : Nat) : Option Miss := s.grn.misses.find? fun m => m.line == line && m.part == part

/-- Changes a miss register. -/
def State.modMiss (s : State) (line part : Nat) (f : Miss → Miss) : State :=
  s.modGrn fun g => { g with misses := g.misses.map fun m => if m.line = line ∧ m.part = part then f m else m }

/-- Frees a miss register. -/
def State.dropMiss (s : State) (line part : Nat) : State :=
  s.modGrn fun g => { g with misses := g.misses.filter fun m => !(m.line == line && m.part == part) }

/-- Registers, and waiter records, that a partition may hold in a slice (R194). -/
def missLimit (s : State) (p : Nat) : Nat := 1024 * waysOf s p / 16
def waiterLimit (s : State) (p : Nat) : Nat := 8192 * waysOf s p / 16

/-- The partition has C0 set, so part of its pools is kept for tagged requests (R332). -/
def c0Part (s : State) (p : Nat) : Bool := (partDesc s p).any (·.c0)

/-- A waiter record is free for this request (R194, R332). -/
def waiterFree (s : State) (r : MemReq) : Bool :=
  let ms := missesOf s (homeSlice (lineAddr r.line)) r.part
  let all := sumN (ms.map fun m => m.waiters.length)
  let untagged := sumN (ms.map fun m => (m.waiters.filter fun w => w.req.deadline.isNone).length)
  decide (all < waiterLimit s r.part) &&
    (r.deadline.isSome || !c0Part s r.part || decide (untagged + 512 < waiterLimit s r.part))

/-- A miss register is free for this request (R194, R332). -/
def missFree (s : State) (r : MemReq) : Bool :=
  let ms := missesOf s (homeSlice (lineAddr r.line)) r.part
  decide (ms.length < missLimit s r.part) &&
    (r.deadline.isSome || !c0Part s r.part || decide ((ms.filter fun m => !m.tagged).length + 64 < missLimit s r.part))

/-- The bytes stored at the slice by the arrival of a waiter: the line's valid bytes and the miss register's (R197, R199). -/
def arrival (s : State) (line part : Nat) : BitVec 256 × List Byte :=
  let z := List.replicate 256 (0 : Byte)
  let (v, d) := match findLine s line part with
    | some l => (l.valid, l.data)
    | none => (0, z)
  match findMiss s line part with
  | some m => (v ||| m.mask, mergeBytes m.mask d m.data)
  | none => (v, d)

/-- Holds a read for want of a miss register or a waiter record (R196). -/
def holdPool (s : State) (r : MemReq) : State :=
  (s.modSlice (homeSlice (lineAddr r.line)) fun x => { x with poolFull := x.poolFull + 1 }).modGrn fun g =>
    { g with heldPool := g.heldPool ++ [r] }

/-- Joins a miss in flight as one more waiter (R193), or is held (R195, R196). A register whose fill was POISON answers so. -/
def joinMiss (s : State) (m : Miss) (r : MemReq) : State :=
  if m.bad then answerRead (channelFault s r.line r.step) r [] true
  else if 64 ≤ m.waiters.length then
    (s.modSlice (homeSlice (lineAddr r.line)) fun x => { x with mergeFull := x.mergeFull + 1 }).modGrn fun g =>
      { g with heldMerge := g.heldMerge ++ [r] }
  else if waiterFree s r then
    let a := arrival s r.line r.part
    s.modMiss r.line r.part fun m => { m with waiters := m.waiters ++ [{ req := r, mask := a.1, data := a.2 }],
                                              deadline := if m.issued then m.deadline else earlier s m.deadline r.deadline,
                                              dead := m.dead || r.last }
  else holdPool s r

/-- Takes a miss register and its stack read (R192, R315), or is held (R196, R318). -/
def takeMiss (s : State) (r : MemReq) : State :=
  let a := lineAddr r.line
  if missFree s r && waiterFree s r then
    let s := countTie s a r.part
    let win := winLookup s a r.part
    let cls := classOf s win a r.part
    let tracked := cls == clsNormal && !(win.any fun n => (vat s.grn.win n {}).detoff)
    let skip := tracked && streamBypass s a r.part
    let s := if tracked then trackMiss s a r.part else s
    let st := arrival s r.line r.part
    let m : Miss := { line := r.line, part := r.part, waiters := [{ req := r, mask := st.1, data := st.2 }], mask := 0,
                      data := List.replicate 256 0, dead := r.last, alloc := cls != clsDead && !skip, win := win,
                      issued := fits s r.master (groupOf a) 4 (c0Desc r), deadline := r.deadline, tagged := r.deadline.isSome,
                      master := r.master, cls := cls, fillData := none, bad := false, stores := [], steps := [] }
    (s.modGrn fun g => { g with misses := g.misses ++ [m] }).charge r.master (groupOf a) 4 (c0Desc r) (.miss r.line r.part)
  else holdPool s r

/-- A read that misses: a register in flight, or a new one. -/
def readMiss (s : State) (r : MemReq) : State := match findMiss s r.line r.part with
  | some m => joinMiss s m r
  | none => takeMiss s r

/-- Counts an error of a Granary line (R538). -/
def countGr (s : State) (e : GrEcc) : State :=
  s.modGln fun g => match e with
    | .clean => g
    | .single => { g with grCe := g.grCe + 1 }
    | .double => { g with grUe := g.grUe + 1 }

/-- The bursts of a line that hold a dirty byte, in whole. -/
def dirtyBursts (d : BitVec 256) : BitVec 256 :=
  (List.range 8).foldl (fun m b => if burstBits d b = 0 then m else m ||| burstMask b) 0

/-- The poison writes of a line with an uncorrectable error wait for their entry; the line's bytes are lost (R538, R241). -/
def linePoisoned (s : State) (line : Nat) : Bool := s.mem.wbWait.any fun w => w.evict && w.poisoned && w.line == line

/-- An uncorrectable error of a line: a clean line is invalidated; of a dirty one each burst that holds a dirty byte is written with the
poison syndrome, from the reserves of R316, once an entry is granted (R538, R241). -/
def lineError (s : State) (l : GLine) : State :=
  if l.dirty = 0 then s.dropLine l.line l.part
  else if linePoisoned s l.line then s
  else s.queueWrite { evictWait l 90 .nothing with mask := dirtyBursts l.dirty, poisoned := true } []

/-- What a dead hint does once its read is served (R206, R221, R222): it waits for a fill of the line that is in flight. -/
def deadHint (s : State) (line part : Nat) : State :=
  if (findMiss s line part).isSome then s.modMiss line part fun m => { m with dead := true } else killLine s line part

/-- A read that hits: the line answers, and a dead hint or a DEAD class kills it afterwards (R206, R221, R538). -/
def readHit (s : State) (l : GLine) (r : MemReq) (ecc : GrEcc) : State :=
  let s := countGr s ecc
  let dead := r.last || lineClass s l == clsDead
  if ecc = .double then
    let s := lineError s l
    if l.dirty = 0 then readMiss s r
    else (answerRead s r [] true).when dead fun s => recordKill s l.line l.part
  else
    let s := trackHit s (lineAddr l.line) l.part
    (answerRead (s.touch l.line l.part) r l.data false).when dead fun s => deadHint s l.line l.part

/-- A read of a line whose slice is out of service goes to the stack controller, and issues its own stack read (R231, R232); one that
exceeds the units left is held (R318). -/
def readDirect (s : State) (r : MemReq) : State :=
  let g := groupOf (lineAddr r.line)
  (s.modGrn fun x => { x with direct := x.direct ++ [{ req := r, issued := fits s r.master g 4 (c0Desc r) }] }).charge r.master g 4
    (c0Desc r) (.direct r.id)

/-- The bytes the request needs are valid in the line. -/
def lineCovers (l : GLine) (r : MemReq) : Bool := r.mask &&& l.valid == r.mask

/-- A read at its home slice past the detector: a hit or a miss. -/
def serveLookup (s : State) (r : MemReq) (ecc : GrEcc) : State := match findLine s r.line r.part with
  | some l =>
    if linePoisoned s r.line then answerRead s r [] true
    else if lineCovers l r then readHit s l r ecc else readMiss s r
  | none => readMiss s r

/-- The line of the request has no home slice in service (R231). A pseudo-channel that no partition owns has no ways anywhere (R190). -/
def noHome (s : State) (r : MemReq) : Bool := sliceOut s (homeSlice (lineAddr r.line)) || waysOf s r.part == 0

/-- A read at its home slice (R192, R231): the dead-read detector comes first (R227, R228). -/
def serveRead (s : State) (r0 : MemReq) (ecc : GrEcc) : State :=
  let (s, r) := demote s r0
  if noHome s r then readDirect s r
  else
    let k := wasKilled s r.line r.part
    let s := if k then noteDeadRead s r.line r.part else s
    match (if k then deadReadFault s r else none) with
    | some s' => s'
    | none => serveLookup s r ecc

/-! ## Fills (R197, R201, R222, R282) -/

/-- The order of R329 between two requests: tagged by deadline, then class, else arrival. -/
def before (s : State) (a b : MemReq) : Bool :=
  match a.deadline, b.deadline with
  | some x, some y => let n := s.beat % 2 ^ 24; decide ((x + 2 ^ 24 - n) % 2 ^ 24 < (y + 2 ^ 24 - n) % 2 ^ 24)
  | some _, none => true
  | none, some _ => false
  | none, none => decide (a.cls < b.cls)

/-- The request of a list that R329 serves first. -/
def firstReq (s : State) (rs : List MemReq) : Option MemReq :=
  rs.foldl (fun b r => match b with
    | none => some r
    | some x => if before s r x then some r else some x) none

/-- A read held under R196 finds what it needs: its line, or a waiter record, and a miss register where none is in flight. -/
def poolServes (s : State) (r : MemReq) : Bool :=
  noHome s r || ((findLine s r.line r.part).any fun l => lineCovers l r) ||
    match findMiss s r.line r.part with
    | some m => m.bad || decide (64 ≤ m.waiters.length) || waiterFree s r
    | none => missFree s r && waiterFree s r

/-- Serves the reads of a slice held under R196, in the order of R329, while one finds what it needs. -/
def retryPool (s : State) (n : Nat) : Nat → State
  | 0 => s
  | k + 1 =>
    match firstReq s (s.grn.heldPool.filter fun r => (homeSlice (lineAddr r.line)).val == n && poolServes s r) with
    | none => s
    | some r => retryPool (serveRead (s.modGrn fun g => { g with heldPool := g.heldPool.filter fun x => x.id != r.id }) r .clean) n k

/-- A read held under R195 once the fill is complete: served as a hit, with the line as it is now. -/
def serveMerged (data : Option (List Byte)) (s : State) (r0 : MemReq) : State := match data with
  | none => serveRead s r0 .clean
  | some d =>
    let (s, r) := demote s r0
    match (findLine s r.line r.part).filter fun l => lineCovers l r && !linePoisoned s r.line with
    | some l => readHit s l r .clean
    | none => (answerRead s r d false).when r.last fun s => recordKill s r.line r.part

/-- Serves the reads held behind a fill (R195), then those held for want of a register (R196). -/
def serveHeld (s : State) (line part : Nat) (data : Option (List Byte)) : State :=
  let mine := s.grn.heldMerge.filter fun r => r.line == line && r.part == part
  let s := s.modGrn fun g => { g with heldMerge := g.heldMerge.filter fun r => !(r.line == line && r.part == part) }
  let s := s.each mine (serveMerged data)
  retryPool s (homeSlice (lineAddr line)) s.grn.heldPool.length

/-- Answers the waiters of a register in the order they joined, each with the line as of its own arrival (R197). -/
def answerWaiters (s : State) (m : Miss) (data : List Byte) : State :=
  s.each m.waiters fun s w => answerRead s w.req (mergeBytes w.mask data w.data) false

/-- Every waiter receives POISON (R282, R676, R277). -/
def poisonWaiters (s : State) (m : Miss) : State :=
  s.each m.waiters fun s w => answerRead (channelFault s m.line w.req.step) w.req [] true

/-- The line a fill installs: the stack's bytes under the bytes stored since the miss (R197, R199). -/
def filledLine (m : Miss) (data : List Byte) : GLine :=
  { line := m.line, part := m.part, way := 0, data := mergeBytes m.mask data m.data, valid := BitVec.allOnes 256, dirty := m.mask,
    win := m.win, used := 0, inserted := 0 }

/-- A register whose waiters are answered keeps its line, or its stores, until a write-buffer entry is granted (R241); the waiter
records it frees serve reads that are held (R196). -/
def keepMiss (s : State) (m : Miss) (data : List Byte) : State :=
  let s := s.modMiss m.line m.part fun x => { x with waiters := [], fillData := some data }
  retryPool s (homeSlice (lineAddr m.line)) s.grn.heldPool.length

/-- The charges of the stores that a register keeps: each master's for its own bytes (R315, log 124). -/
def storeCharges (m : Miss) : List (Nat × Nat) :=
  m.stores.map fun e => (e.1, writeUnits e.2)

/-- The stores kept in a register that installs no line go to the stack, once an entry is granted (R199, R241, R315). -/
def forwardStores (s : State) (m : Miss) : State :=
  s.queueWrite { id := 0, x := chanOf (lineAddr m.line), line := m.line, mask := m.mask, data := m.data, poisoned := false,
                 evict := false, master := m.master, andThen := .fill m.line m.part } (storeCharges m)

/-- The register is freed, and what was held behind it is served. -/
def doneMiss (s : State) (m : Miss) (data : Option (List Byte)) : State :=
  serveHeld (s.dropMiss m.line m.part) m.line m.part data

/-- Ends a fill whose data stands: the waiters are answered, and the line is installed, merged, killed or left out (R197, R199,
R206, R222). -/
def finishFill (s : State) (m : Miss) (data : List Byte) : State :=
  let s := answerWaiters s m data
  let full := mergeBytes m.mask data m.data
  match findLine s m.line m.part with
  | some l =>
    let s := (s.modLine m.line m.part fun l => { l with data := mergeBytes l.valid data l.data, valid := BitVec.allOnes 256 }).touch
      m.line m.part
    let s := s.when m.dead fun s => killLine s m.line m.part
    doneMiss s m (some (mergeBytes l.valid data l.data))
  | none =>
    if m.dead then doneMiss (recordKill s m.line m.part) m (some full)
    else
      let out := fun (s : State) => if m.mask = 0 then doneMiss s m (some full) else forwardStores (keepMiss s m data) m
      if m.alloc then
        match findWay s (lineAddr m.line) m.part m.cls false with
        | none => out s
        | some none => doneMiss (s.installLine (filledLine m data) m.cls) m (some full)
        | some (some v) =>
          if v.dirty = 0 then doneMiss ((s.dropLine v.line v.part).installLine (filledLine m data) m.cls) m (some full)
          else (keepMiss s m data).evict v m.master (.fill m.line m.part)
      else out s

/-- Ends a fill with POISON (R282, R676, R277): every waiter receives it and no line is installed; a dead hint is recorded (R223), and
the stores kept in the register go to the stack. -/
def poisonFill (s : State) (m : Miss) : State :=
  let s := poisonWaiters s m
  let s := s.when m.dead fun s => recordKill s m.line m.part
  if m.mask = 0 ∨ m.dead = true then doneMiss s m none
  else forwardStores ((keepMiss s m []).modMiss m.line m.part fun x => { x with bad := true }) m

/-- A fill that arrives (R197): POISON for an uncorrectable line or a stack that answers so, else the data. -/
def fillArrives (s : State) (m : Miss) (found : List Burst) : State :=
  let bad := linePoisonAnswer s m.line
  let s := if bad then s else eccCount s m.line found
  if bad || lineBad s m.line found then poisonFill s m else finishFill s m (stackLine s m.line)

/-- The stack read of a request of R231 ends. -/
def directEnds (s : State) (d : Direct) (data : List Byte) (poison : Bool) : State :=
  let s := s.modGrn fun g => { g with direct := g.direct.filter fun e => e.req.id != d.req.id }
  answerRead (s.when poison fun s => channelFault s d.req.line d.req.step) d.req data poison

/-- The stack read of a request of R231 arrives (R232, R280 to R282). -/
def directArrives (s : State) (d : Direct) (found : List Burst) : State :=
  let bad := linePoisonAnswer s d.req.line
  let s := if bad then s else eccCount s d.req.line found
  directEnds s d (stackLine s d.req.line) (bad || lineBad s d.req.line found)

/-- The miss register, or the request of R231, whose stack read of a line is under way. -/
def readUnderWay (s : State) (line : Nat) : Option Miss := s.grn.misses.find? fun m => m.line == line && m.issued && m.fillData.isNone
def directUnderWay (s : State) (line : Nat) : Option Direct := s.grn.direct.find? fun d => d.req.line == line && d.issued

/-! ## Stores (R199, R200, R207, R231) -/

/-- A store that goes to the stack itself, charged to its master (R207, R231, R315). -/
def State.forward (s : State) (r : MemReq) (mask : BitVec 256) : State :=
  s.queueWrite { id := 0, x := chanOf (lineAddr r.line), line := r.line, mask := mask, data := r.data, poisoned := r.poisoned,
                 evict := false, master := r.master, andThen := .ack r } [(r.master, writeUnits mask)]

/-- A line that a store allocates without reading the stack (R199). -/
def storedLine (r : MemReq) (win : Option Nat) : GLine :=
  { line := r.line, part := r.part, way := 0, data := mergeBytes r.mask (List.replicate 256 0) r.data, valid := r.mask, dirty := r.mask,
    win := win, used := 0, inserted := 0 }

/-- A poisoned posted write: its bursts leave the line and go to the stack with the poison syndrome (R564). -/
def poisonedStore (s : State) (r : MemReq) : State :=
  let m := dirtyBursts r.mask
  (s.modLine r.line r.part fun l => { l with valid := l.valid &&& ~~~m, dirty := l.dirty &&& ~~~m }).forward r m

/-- A store into a cached line. -/
def storeHit (s : State) (r : MemReq) : State :=
  (s.modLine r.line r.part fun l =>
    { l with data := mergeBytes r.mask l.data r.data, valid := l.valid ||| r.mask, dirty := l.dirty ||| r.mask }).touch r.line r.part

/-- A store kept in a miss register, under its master (R199, R315). -/
def Miss.keepStore (m : Miss) (r : MemReq) : Miss :=
  { m with mask := m.mask ||| r.mask, data := mergeBytes r.mask m.data r.data,
           stores := match assoc m.stores r.master with
             | some v => assocSet m.stores r.master (v ||| r.mask)
             | none => assocSet m.stores r.master r.mask,
           steps := r.step.toList ++ m.steps.filter fun i => r.step != some i }

/-- A store that finds neither its line nor a miss in flight (R199, R207). One to a failed pseudo-channel goes to the stack, which
discards it, so that its step is told (R277, log 125). -/
def storeMiss (s : State) (r : MemReq) : State :=
  let a := lineAddr r.line
  let s := countTie s a r.part
  let win := winLookup s a r.part
  let cls := classOf s win a r.part
  if cls = clsDead ∨ chanFailed s (chanOf a) = true then s.forward r r.mask
  else
    match findWay s a r.part cls true with
    | none => s.forward r r.mask
    | some none => ackStore (s.installLine (storedLine r win) cls) r false
    | some (some v) =>
      if v.dirty = 0 then ackStore ((s.dropLine v.line v.part).installLine (storedLine r win) cls) r false
      else s.evict v r.master (.store r)

/-- A store at its home slice. -/
def serveStore (s : State) (r0 : MemReq) : State :=
  let (s, r) := demote s r0
  if noHome s r then s.forward r r.mask
  else
    let s := unkill s r.line r.part
    if r.poisoned then poisonedStore s r
    else if linePoisoned s r.line then s.forward r r.mask
    else
      match findLine s r.line r.part with
      | some _ => ackStore (storeHit s r) r false
      | none =>
        match findMiss s r.line r.part with
        | some _ => ackStore (s.modMiss r.line r.part fun m => m.keepStore r) r false
        | none => storeMiss s r

/-! ## Write-buffer grants (R241, R201, R271, R285, R304) -/

/-- Entries of a write buffer (R271). -/
def wbEntries : Nat := 64

/-- What the slice holds of a line takes the bytes of a store that has reached the stack itself (R175). -/
def mergeHome (s : State) (r : MemReq) : State :=
  if r.poisoned then s
  else
    (s.modLine r.line r.part fun l => { l with data := mergeBytes r.mask l.data r.data, valid := l.valid ||| r.mask }).modMiss r.line r.part
      fun m => { m with fillData := m.fillData.map fun d => if d.isEmpty then d else mergeBytes r.mask d r.data }

/-- What follows a granted write. -/
def afterGrant (s : State) (w : WbWait) : State :=
  match w.andThen with
  | .nothing => s
  | .ack r => ackStore (mergeHome (channelFault s r.line r.step) r) r (chanFailed s (chanOf (lineAddr r.line)))
  | .store r => serveStore s r
  | .fill line part =>
    match findMiss s line part with
    | none => s
    | some m =>
      match m.fillData with
      | none => s
      | some d =>
        if w.evict then finishFill s m d
        else
          let s := s.each m.steps fun s i => channelFault s line (some i)
          if m.bad then doneMiss (poisonWaiters s m) m none
          else doneMiss (answerWaiters s m d) m (some (mergeBytes m.mask d m.data))

/-- The bytes of a granted write: an eviction's as its line stands, kept stores as their register stands. -/
def wbBytes (s : State) (w : WbWait) : Option (BitVec 256 × List Byte) :=
  if w.evict then (s.grn.lines.find? fun l => l.line == w.line).map fun l => (if w.poisoned then w.mask else l.dirty, l.data)
  else match w.andThen with
    | .fill line part => (findMiss s line part).map fun m => (m.mask, m.data)
    | _ => some (w.mask, w.data)

/-- The entry is granted and drains: the bytes go to the stack, an eviction's victim leaves its way. -/
def drainWrite (s : State) (w : WbWait) (found : List Burst) : State :=
  let s := (wbBytes s w).elim s fun b => mergeLine s w.line b.1 b.2 w.poisoned found
  afterGrant (if w.evict then s.modGrn fun g => { g with lines := g.lines.filter fun l => l.line != w.line } else s) w

/-- The entry is granted (R241): while the stack is tripped the write keeps it (R304), and is acknowledged (R200). -/
def grantWrite (s : State) (w : WbWait) (found : List Burst) : State :=
  let s := s.modMem fun m => { m with wbWait := m.wbWait.filter fun v => v.id != w.id }
  if stackTripped s (w.x / 64) then afterGrant (s.modMem fun m => { m with wbuf := m.wbuf ++ [w] }) w else drainWrite s w found

/-- The write of a store that goes to the stack itself. -/
def WbWait.isStore (w : WbWait) : Bool := match w.andThen with
  | .ack _ => true
  | _ => false

/-- The oldest write of a pseudo-channel that may take an entry now: none that R318 holds; while its stack is tripped no eviction
(R305), and stores only while the buffer has an entry (R271). -/
def nextWrite (s : State) (x : Nat) : Option WbWait :=
  let free := decide ((s.mem.wbuf.filter fun w => w.x == x).length < wbEntries)
  s.mem.wbWait.find? fun w => w.x == x && !writeHeld s w.id && (!stackTripped s (x / 64) || (w.isStore && free))

/-- The write buffers of a stack that has returned drain (R304). -/
def drainBuffers (s : State) (t : Nat) : State :=
  let mine := s.mem.wbuf.filter fun w => w.x / 64 == t
  (s.modMem fun m => { m with wbuf := m.wbuf.filter fun w => w.x / 64 != t }).each mine fun s w => mergeLine s w.line w.mask w.data w.poisoned []

/-- Bytes of a line that leave the slices at once, when a slice or the package goes out of service: the stack takes them, or its write
buffer does while it is tripped (R304, R305). -/
def State.flush (s : State) (line : Nat) (mask : BitVec 256) (data : List Byte) (poisoned : Bool) : State :=
  if mask = 0 then s
  else if stackTripped s (stackOf (lineAddr line)) then s.modMem fun m => { m with wbuf := m.wbuf ++
    [{ id := 0, x := chanOf (lineAddr line), line := line, mask := mask, data := data, poisoned := poisoned, evict := false, master := 90,
       andThen := .nothing }] }
  else mergeLine s line mask data poisoned []

/-! ## The value of a byte (R175) -/

/-- The byte every reader of the package sees at a device address (R175): what the slices hold, else what the stack holds. -/
def devByte (s : State) (a : Nat) : Byte :=
  let line := a / 256
  let miss := s.grn.misses.find? fun m => m.line == line && m.mask.getLsbD (a % 256)
  match s.grn.lines.find? fun l => l.line == line && l.valid.getLsbD (a % 256) with
  | some l => (l.data[a % 256]?).getD 0
  | none =>
    match miss with
    | some m => (m.data[a % 256]?).getD 0
    | none => stackByte s a

/-- The bytes every reader of the package sees from a device address on. -/
def devRead (s : State) (a n : Nat) : List Byte := (List.range n).map fun i => devByte s (a + i)

/-- The lines that hold `n` bytes from an address. -/
def linesOf (a n : Nat) : List Nat := if n = 0 then [] else (List.range ((a + n - 1) / 256 + 1 - a / 256)).map (a / 256 + ·)

/-- Every byte of a range lies in device memory and in pseudo-channels of the partition (R269, R340): the code of the first check
that fails. -/
def rangeCode (s : State) (p a n : Nat) : Option Code :=
  if n = 0 then none
  else if devTop < a + n then some .deviceRange
  else if (List.range (chanOf (a + n - 1) + 1 - chanOf a)).all fun i => ownsChan s p (chanOf a + i) then none
  else some .partRange

/-! ## Engines (R188): jobs, and the accesses they make -/

/-- The partition a request at a device address carries (R188): the owner of its pseudo-channel, or 255 for none. -/
def addrPart (s : State) (a : Nat) : Nat := (chanPart s (chanOf a)).getD 255

/-- What an access gives: its bytes, the code of the first line that fails, and how many bytes come before it. -/
structure EngGot where
  bytes : List Byte
  code : Option Code
  good : Nat
  deriving DecidableEq, Repr

/-- What an access that is answered in full gives for a range. -/
def EngRec.gives (e : EngRec) (a n : Nat) : EngGot :=
  let line := fun l => e.got.find? fun g => g.1 == l
  let bad := (linesOf a n).find? fun l => (line l).any fun g => g.2.2.isSome
  { bytes := (List.range n).map fun i => (((line ((a + i) / 256)).bind fun g => g.2.1[(a + i) % 256]?)).getD 0,
    code := bad.bind fun l => (line l).bind (·.2.2), good := bad.elim n fun l => 256 * l - a }

/-- What an access that has no answer yet gives: the run that asks is given up. -/
def EngGot.none (n : Nat) : EngGot := { bytes := List.replicate n 0, code := Option.none, good := n }

/-- The next access of the run that is being tried: what the slices gave, or the note that it has no answer yet. -/
def State.access (s : State) (who : Who) (a n : Nat) (bytes : Option (List Byte)) : State × EngGot :=
  match s.grn.run with
  | none => (s, EngGot.none n)
  | some r =>
    let next := fun (m : Option EngAcc) => s.modGrn fun g => { g with run := some { r with n := r.n + 1, miss := m } }
    match s.grn.recs.find? fun e => e.job == r.job && e.n == r.n && e.left.isEmpty with
    | some e => (next r.miss, e.gives a n)
    | none => (next (r.miss.orElse fun _ => some { n := r.n, who := who, addr := a, len := n, bytes := bytes }), EngGot.none n)

/-- A job reads device bytes. -/
def State.rd (s : State) (who : Who) (a n : Nat) : State × EngGot := s.access who a n none

/-- A job writes device bytes: the code of a line whose write is lost (R277). -/
def State.wr (s : State) (who : Who) (a : Nat) (bs : List Byte) : State × EngGot := s.access who a bs.length (some bs)

/-- The request of an access for one line (R188). -/
def EngAcc.request (acc : EngAcc) (s : State) (job line : Nat) : MemReq :=
  let lo := max acc.addr (256 * line)
  let hi := min (acc.addr + acc.len) (256 * line + 256)
  let o := lo - 256 * line
  { id := s.nextId, line := line, part := addrPart s (lineAddr line), master := acc.who.master, cls := acc.who.cls,
    deadline := acc.who.deadline, last := false, write := acc.bytes.isSome, mask := maskRange o (hi - lo),
    data := match acc.bytes with
      | some bs => List.replicate o 0 ++ slice bs (lo - acc.addr) (hi - lo) ++ List.replicate (256 - o - (hi - lo)) 0
      | none => [],
    poisoned := false, die := none, step := acc.who.step, src := .engine job acc.n }

/-- An access is made: each of its lines is read or written at its home slice. One that was made before waits. -/
def makeAccess (s : State) (job : Nat) (acc : EngAcc) : State :=
  if s.grn.recs.any fun e => e.job == job && e.n == acc.n then s
  else
    let ls := linesOf acc.addr acc.len
    (s.modGrn fun g => { g with recs := g.recs ++ [{ job := job, n := acc.n, left := ls, got := [] }] }).each ls fun s l =>
      if acc.bytes.isSome then serveStore s.fresh (acc.request s job l) else serveRead s.fresh (acc.request s job l) .clean

/-- Every line of an access has answered. -/
def answered (s : State) (job n : Nat) : Bool := s.grn.recs.any fun e => e.job == job && e.n == n && e.left.isEmpty

/-- A job is over. -/
def State.jobOver (s : State) (job : Nat) : State :=
  s.modGrn fun g => { g with run := none, jobs := g.jobs.filter (fun e => e.1 != job), recs := g.recs.filter fun e => e.job != job }

/-- Tries a job: it runs in one go once each of its accesses has an answer; before that it only makes the first one that has none, and
goes on from there when a slice answers at once. -/
def tryJob (job : Nat) (f : State → State) : Nat → State → State
  | 0, s => s
  | k + 1, s =>
    let t := f (s.modGrn fun g => { g with run := some { job := job, n := 0, miss := none } })
    match t.grn.run.bind (·.miss) with
    | none => t.jobOver job
    | some acc =>
      let s := makeAccess s job acc
      if answered s job acc.n then tryJob job f k s else s

/-- An engine takes a job. -/
def State.post (s : State) (j : EngJob) : State := s.fresh.modGrn fun g => { g with jobs := g.jobs ++ [(s.nextId, j)] }

/-- An engine takes a job that it does not have yet. -/
def State.postOnce (s : State) (j : EngJob) : State := if s.grn.jobs.any fun e => e.2 == j then s else s.post j

/-- Jobs that are given up: what their accesses still bring is dropped. The job whose run is being tried ends by itself. -/
def State.dropJobs (s : State) (p : EngJob → Bool) : State :=
  let gone := fun (j : Nat) => s.grn.run.all (·.job != j) && s.grn.jobs.any fun e => e.1 == j && p e.2
  s.modGrn fun g => { g with jobs := g.jobs.filter (fun e => !gone e.1), recs := g.recs.filter fun e => !gone e.job }

/-- The step that a job belongs to. -/
def EngJob.step (j : EngJob) : Option Nat := match j with
  | .action i _ _ _ => some i
  | .view i _ _ => some i
  | .hostPage i _ _ _ => some i
  | _ => none

/-- The slot of the walk that a job belongs to. -/
def EngJob.walk (j : EngJob) : Option Nat := match j with
  | .walkRequest n => some n
  | .walkNode n => some n
  | .walkDone n => some n
  | _ => none

/-- Some of the walks are over: their slots are free, and their jobs are given up. -/
def State.dropWalks (s : State) (p : Walk → Bool) : State :=
  let gone := (s.srv.walks.filter p).map (·.slot)
  (s.dropJobs fun j => j.walk.any fun n => gone.contains n).modSrv fun x => { x with walks := x.walks.filter fun w => !p w }

/-- Accesses that a job may go on making in one command. -/
def engFuel : Nat := 65536

end Sys2Proof.Machine
end

