-- ==== Sys2Proof/Machine/Operands.lean ====
section
/-! DEFINITION. The instruction word of a tile: its fields (Table 4-5), its operand forms (Table 4-3), what makes it illegal (R150),
its costs (R147, R161), and when a group issues (R136, R137). -/

namespace Sys2Proof.Machine

/-! ## Fields (Table 4-5) -/

def fCls (w : Nat) : Nat := bitsOf w 63 60
def fOp (w : Nat) : Nat := bitsOf w 59 52
def fNeg (w : Nat) : Bool := bitOf w 51
def fPred (w : Nat) : Nat := bitsOf w 50 48
def fDst (w : Nat) : Nat := bitsOf w 47 40
def fA (w : Nat) : Nat := bitsOf w 39 32
def fB (w : Nat) : Nat := bitsOf w 31 24
def fC (w : Nat) : Nat := bitsOf w 23 16
def fKslot (w : Nat) : Nat := bitsOf w 15 13
def fKsel (w : Nat) : Nat := bitsOf w 12 11
def fKeep (w : Nat) : Bool := bitOf w 10
def fCx (w : Nat) : Nat := bitsOf w 9 0

/-- PDST of the ALU class (Table 4-6). -/
def fPdst (w : Nat) : Bool := bitOf w 9
/-- IMMB of the ALU class. -/
def fImmB (w : Nat) : Bool := bitOf w 8
/-- Bytes per lane of a LOCAL or DEVICE access; none for the reserved code. -/
def fSize (w : Nat) : Option Nat :=
  match bitsOf w 9 8 with
  | 0 => some 4
  | 1 => some 8
  | 2 => some 16
  | _ => none
/-- LAST of the DEVICE class. -/
def fLast (w : Nat) : Bool := bitOf w 7
/-- DL of the DEVICE class. -/
def fDl (w : Nat) : Bool := bitOf w 6
/-- ACC of the MXE class. -/
def fAcc (w : Nat) : Nat := bitsOf w 9 7
/-- FMT of the MXE class. -/
def fFmt (w : Nat) : Nat := bitsOf w 6 4
/-- ZERO of the MXE class. -/
def fZero (w : Nat) : Bool := bitOf w 3
/-- INDIRECT of the TOKEN class. -/
def fIndirect (w : Nat) : Bool := bitOf w 9

/-! ## Operands (Table 4-3) -/

/-- The value of an operand code in a lane; BEAT is the low half of the beat number at issue. -/
def Group.operand (g : Group) (tile slot beat lane code : Nat) : W32 :=
  if code < 0x80 then mget 0 g.regs (32 * code + lane)
  else if code < 0x86 then mget 0 g.rc (32 * (code - 0x80) + lane)
  else if code = 0xF0 then BitVec.ofNat 32 lane
  else if code = 0xF1 then BitVec.ofNat 32 slot
  else if code = 0xF2 then BitVec.ofNat 32 (tile % 16)
  else if code = 0xF3 then BitVec.ofNat 32 (sheafOf tile)
  else if code = 0xF4 then BitVec.ofNat 32 beat
  else 0

/-- The code may be a source. -/
def srcOk (code : Nat) : Bool := decide (code < 0x86) || (decide (0xF0 ≤ code) && decide (code ≤ 0xF4)) || code == 0xFF

/-- The predicate of an instruction, lane by lane (R138; p7 reads 1). -/
def Group.predMask (g : Group) (w : Nat) : W32 :=
  let m := if fPred w = 7 then BitVec.allOnes 32 else (g.preds[fPred w]?).getD 0
  if fNeg w then ~~~m else m

/-- The lanes in which an instruction executes (R138). -/
def Group.active (g : Group) (w : Nat) : W32 := g.exec &&& g.predMask w

/-- The code of the w-th register of a value wider than a register: the next code of the same file, else ZERO. -/
def regNth (code w : Nat) : Nat :=
  if w = 0 then code
  else if code < 0x80 then (if code + w < 0x80 then code + w else 0xFF)
  else if code < 0x86 then (if code + w < 0x86 then code + w else 0xFF)
  else 0xFF

/-- The code of the field that KSEL selects. -/
def keepCode (w : Nat) : Nat := if fKsel w = 1 then fA w else if fKsel w = 2 then fB w else fC w

/-- The immediate that KSEL selects, where Table 4-6 makes its field one: SRC_B under IMMB, the offset of an access, half of a branch
offset (log 120). -/
def keepImm (w : Nat) : Option W32 :=
  if fCls w = 0 ∧ fKsel w = 2 ∧ fImmB w = true then some (BitVec.ofNat 32 (fB w))
  else if (fCls w = 2 ∨ fCls w = 3) ∧ fKsel w = 3 then some (BitVec.ofInt 32 (toSigned 8 (fC w)))
  else if fCls w = 6 ∧ 2 ≤ fKsel w then some (BitVec.ofNat 32 (keepCode w))
  else none

/-- What KEEP copies, when it copies a source (R145). -/
def Group.keepSource (g : Group) (w tile slot beat lane : Nat) : W32 := (keepImm w).getD (g.operand tile slot beat lane (keepCode w))

/-- The operand that KEEP reads: none where it copies nothing, the result or an immediate. -/
def keepReads (w : Nat) : List Nat := if fKeep w && fKsel w != 0 && (keepImm w).isNone then [keepCode w] else []

/-- The entry that KEEP copies the result of an instruction into. -/
def keepResult (w : Nat) : Option Nat := if fKeep w && fKsel w == 0 then some (fKslot w) else none

/-- Applies KEEP in the active lanes: a source, or the result where there is one (R145). -/
def Group.applyKeep (g : Group) (w tile slot beat cycle : Nat) (result : Option (Nat → W32)) : Group :=
  if fKeep w then
    let code := 0x80 + fKslot w
    let g' := (lanesOf (g.active w)).foldl (fun (h : Group) l =>
      if fKsel w = 0 then (match result with
        | some r => h.writeDst code l (r l)
        | none => h)
      else h.writeDst code l (g.keepSource w tile slot beat l)) g
    g'.setReady code cycle
  else g

/-! ## Legality (R150) -/

/-- The fields every instruction shares are legal. -/
def commonOk (w : Nat) : Bool := decide (fCls w < 8) && decide (fKslot w < 6) && (keepReads w).all srcOk

/-- A word of class ALU is legal. -/
def aluOk (w : Nat) : Bool :=
  commonOk w && bitsOf w 7 0 == 0 && (fPdst w || dstOk (fDst w)) && srcOk (fA w) && (fImmB w || srcOk (fB w)) && srcOk (fC w)

/-- A word of class CONVERT is legal. -/
def convertOk (w : Nat) : Bool := commonOk w && bitsOf w 0 0 == 0 && dstOk (fDst w) && srcOk (fA w)

/-- A word of class CONTROL is legal. -/
def controlOk (w : Nat) (k : ControlKind) : Bool :=
  commonOk w && bitsOf w 7 0 == 0 &&
    match k with
    | .branch => true
    | .setExec => true
    | .saveExec => dstOk (fDst w)
    | .restoreExec => srcOk (fA w)

/-- A word of class MXE is legal. -/
def mxeOk (w : Nat) : Bool := commonOk w && bitsOf w 2 0 == 0 && srcOk (fA w) && srcOk (fB w) && srcOk (fC w)

/-- A word of class LOCAL is legal. -/
def localOk (w : Nat) (store : Bool) : Bool :=
  commonOk w && bitsOf w 7 0 == 0 && (fSize w).isSome && srcOk (fA w) && (if store then srcOk (fB w) else dstOk (fDst w))

/-- A word of class DEVICE is legal: its address is an even main register. -/
def deviceOk (w : Nat) (store : Bool) : Bool :=
  commonOk w && bitsOf w 5 0 == 0 && (fSize w).isSome && decide (fA w < 0x80) && fA w % 2 == 0 &&
    (if store then srcOk (fB w) else dstOk (fDst w))

/-- A word of class FENCE is legal. -/
def fenceOk (w : Nat) : Bool := commonOk w && fCx w == 0 && decide (fOp w < 2)

/-- A word of class TOKEN is legal. -/
def tokenOk (w : Nat) : Bool :=
  commonOk w && bitsOf w 8 6 == 0 && decide (fOp w < 3) && dstOk (fDst w) && (!fIndirect w || srcOk (fA w)) &&
    (fOp w != 1 || srcOk (fB w))

/-! ## Costs (R147, R161) -/

/-- Extra issue cycles of main-file sources (Table 4-4). -/
def readCost (codes : List Nat) : Nat :=
  let banks := (codes.filter fun c => decide (c < 0x80)).map (· % 4)
  match banks with
  | [a, b] => if a = b then 1 else 0
  | [a, b, c] => if a = b ∨ a = c ∨ b = c then 2 else 1
  | _ => 0

/-- Issue cycles of a LOCAL access (R161, R162): the most distinct rows asked of one bank, and 256 bytes per cycle to other tiles. -/
def bankCost (tile size : Nat) (as : List (Nat × Nat)) : Nat :=
  let rows := (as.map fun e => (e.1, e.2 / 16 % 32, e.2 / 512)).eraseDups
  let cost := maxN (rows.map fun r => (rows.filter fun q => q.1 == r.1 && q.2.1 == r.2.1).length)
  let far := size * (as.filter fun e => e.1 != tile).length
  max 1 (max cost ((far + 255) / 256))

/-! ## Issue (R136, R137) -/

/-- The instruction word at a group's pc, where its line is in the instruction cache. -/
def fetchWord (s : State) (tile : Nat) (g : Group) : Option Nat :=
  (assoc s.tile.icache (2 ^ 40 * tile + g.codeBase / 8 + g.pc)).map (·.toNat)

/-- What an instruction is, as far as the command that issues it tells: the OP codes are not given (log 12). `any` stands for an
instruction of which no command has told. -/
inductive OpUse where
  | any | load | store | mma | mxeSt | plain | operandA
  deriving DecidableEq, Repr

/-- Registers of a store's data. -/
def dataCodes (w : Nat) : List Nat := (List.range ((fSize w).getD 4 / 4)).map (regNth (fB w))

/-- The scales of an MXE instruction, where its format has them. -/
def scaleCodes (w : Nat) : List Nat := if 5 ≤ fFmt w then [fC w] else []

/-- The source codes whose latency an instruction waits for (R137), those of KEEP with them. -/
def sourceCodes (w : Nat) (u : OpUse) : List Nat :=
  let data := if u = .load then [] else dataCodes w
  keepReads w ++ match fCls w with
  | 0 => if fImmB w then [fA w, fC w] else [fA w, fB w, fC w]
  | 1 => (if u = .mxeSt then [fA w] else [fA w, fB w]) ++ scaleCodes w
  | 2 => fA w :: data
  | 3 => fA w :: (fA w + 1) :: data
  | 5 => (if fIndirect w then [fA w] else []) ++ (if fOp w = 1 then [fB w] else [])
  | 6 => if u = .any ∨ u = .operandA then [fA w] else []
  | 7 => [fA w]
  | _ => []

/-- An access to memory, which waits for an earlier token instruction (R176). -/
def isMemory (w : Nat) : Bool := fCls w == 1 || fCls w == 2 || fCls w == 3

/-- Response slots of 64 bytes that a tile has in use at a cycle: its loads', and those of its token requests (R240). -/
def slotsUsed (s : State) (tile cycle : Nat) : Nat :=
  sumN ((s.tile.loads.filter fun l => l.tile == tile).map (·.slots)) +
    (s.tile.tokenOut.filter fun e => e.1 == tile && decide (cycle < e.2)).length +
    (s.tile.tokenWait.filter fun w => w.tile == tile).length

/-- Response slots that an instruction reserves. -/
def slotsNeeded (g : Group) (w : Nat) (u : OpUse) : Nat := match fCls w with
  | 3 => if u = .store then 0 else ((lanesOf (g.active w)).length * (fSize w).getD 4 + 63) / 64
  | 5 => 1
  | _ => 0

/-- The unit that an instruction needs is free: the matrix engine, response slots (R137, R156, R240). -/
def unitFree (s : State) (tile cycle : Nat) (g : Group) (w : Nat) (u : OpUse) : Bool :=
  (fCls w != 1 || decide (mget 0 s.tile.mxeFree tile ≤ cycle)) &&
    (slotsNeeded g w u == 0 || decide (slotsUsed s tile cycle + slotsNeeded g w u ≤ 64))

/-- The sources of an instruction have reached their latency; p7 is never waited for (R137, R140). -/
def sourcesReady (g : Group) (w cycle : Nat) (u : OpUse) : Bool :=
  (sourceCodes w u).all (fun c => decide (mget 0 g.ready c ≤ cycle)) && (fPred w == 7 || decide (mget 0 g.predReady (fPred w) ≤ cycle)) &&
    (!isMemory w || decide (g.memReady ≤ cycle))

/-- The group's next instruction, when the group is ready at the cycle (R137, R140, R156, R176). -/
def readyWord (s : State) (tile slot cycle : Nat) (u : OpUse) : Option Nat :=
  match getGroup s tile slot with
  | none => none
  | some g =>
    match fetchWord s tile g with
    | none => none
    | some w =>
      if g.hold = .none ∧ g.resumeAt ≤ cycle ∧ (sourcesReady g w cycle u && unitFree s tile cycle g w u) = true then some w else none

/-- The slots before one in the order of issue: after the slot that issued last, modulo 8 (R136). -/
def slotsBefore (s : State) (tile slot : Nat) : List Nat :=
  ((List.range 8).map fun k => (mget 7 s.tile.lastSlot tile + 1 + k) % 8).takeWhile (· != slot)

/-- The slot issues in a cycle: it is ready, and no slot before it is, whatever its instruction is (R136). -/
def issues (s : State) (tile slot cycle : Nat) (u : OpUse) : Bool :=
  decide (mget 0 s.tile.nextIssue tile ≤ cycle) && (readyWord s tile slot cycle u).isSome &&
    (slotsBefore s tile slot).all fun i => (readyWord s tile i cycle .any).isNone

/-- The group and word that issue, when this slot is the one that issues an instruction of this class now. A word of a reserved
class issues as class ALU, which raises ILLEGAL_INSTR (R150). -/
def issuing (s : State) (tile slot cycle cls : Nat) (u : OpUse) : Option (Group × Nat) :=
  if issues s tile slot cycle u then
    match getGroup s tile slot, readyWord s tile slot cycle u with
    | some g, some w => if fCls w = cls ∨ (cls = 0 ∧ 8 ≤ fCls w) then some (g, w) else none
    | _, _ => none
  else none

/-- The instruction at a group's pc lies in its CODE image. -/
def inImage (s : State) (g : Group) : Bool :=
  s.str.any fun t => t.codes.any fun c => c.addr == g.codeBase && decide (8 * g.pc + 8 ≤ c.image.length)

/-- A group fetches its next instruction (R141): a fetch from a line that was not preloaded counts and holds the group. -/
def State.fetch (s : State) (tile slot : Nat) : State :=
  match getGroup s tile slot with
  | none => s
  | some g =>
    if g.fetching || (fetchWord s tile g).isSome || !inImage s g then s
    else (s.modGroup tile slot fun g => { g with fetching := true }).modTile fun t =>
      { t with fetchMiss := vmodN t.fetchMiss (sheafOf tile) (· + 1) }

/-- The fetches of a tile's groups that lines brought meanwhile answer. -/
def State.fetched (s : State) (tile : Nat) : State :=
  s.each (List.range 8) fun s i => match getGroup s tile i with
    | none => s
    | some g => if g.fetching && (fetchWord s tile g).isSome then s.modGroup tile i fun g => { g with fetching := false } else s

/-- The tile has issued from a slot and is busy for some cycles. -/
def State.issued (s : State) (tile slot cycle cost : Nat) : State :=
  s.modTile fun t => { t with lastSlot := mset 7 t.lastSlot tile slot, nextIssue := mset 0 t.nextIssue tile (cycle + cost) }

/-- The group goes on to its next instruction. -/
def Group.advance (g : Group) : Group := { g with pc := g.pc + 1 }

/-- The tile issues and the group faults (R152). -/
def faultAt (s : State) (tile slot cycle : Nat) (c : Code) : State :=
  (s.issued tile slot cycle 1).groupFault tile slot c ((getGroup s tile slot).elim 0 (·.pc)) (some cycle)

/-- A cycle no result reaches: the consumer waits for a load (R140). -/
def never : Nat := 2 ^ 64

/-! ## Addresses of lanes -/

/-- The signed 8-bit offset of SRC_C in bytes. -/
def offsetOf (w size : Nat) : Int := toSigned 8 (fC w) * size

/-- The local address of a lane. -/
def localAddr (g : Group) (w tile slot beat size lane : Nat) : Nat :=
  (((g.operand tile slot beat lane (fA w)).toNat + offsetOf w size) % (2 ^ 32 : Nat)).toNat

/-- The device address of a lane: an even register pair (R149). -/
def deviceAddr (g : Group) (w tile slot beat size lane : Nat) : Nat :=
  ((((g.operand tile slot beat lane (fA w)).toNat + 2 ^ 32 * (g.operand tile slot beat lane (fA w + 1)).toNat : Nat) + offsetOf w size) %
    (2 ^ 64 : Nat)).toNat

/-- The code of the first lane access that fails a LOCAL check (R158, R160). -/
def localCheck (tile size : Nat) (as : List Nat) : Option Code :=
  as.findSome? fun a => if a % size ≠ 0 then some .misaligned else if (localTarget tile a).isNone then some .localRange else none

/-- The code of the first lane access that fails a DEVICE check (R160, R269, R340). -/
def deviceCheck (s : State) (part size : Nat) (as : List Nat) : Option Code :=
  as.findSome? fun a => if a % size ≠ 0 then some .misaligned else rangeCode s part a size

/-- The bytes of a lane's store data. -/
def storeBytes (g : Group) (w tile slot beat size lane : Nat) : List Byte :=
  (List.range (size / 4)).flatMap fun k => leBytes 4 (g.operand tile slot beat lane (regNth (fB w) k)).toNat

/-- Writes a lane's loaded bytes to its destination registers. -/
def Group.writeLoad (g : Group) (code lane : Nat) (bs : List Byte) : Group :=
  (List.range (bs.length / 4)).foldl (fun (g : Group) k =>
    g.writeDst (regNth code k) lane (BitVec.ofNat 32 (fieldAt bs (4 * k) 4))) g

/-- The registers of a load's destination are ready from a cycle on. -/
def Group.readyLoad (g : Group) (code size cycle : Nat) : Group :=
  (List.range (size / 4)).foldl (fun (g : Group) k => g.setReady (regNth code k) cycle) g

end Sys2Proof.Machine
end

