-- ==== Sys2Proof/Machine/TilesCompute.lean ====
section
/-! DEFINITION. The meanings of the ALU, CONVERT, CONTROL and MXE instructions, of LOCAL and DEVICE accesses (04). -/

namespace Sys2Proof.Machine

/-- The latency of ALU and CONVERT results (Table 4-2). -/
def aluLatency : Nat := 4

/-- Changes the group and retires its instruction at a cost in issue cycles; the next one is fetched. -/
def State.retire (s : State) (tile slot cycle cost : Nat) (f : Group → Group) : State :=
  ((s.issued tile slot cycle cost).modGroup tile slot fun g => (f g).advance).fetch tile slot

/-! ## ALU and CONVERT -/

/-- The second source of an ALU instruction: a register, or the unsigned immediate of IMMB (Table 4-6). -/
def aluB (g : Group) (w tile slot beat lane : Nat) : W32 :=
  if fImmB w then BitVec.ofNat 32 (fB w) else g.operand tile slot beat lane (fB w)

/-- The result of an ALU instruction in a lane. -/
def aluLane (g : Group) (w tile slot beat lane : Nat) : W32 :=
  Config.aluResult (BitVec.ofNat 8 (fOp w)) (g.operand tile slot beat lane (fA w)) (aluB g w tile slot beat lane)
    (g.operand tile slot beat lane (fC w))

/-- The predicate bit of an ALU compare in a lane. -/
def aluLanePred (g : Group) (w tile slot beat lane : Nat) : Bool :=
  Config.aluPred (BitVec.ofNat 8 (fOp w)) (g.operand tile slot beat lane (fA w)) (aluB g w tile slot beat lane)
    (g.operand tile slot beat lane (fC w))

/-- A predicate register after a compare: active lanes take the new bits (R138); p7 takes none. -/
def setPred (preds : List W32) (p : Nat) (act : W32) (bit : Nat → Bool) : List W32 :=
  if p < 7 then
    let old := (preds[p]?).getD 0
    let new := (lanesOf act).foldl (fun (m : W32) l => if bit l then m ||| BitVec.ofNat 32 (2 ^ l) else m) (old &&& ~~~act)
    (preds ++ List.replicate (7 - preds.length) 0).set p new
  else preds

/-- Writes a per-lane result to the destination in the active lanes (R138). -/
def Group.writeLanes (g : Group) (code : Nat) (act : W32) (r : Nat → W32) : Group :=
  (lanesOf act).foldl (fun (h : Group) l => h.writeDst code l (r l)) g

/-- Adds the entry that KEEP writes to a group that already has the instruction's own result. -/
def Group.keepFrom (g kept : Group) (w cycle : Nat) : Group :=
  if fKeep w then ({ g with rc := (g.rc.filter fun e => decide (e.1 / 32 < fKslot w)) ++
      (kept.rc.filter fun e => e.1 / 32 == fKslot w) ++ g.rc.filter fun e => decide (fKslot w < e.1 / 32) } : Group).setReady
    (0x80 + fKslot w) cycle
  else g

/-- The effect of an ALU instruction on its group. -/
def aluEffect (g : Group) (w tile slot beat cycle : Nat) : Group :=
  let act := g.active w
  let r := aluLane g w tile slot beat
  let g' := if fPdst w then
      { g with preds := setPred g.preds (fDst w % 8) act (aluLanePred g w tile slot beat), predReady := mset 0 g.predReady (fDst w % 8) (cycle + aluLatency) }
    else (g.writeLanes (fDst w) act r).setReady (fDst w) (cycle + aluLatency)
  g'.keepFrom (g.applyKeep w tile slot beat (cycle + aluLatency) (some r)) w (cycle + aluLatency)

/-- ALU_INSTR (R149, R150, R147, R140). -/
def execAluInstr (tile : Tile) (slot : GSlot) (cycle : Nat) (legal : Bool) (s : State) : Host.Outcome State Fault Refusal :=
  .next <| match issuing s tile slot cycle 0 .plain with
  | none => s
  | some (g, w) =>
    if legal && aluOk w then
      s.retire tile slot cycle (1 + readCost (if fImmB w then [fA w, fC w] else [fA w, fB w, fC w])) fun _ =>
        aluEffect g w tile slot s.beat cycle
    else faultAt s tile slot cycle .illegalInstr

/-- The result of a CONVERT in a lane. -/
def convertLane (g : Group) (w tile slot beat lane : Nat) : W32 :=
  Config.convert (BitVec.ofNat 8 (fOp w)) (BitVec.ofNat 4 (bitsOf w 9 6)) (BitVec.ofNat 4 (bitsOf w 5 2)) (bitOf w 1)
    (g.operand tile slot beat lane (fA w))

/-- CONVERT_INSTR (R149, R150). -/
def execConvertInstr (tile : Tile) (slot : GSlot) (cycle : Nat) (legal : Bool) (s : State) : Host.Outcome State Fault Refusal :=
  .next <| match issuing s tile slot cycle 7 .plain with
  | none => s
  | some (g, w) =>
    if legal && convertOk w then
      let r := convertLane g w tile slot s.beat
      s.retire tile slot cycle (1 + readCost [fA w]) fun _ =>
        ((g.writeLanes (fDst w) (g.active w) r).setReady (fDst w) (cycle + aluLatency)).keepFrom
          (g.applyKeep w tile slot s.beat (cycle + aluLatency) (some r)) w (cycle + aluLatency)
    else faultAt s tile slot cycle .illegalInstr

/-! ## CONTROL (R139) -/

/-- The condition of a branch over the active lanes: ALWAYS, ANY, ALL or NONE of the predicate. -/
def branchTaken (g : Group) (w : Nat) : Bool :=
  let hit := g.exec &&& g.predMask w
  match bitsOf w 9 8 with
  | 0 => true
  | 1 => hit != 0
  | 2 => hit == g.exec
  | _ => hit == 0

/-- The signed branch offset in instructions, SRC_B:SRC_C. -/
def branchOffset (w : Nat) : Int := toSigned 16 (256 * fB w + fC w)

/-- The effect of a CONTROL instruction on its group but for KEEP; a branch counts from its own index (log 12). -/
def controlOwn (g : Group) (w tile slot beat cycle : Nat) (k : ControlKind) : Group :=
  match k with
  | .branch => if branchTaken g w then { g with pc := ((g.pc : Int) + branchOffset w).toNat } else g.advance
  | .setExec => { g with exec := g.active w }.advance
  | .saveExec => ((g.writeLanes (fDst w) (g.active w) fun _ => g.exec).setReady (fDst w) (cycle + aluLatency)).advance
  | .restoreExec =>
    match lanesOf (g.active w) with
    | [] => g.advance
    | l :: _ => { g with exec := g.operand tile slot beat l (fA w) }.advance

/-- The effect of a CONTROL instruction on its group; only the saved mask is a result that KEEP can copy (R145). -/
def controlEffect (g : Group) (w tile slot beat cycle : Nat) (k : ControlKind) : Group :=
  let result := if k = .saveExec then some fun (_ : Nat) => g.exec else none
  (controlOwn g w tile slot beat cycle k).keepFrom (g.applyKeep w tile slot beat (cycle + aluLatency) result) w (cycle + aluLatency)

/-- CONTROL_INSTR (R139, R150). -/
def execControlInstr (tile : Tile) (slot : GSlot) (cycle : Nat) (legal : Bool) (kind : ControlKind) (s : State) :
    Host.Outcome State Fault Refusal :=
  .next <| match issuing s tile slot cycle 6 (if kind = .restoreExec then .operandA else .plain) with
  | none => s
  | some (g, w) =>
    if legal && controlOk w kind then
      ((s.issued tile slot cycle 1).modGroup tile slot fun _ => controlEffect g w tile slot s.beat cycle kind).fetch tile slot
    else faultAt s tile slot cycle .illegalInstr

/-! ## MXE (R153 to R157, R496) -/

/-- The key of an accumulator element. -/
def accKey (tile acc row col : Nat) : Nat := 8192 * tile + 1024 * acc + 32 * row + col

/-- The local memory of the tile itself that an MXE address names, for `n` bytes. -/
def ownRange (tile a n : Nat) : Option Nat :=
  match localTarget tile a with
  | some (t, o) => if t = tile ∧ o + n ≤ localSize then some o else none
  | none => none

/-- Bytes of one row of A or one column of B. -/
def mxeRowBytes (fmt : Nat) : Nat := mxeK fmt * mxeBits fmt / 8

/-- Bytes of the scales of A and B together: one E8M0 byte for 32 elements, rows of A first, then columns of B (log 17). -/
def mxeScaleBytes (fmt : Nat) : Nat := if mxeScaled fmt then 64 * (mxeK fmt / 32) else 0

/-- The accumulator block after an MMA. -/
def mmaBlock (s : State) (tile acc fmt : Nat) (zero : Bool) (a b sc : Nat) : NMap W32 :=
  let rb := mxeRowBytes fmt
  let n := mxeK fmt / 32
  let scales := (readLocal s tile sc (mxeScaleBytes fmt)).map (·.toNat)
  (List.range 32).foldl (fun m i =>
    let row := readLocal s tile (a + rb * i) rb
    (List.range 32).foldl (fun m j =>
      let k := accKey tile acc i j
      let old := if zero then 0 else mget 0 s.tile.acc k
      mset 0 m k (mmaElement fmt old row (readLocal s tile (b + rb * j) rb) ((scales.drop (n * i)).take n)
        ((scales.drop (32 * n + n * j)).take n))) m) s.tile.acc

/-- Cycles an MMA holds its engine: 16 and the die's limiter step (R153, R496). -/
def mmaCycles (s : State) (tile : Nat) : Nat := 16 + (vat s.pwr.die (dieOf tile) {}).limiter

/-- MXE_MMA (R151, R153 to R156, R496). -/
def execMxeMma (tile : Tile) (slot : GSlot) (cycle : Nat) (legal : Bool) (s : State) : Host.Outcome State Fault Refusal :=
  .next <| match issuing s tile slot cycle 1 .mma with
  | none => s
  | some (g, w) =>
    if legal && mxeOk w then
      let cost := 1 + readCost (fA w :: fB w :: scaleCodes w)
      let keep := fun (_ : Group) => g.keepFrom (g.applyKeep w tile slot s.beat (cycle + 16) none) w (cycle + 16)
      match lanesOf (g.active w) with
      | [] => s.retire tile slot cycle cost keep
      | l :: _ =>
        let op := fun c => (g.operand tile slot s.beat l c).toNat
        let n := 32 * mxeRowBytes (fFmt w)
        match ownRange tile (op (fA w)) n, ownRange tile (op (fB w)) n,
            (if mxeScaled (fFmt w) then ownRange tile (op (fC w)) (mxeScaleBytes (fFmt w)) else some 0) with
        | some a, some b, some c =>
          (s.retire tile slot cycle cost keep).modTile fun t =>
            { t with acc := mmaBlock s tile (fAcc w) (fFmt w) (fZero w) a b c,
                     mxeFree := mset 0 t.mxeFree tile (cycle + mmaCycles s tile) }
        | _, _, _ => faultAt s tile slot cycle .localRange
    else faultAt s tile slot cycle .illegalInstr

/-- The bytes MXE.ST writes: FP32 or the elements converted under FMT, row by row (R157). -/
def mxeStBytes (s : State) (tile acc fmt : Nat) (fp32 : Bool) : List Byte :=
  (List.range 32).flatMap fun i =>
    let row := (List.range 32).map fun j => mget 0 s.tile.acc (accKey tile acc i j)
    if fp32 then row.flatMap fun v => leBytes 4 v.toNat
    else
      let e : Int := if mxeScaled fmt then ((Config.mxeScale fmt row).toNat : Int) - 127 else 0
      let vs := row.map (mxeConvert fmt e)
      if mxeBits fmt = 16 then vs.flatMap (leBytes 2)
      else if mxeBits fmt = 8 then vs.flatMap (leBytes 1)
      else (List.range 16).map fun k => BitVec.ofNat 8 ((vs[2 * k]?).getD 0 + 16 * (vs[2 * k + 1]?).getD 0)

/-- The scales MXE.ST writes for a microscaling format: one byte for each row. -/
def mxeStScales (s : State) (tile acc fmt : Nat) : List Byte :=
  (List.range 32).map fun i => Config.mxeScale fmt ((List.range 32).map fun j => mget 0 s.tile.acc (accKey tile acc i j))

/-- MXE_ST (R157): the destination is SRC_A, the scales of a microscaling format go to SRC_C (log 17). The bytes reach local memory
at the latency of Table 4-2. -/
def execMxeSt (tile : Tile) (slot : GSlot) (cycle : Nat) (legal fp32 : Bool) (s : State) : Host.Outcome State Fault Refusal :=
  .next <| match issuing s tile slot cycle 1 .mxeSt with
  | none => s
  | some (g, w) =>
    if legal && mxeOk w then
      let cost := 1 + readCost (fA w :: scaleCodes w)
      let keep := fun (_ : Group) => g.keepFrom (g.applyKeep w tile slot s.beat (cycle + 8) none) w (cycle + 8)
      match lanesOf (g.active w) with
      | [] => s.retire tile slot cycle cost keep
      | l :: _ =>
        let op := fun c => (g.operand tile slot s.beat l c).toNat
        let bs := mxeStBytes s tile (fAcc w) (fFmt w) fp32
        let scaled := !fp32 && mxeScaled (fFmt w)
        match ownRange tile (op (fA w)) bs.length, (if scaled then ownRange tile (op (fC w)) 32 else some 0) with
        | some a, some c =>
          let put := fun (a : Nat) (bs : List Byte) => ({ tile := tile, addr := a, bytes := bs, at_ := cycle + 8 } : MxeWrite)
          let outs := put a bs :: if scaled then [put c (mxeStScales s tile (fAcc w) (fFmt w))] else []
          (s.retire tile slot cycle cost keep).modTile fun t =>
            { t with mxeOut := t.mxeOut ++ outs, mxeFree := mset 0 t.mxeFree tile (cycle + 8) }
        | _, _ => faultAt s tile slot cycle .localRange
    else faultAt s tile slot cycle .illegalInstr

/-! ## LOCAL (R158 to R162, R171, R178, R181) -/

/-- The bytes a lane's LOCAL load returns: the youngest buffered byte over the target's (R171, R182). -/
def localLane (s : State) (tile a size : Nat) : List Byte :=
  match localTarget tile a with
  | none => List.replicate size 0
  | some (t, o) => (List.range size).map fun i =>
    (sbByte s tile (some t) (o + i)).getD (mget 0 s.tile.localMem (localKey t (o + i)))

/-- How many of a lane's bytes are buffered. -/
def buffered (s : State) (tile : Nat) (space : Option Nat) (a size : Nat) : Nat :=
  ((List.range size).filter fun i => (sbByte s tile space (a + i)).isSome).length

/-- A lane is partially overlapped (R181). -/
def partLane (s : State) (tile : Nat) (space : Option Nat) (a size : Nat) : Bool :=
  let n := buffered s tile space a size
  decide (0 < n) && decide (n < size)

/-- LOCAL_LOAD (R161, R171, R181, Table 4-2). -/
def execLocalLoad (tile : Tile) (slot : GSlot) (cycle : Nat) (legal : Bool) (s : State) : Host.Outcome State Fault Refusal :=
  .next <| match issuing s tile slot cycle 2 .load with
  | none => s
  | some (g, w) =>
    if legal && localOk w false then
      let size := (fSize w).getD 4
      let lanes := lanesOf (g.active w)
      let addr := localAddr g w tile slot s.beat size
      match localCheck tile size (lanes.map addr) with
      | some c => faultAt s tile slot cycle c
      | none =>
        let places := lanes.filterMap fun l => localTarget tile (addr l)
        let far := places.any fun e => e.1 != tile.val
        let late := places.any fun e => partLane s tile (some e.1) e.2 size
        let ready := cycle + (if far then 24 else 8) + (if late then 6 else 0)
        let cost := bankCost tile size places + readCost [fA w]
        let s := s.mxeUpTo cycle
        let value := fun l => BitVec.ofNat 32 (fieldAt (localLane s tile (addr l) size) 0 4)
        s.retire tile slot cycle cost fun _ =>
          ((lanes.foldl (fun (h : Group) l => h.writeLoad (fDst w) l (localLane s tile (addr l) size)) g).readyLoad (fDst w) size
            ready).keepFrom (g.applyKeep w tile slot s.beat ready (some value)) w ready
    else faultAt s tile slot cycle .illegalInstr

/-- Store-buffer entries that some block stores still need: blocks without an open entry (R178). -/
def newEntries (s : State) (tile : Nat) (bs : List (Option Nat × Nat)) : Nat :=
  (bs.eraseDups.filter fun b => (sbOpen s tile b.1 b.2).isNone).length

/-- LOCAL_STORE (R178): a store that finds the buffer full holds its group. -/
def execLocalStore (tile : Tile) (slot : GSlot) (cycle : Nat) (legal : Bool) (s : State) : Host.Outcome State Fault Refusal :=
  .next <| match issuing s tile slot cycle 2 .store with
  | none => s
  | some (g, w) =>
    if legal && localOk w true then
      let size := (fSize w).getD 4
      let lanes := lanesOf (g.active w)
      let addr := localAddr g w tile slot s.beat size
      match localCheck tile size (lanes.map addr) with
      | some c => faultAt s tile slot cycle c
      | none =>
        let places := lanes.filterMap fun l => (localTarget tile (addr l)).map fun e => (l, e)
        if 32 < sbCount s tile + newEntries s tile (places.map fun e => (some e.2.1, e.2.2 / 64)) then
          s.modGroup tile slot fun g => { g with hold := .storeFull }
        else
          let cost := bankCost tile size (places.map (·.2)) + readCost [fA w, fB w]
          let s' := s.retire tile slot cycle cost fun _ =>
            g.keepFrom (g.applyKeep w tile slot s.beat (cycle + aluLatency) none) w (cycle + aluLatency)
          s'.each places fun s' e => s'.sbStore tile g.id (some e.2.1) e.2.2 cycle (storeBytes g w tile slot s.beat size e.1) g.part g.step
            g.cls none
    else faultAt s tile slot cycle .illegalInstr

/-! ## DEVICE (R181, R183, R240, R269, R325, R326, R340) -/

/-- The deadline of a DEVICE access: only DL = 1 of a C0 step is tagged (R325, R326). -/
def accessDeadline (g : Group) (w : Nat) : Option Nat := if g.cls = 0 ∧ fDl w = true then some (g.deadline % 2 ^ 24) else none

/-- One read request of a load for each line it touches. -/
def loadRequest (g : Group) (w tile id line rid : Nat) (mask : BitVec 256) : MemReq :=
  { id := rid, line := line, part := g.part, master := sheafOf tile, cls := g.cls, deadline := accessDeadline g w, last := fLast w,
    write := false, mask := mask, data := [], poisoned := false, die := some (dieOf tile), step := some g.step, src := .load id }

/-- DEVICE_LOAD (R181): response slots are reserved and reads go to the home slices; a load whose slots are not free leaves its unit
not free (R240), so it does not issue. What KEEP copies is readable when the load returns (R145). -/
def execDeviceLoad (tile : Tile) (slot : GSlot) (cycle : Nat) (legal : Bool) (s : State) : Host.Outcome State Fault Refusal :=
  .next <| match issuing s tile slot cycle 3 .load with
  | none => s
  | some (g, w) =>
    if legal && deviceOk w false then
      let size := (fSize w).getD 4
      let lanes := lanesOf (g.active w)
      let addr := deviceAddr g w tile slot s.beat size
      let slots := (lanes.length * size + 63) / 64
      match deviceCheck s g.part size (lanes.map addr) with
      | some c => faultAt s tile slot cycle c
      | none =>
        let cost := 1 + readCost [fA w]
        if lanes = [] then s.retire tile slot cycle cost id
        else
          let kept := g.applyKeep w tile slot s.beat never none
          let id := s.nextId
          let accs := lanes.map fun l =>
            ({ lane := l, addr := addr l, ovl := (List.range size).map fun i => sbByte s tile none (addr l + i) } : LaneAcc)
          let lines := (lanes.map fun l => addr l / 256).eraseDups
          let mask := fun line => (lanes.filter fun l => addr l / 256 == line).foldl
            (fun (m : BitVec 256) l => m ||| maskRange (addr l % 256) size) 0
          let ld : Load := { id := id, tile := tile, slot := slot, group := g.id, pc := g.pc, dst := BitVec.ofNat 8 (fDst w),
                             keep := if fKeep w then some (fKslot w, fKsel w == 0) else none, size := size, lanes := accs,
                             need := lines, got := [], code := none,
                             partialOvl := lanes.any fun l => partLane s tile none (addr l) size, slots := slots, issue := cycle,
                             deadline := accessDeadline g w, demoted := 0 }
          let reqs := lines.zipIdx.map fun e => loadRequest g w tile id e.1 (id + 1 + e.2) (mask e.1)
          (((s.retire tile slot cycle cost fun _ => (g.keepFrom kept w never).readyLoad (fDst w) size never).modTile
            fun t => { t with loads := t.loads ++ [ld] }).modGrn fun x => { x with reqs := x.reqs ++ reqs }).modNextId
              (· + 1 + lines.length)
    else faultAt s tile slot cycle .illegalInstr

/-- DEVICE_STORE (R178, R181): the bytes go to the store buffer. -/
def execDeviceStore (tile : Tile) (slot : GSlot) (cycle : Nat) (legal : Bool) (s : State) : Host.Outcome State Fault Refusal :=
  .next <| match issuing s tile slot cycle 3 .store with
  | none => s
  | some (g, w) =>
    if legal && deviceOk w true then
      let size := (fSize w).getD 4
      let lanes := lanesOf (g.active w)
      let addr := deviceAddr g w tile slot s.beat size
      match deviceCheck s g.part size (lanes.map addr) with
      | some c => faultAt s tile slot cycle c
      | none =>
        if 32 < sbCount s tile + newEntries s tile (lanes.map fun l => (none, addr l / 64)) then
          s.modGroup tile slot fun g => { g with hold := .storeFull }
        else
          let s' := s.retire tile slot cycle (1 + readCost [fA w, fB w]) fun _ =>
            g.keepFrom (g.applyKeep w tile slot s.beat (cycle + aluLatency) none) w (cycle + aluLatency)
          s'.each lanes fun s' l => s'.sbStore tile g.id none (addr l) cycle (storeBytes g w tile slot s.beat size l) g.part g.step g.cls
            (accessDeadline g w)
    else faultAt s tile slot cycle .illegalInstr

end Sys2Proof.Machine
end

