-- ==== Sys2Proof/Machine/TilesOrder.lean ====
section
/-! DEFINITION. The meanings of the fences, tokens, group ends, instruction fills, and of the store buffer's and loads' own events
(04, R141, R164 to R183). -/

namespace Sys2Proof.Machine

/-! ## What a fence waits for (R174) -/

/-- A group has bytes in a buffered store of these spaces. -/
def hasStores (s : State) (tile group : Nat) (device : Bool) : Bool :=
  s.tile.storeBuf.any fun e => e.tile == tile && e.groups.contains group && (e.space.isNone == device)

/-- A group has a DEVICE load outstanding. -/
def hasLoads (s : State) (tile group : Nat) : Bool := s.tile.loads.any fun l => l.tile == tile && l.group == group

/-- A hold of a group is over: its fence is satisfied, its release may go on. -/
def holdOver (s : State) (tile group : Nat) (h : Hold) : Bool :=
  match h with
  | .fenceL => !hasStores s tile group false
  | .fenceD => !hasStores s tile group true && !hasLoads s tile group
  | .release => !hasStores s tile group false && !hasStores s tile group true && !hasLoads s tile group
  | _ => false

/-- A hold that is over: after FENCE.D and before a release the group goes on once its last load has returned (R174, R181). -/
def Group.endHold (g : Group) : Group :=
  { g with hold := .none, resumeAt := if g.hold = .fenceL then g.resumeAt else max g.resumeAt g.loadsBack }

/-- Ends the holds of a tile's groups that are over (R174, R176). -/
def settleHolds (s : State) (tile : Nat) : State :=
  s.each (List.range 8) fun s i => s.modGroup tile i fun g => if holdOver s tile g.id g.hold then g.endHold else g

/-- FENCE.L and FENCE.D: the group is held while its accesses are not done; with no active lane it has no effect (R151). -/
def fenceAt (s : State) (tile slot cycle : Nat) (op : Nat) (h : Hold) : State :=
  match issuing s tile slot cycle 4 .plain with
  | none => s
  | some (g, w) =>
    if fOp w = op ∨ (op = 0 ∧ 2 ≤ fOp w) then
      if fenceOk w then
        if g.active w = 0 then s.retire tile slot cycle 1 id
        else settleHolds (s.retire tile slot cycle 1 fun _ =>
          { (g.keepFrom (g.applyKeep w tile slot s.beat (cycle + aluLatency) none) w (cycle + aluLatency)) with hold := h }) tile
      else faultAt s tile slot cycle .illegalInstr
    else s

/-- FENCE_L (R174). -/
def execFenceL (tile : Tile) (slot : GSlot) (cycle : Nat) (s : State) : Host.Outcome State Fault Refusal :=
  .next (fenceAt s tile slot cycle 0 .fenceL)

/-- FENCE_D (R174). -/
def execFenceD (tile : Tile) (slot : GSlot) (cycle : Nat) (s : State) : Host.Outcome State Fault Refusal :=
  .next (fenceAt s tile slot cycle 1 .fenceD)

/-! ## Tokens (R163 to R168) -/

/-- The token an instruction names: its own sheaf's, or SRC_A of the lowest active lane (R149, R151). -/
def tokenIndex (g : Group) (w tile slot beat lane : Nat) : Nat :=
  if fIndirect w then (g.operand tile slot beat lane (fA w)).toNat % 4096 else 64 * sheafOf tile + bitsOf w 5 0

/-- The latency of a token result by distance (Table 4-2). -/
def tokenLatency (tile t : Nat) : Nat :=
  let a := sheafOf tile
  let b := t / 64
  if a = b then 12 else if a / 8 = b / 8 then 40 else if a / 16 = b / 16 then 64 else 96

/-- The result of a token instruction is ready, and later memory accesses may issue, after its latency (R140, R176). -/
def Group.tokenReady (g : Group) (w cycle : Nat) : Group :=
  ({ g with memReady := max g.memReady cycle } : Group).setReady (fDst w) cycle

/-- TOKEN.ACQ and the part of TOKEN.WAIT that takes a token (Table 4-9). -/
def acquire (s : State) (t : Nat) (r : TokenReq) : State :=
  match token s t with
  | .held _ a b _ =>
    let st := if a = r.tile ∧ b = r.slot then stSelfHeld else stBusy
    s.tokenStatus r.tile r.slot r.dst.toNat r.keep r.lanes st st
  | _ => s.grantToken t r.part r.tile r.slot r.dst.toNat r.keep r.lanes

/-- Holds a group until a token is granted to it (R166). -/
def awaitToken (s : State) (t : Nat) (r : TokenReq) : State :=
  (s.modGroup r.tile r.slot fun g => { g with hold := .token }).modTile fun x =>
    { x with tokenWait := x.tokenWait ++ [{ token := t, tile := r.tile, slot := r.slot, dst := r.dst, lanes := r.lanes, limit := r.limit,
                                            keep := r.keep }] }

/-- A token unit serves one request (R164 to R168). -/
def serveReq (t : Nat) (s : State) (r : TokenReq) : State :=
  match r.op, token s t with
  | .wait, .held _ _ _ _ => awaitToken s t r
  | .rel, _ => ((s.tokenStatus r.tile r.slot r.dst.toNat r.keep (r.lanes &&& (0 - r.lanes)) stGranted stGranted).setToken t .free).serveToken t
  | _, _ => acquire s t r

/-- The place of a request in the order of R167. -/
def reqKey (r : TokenReq) : Nat := gKey r.tile r.slot

/-- The turn of a token that a request of a cycle and distance belongs to, when a higher group's request was served before it and
every group of it still runs. -/
def turnToRedo (s : State) (t cycle lat : Nat) (r : TokenReq) : Option TokenTurn :=
  s.tile.tokenTurn.find? fun u => u.token == t && u.cycle == cycle && u.latency == lat && u.reqs.any (fun q => decide (reqKey r < reqKey q)) &&
    u.reqs.all fun q => (getGroup s q.tile q.slot).isSome

/-- Takes back what a turn has done: the token and its waiters are as before it. -/
def undoTurn (s : State) (u : TokenTurn) : State :=
  let s := s.each u.reqs fun s q => s.modGroup q.tile q.slot fun g => if g.hold = .token then { g with hold := .none } else g
  let s := s.each u.waits fun s w => s.modGroup w.tile w.slot fun g => { g with hold := .token }
  (s.setToken u.token u.before).modTile fun x => { x with tokenWait := x.tokenWait.filter (fun w => w.token != u.token) ++ u.waits }

/-- The token unit serves the requests of one cycle in ascending order of tile × 8 + slot (R167): one that comes with a lower group
than another of its cycle and distance is served before it. -/
def serveTurn (s : State) (t cycle lat : Nat) (r : TokenReq) : State :=
  let keep := fun (u : TokenTurn) (s : State) =>
    s.modTile fun x => { x with tokenTurn := x.tokenTurn.filter (fun v => v.token != t) ++ [u] }
  match turnToRedo s t cycle lat r with
  | some u =>
    let rs := u.reqs.filter (fun q => decide (reqKey q ≤ reqKey r)) ++ r :: u.reqs.filter fun q => decide (reqKey r < reqKey q)
    keep { u with reqs := rs } ((undoTurn s u).each rs (serveReq t))
  | none =>
    let u : TokenTurn := match s.tile.tokenTurn.find? fun u => u.token == t && u.cycle == cycle && u.latency == lat with
      | some u => { u with reqs := u.reqs ++ [r] }
      | none => { token := t, cycle := cycle, latency := lat, before := token s t, waits := s.tile.tokenWait.filter fun w => w.token == t,
                  reqs := [r] }
    keep u (serveReq t s r)

/-- A token instruction issues: the checks all of them share (R150, R151, R163), then its own effect. -/
def tokenAt (s : State) (tile slot cycle op : Nat) (eff : State → Group → Nat → Nat → Nat → State) : State :=
  match issuing s tile slot cycle 5 .plain with
  | none => s
  | some (g, w) =>
    if fOp w = op ∨ (op = 0 ∧ 3 ≤ fOp w) then
      if tokenOk w then
        match lanesOf (g.active w) with
        | [] => s.retire tile slot cycle 1 id
        | l :: _ =>
          let t := tokenIndex g w tile slot s.beat l
          if ownsSheaf s g.part (t / 64) then eff s g w t l else faultAt s tile slot cycle .tokenRange
      else faultAt s tile slot cycle .illegalInstr
    else s

/-- The cost of a token instruction's sources and its retirement; its response slot is in use until the result returns (R240). -/
def tokenRetire (s : State) (tile slot cycle : Nat) (g : Group) (w t : Nat) : State :=
  let at_ := cycle + tokenLatency tile t
  (s.retire tile slot cycle (1 + readCost ([fA w].filter (fun _ => fIndirect w) ++ [fB w].filter fun _ => fOp w == 1)) fun _ =>
    (g.keepFrom (g.applyKeep w tile slot s.beat at_ none) w at_).tokenReady w at_).modTile fun x =>
      { x with tokenOut := x.tokenOut.filter (fun e => e.1 != tile || decide (cycle < e.2)) ++ [(tile, at_)] }

/-- The request of a token instruction. -/
def tokenReq (op : TokenOp) (tile slot : Nat) (g : Group) (w : Nat) (limit : Option Nat) : TokenReq :=
  { op := op, part := g.part, tile := tile, slot := slot, dst := BitVec.ofNat 8 (fDst w), lanes := g.active w, limit := limit,
    keep := keepResult w }

/-- A token instruction retires and its token's unit serves it; the port of a die that is being reloaded answers BUSY (R523). -/
def tokenGo (s : State) (tile slot cycle : Nat) (g : Group) (w t : Nat) (op : TokenOp) (limit : Option Nat) : State :=
  let s := tokenRetire s tile slot cycle g w t
  if (vat s.fab.die (t / 1024) {}).reloading then s.tokenStatus tile slot (fDst w) (keepResult w) (g.active w) stBusy stBusy
  else serveTurn s t cycle (tokenLatency tile t) (tokenReq op tile slot g w limit)

/-- TOKEN_ACQ (R164). -/
def execTokenAcq (tile : Tile) (slot : GSlot) (cycle : Nat) (s : State) : Host.Outcome State Fault Refusal :=
  .next <| tokenAt s tile slot cycle 0 fun s g w t _ => tokenGo s tile slot cycle g w t .acq none

/-- TOKEN_WAIT (R165, R166). -/
def execTokenWait (tile : Tile) (slot : GSlot) (cycle : Nat) (s : State) : Host.Outcome State Fault Refusal :=
  .next <| tokenAt s tile slot cycle 1 fun s g w t l =>
    let limit := (g.operand tile slot s.beat l (fB w)).toNat
    if heldBy (token s t) tile slot then faultAt s tile slot cycle .groupSelfWait
    else tokenGo s tile slot cycle g w t .wait (if limit = 0 then none else some (cycle + limit))

/-- TOKEN_REL (R168, R176): FENCE.L and FENCE.D come first; then the token is freed or passed on. -/
def execTokenRel (tile : Tile) (slot : GSlot) (cycle : Nat) (s : State) : Host.Outcome State Fault Refusal :=
  .next <| tokenAt s tile slot cycle 2 fun s g w t l =>
    match token s t with
    | .held _ a b c =>
      if a = tile.val ∧ b = slot.val ∧ c = l then
        if holdOver s tile g.id .release then
          if g.loadsBack ≤ cycle then tokenGo s tile slot cycle g w t .rel none
          else s.modGroup tile slot fun g => { g with resumeAt := max g.resumeAt g.loadsBack }
        else s.modGroup tile slot fun g => { g with hold := .release }
      else faultAt s tile slot cycle .tokenNotHolder
    | _ => faultAt s tile slot cycle .tokenNotHolder

/-- TOKEN_WAIT_LIMIT (R166): at its limit, or past the slot's end where it gave none, every active lane receives BUSY. -/
def execTokenWaitLimit (tile : Tile) (slot : GSlot) (cycle : Nat) (s : State) : Host.Outcome State Fault Refusal :=
  .next <| match s.tile.tokenWait.find? fun w => w.tile == tile.val && w.slot == slot.val with
  | none => s
  | some w =>
    let overrun : Bool := match w.limit with
      | some c => decide (c ≤ cycle)
      | none => (getGroup s tile slot).any fun g => decide (g.slotEnd < s.beat)
    if overrun then
      ((s.modTile fun x => { x with tokenWait := x.tokenWait.filter fun v => v != w }).modGroup tile slot fun g =>
        { g with hold := .none }).tokenStatus tile slot w.dst.toNat w.keep w.lanes stBusy stBusy
    else s

/-- GROUP_EXIT (R169): a token still held becomes FORFEIT and marks the step; buffered stores drain on. A group that has ended
fetches nothing more (log 119). -/
def execGroupExit (tile : Tile) (slot : GSlot) (s : State) : Host.Outcome State Fault Refusal :=
  .next <| match getGroup s tile slot with
  | none => s
  | some g =>
    let s := if g.fetching then s.modTile fun t => { t with fetchMiss := vmodN t.fetchMiss (sheafOf tile) (· - 1) } else s
    if holdsToken s tile slot then
      ((s.dropGroup tile slot).forfeitTokens tile slot).modStep g.step fun t => { t with tokenHeld := true }
    else s.dropGroup tile slot

/-! ## Instruction fills (R141) -/

/-- Instruction words of some bytes. -/
def codeWords (bs : List Byte) (n : Nat) : List (BitVec 64) := (List.range n).map fun i => BitVec.ofNat 64 (fieldAt bs (8 * i) 8)

/-- Puts instruction words into a tile's instruction cache. -/
def State.preload (s : State) (tile a : Nat) (ws : List (BitVec 64)) : State :=
  (s.modTile fun t => { t with icache := ws.zipIdx.foldl (fun m e => assocSet m (2 ^ 40 * tile + a / 8 + e.2) e.1) t.icache }).fetched tile

/-- The words a held fetch needs come from device memory (R141); SHF_FETCH_MISS counted the fetch. POISON faults the group, as it does
for a load (R283, log 126). -/
def fetchLine (s : State) (tile slot words : Nat) : State := match getGroup s tile slot with
  | none => s
  | some g =>
    if (fetchWord s tile g).isSome then s
    else
      let a := g.codeBase + 8 * g.pc
      let n := max 1 words
      let (s, r) := s.rd { master := sheafOf tile, cls := g.cls, deadline := none, step := none } a (8 * n)
      match r.code with
      | some c => s.groupFault tile slot c g.pc none
      | none => s.preload tile a (codeWords r.bytes n)

/-! ## The store buffer's events (R179, R180) -/

/-- A fence or a release of a group with bytes in the entry, or in a later one, requires it to drain (R179). -/
def drainWanted (s : State) (e : SbEntry) : Bool :=
  (List.range 8).any fun i => (getGroup s e.tile i).any fun g => e.groups.contains g.id &&
    match g.hold with
      | .fenceL => e.space.isSome
      | .fenceD => e.space.isNone
      | .release => true
      | _ => false

/-- The store request of an entry: its 64 bytes within their line. -/
def entryRequest (e : SbEntry) (id : Nat) : MemReq :=
  let q := e.block % 4
  { id := id, line := e.block / 4, part := e.part, master := sheafOf e.tile, cls := e.cls, deadline := e.deadline, last := false,
    write := true, mask := BitVec.ofNat 256 (e.mask.toNat * 2 ^ (64 * q)),
    data := List.replicate (64 * q) 0 ++ e.data ++ List.replicate (192 - 64 * q) 0, poisoned := false, die := some (dieOf e.tile),
    step := some e.step, src := .store e.tile e.id }

/-- STORE_DRAIN_START (R179): the oldest entry not yet draining begins, in order, at most one a cycle. -/
def execStoreDrainStart (tile : Tile) (cycle : Nat) (s : State) : Host.Outcome State Fault Refusal :=
  .next <|
    let waiting := s.tile.storeBuf.filter fun e => e.tile == tile.val && e.begun.isNone
    match waiting with
    | [] => s
    | e :: _ =>
      let busy := s.tile.storeBuf.any fun x => x.tile == tile.val && x.begun == some cycle
      if !busy && (decide (e.taken + 16 ≤ cycle) || decide (24 < sbCount s tile) || waiting.any (drainWanted s)) then
        let s' := s.modTile fun t => { t with storeBuf := t.storeBuf.map fun x => if x.id = e.id then { x with begun := some cycle } else x }
        if e.space.isSome then s'
        else s'.fresh.modGrn fun g => { g with reqs := g.reqs ++ [entryRequest e s.nextId] }
      else s

/-- An entry's masked bytes written into local memory at a cycle. -/
def drainLocal (s : State) (e : SbEntry) (t cycle : Nat) : State :=
  (s.mxeUpTo cycle).each (List.range 64) fun s i => if e.mask.getLsbD i then s.pokeLocal t (64 * e.block + i) [(e.data[i]?).getD 0] else s

/-- Frees an entry, with what waits for it: fences, releases, and groups held by a full buffer when it is the oldest (R178). -/
def freeEntry (s : State) (e : SbEntry) : State :=
  let oldest := (s.tile.storeBuf.find? fun x => x.tile == e.tile) == some e
  let s := s.modTile fun t => { t with storeBuf := t.storeBuf.filter fun x => x.id != e.id }
  let s := if oldest then s.each (List.range 8) fun s i => s.modGroup e.tile i fun g =>
    if g.hold = .storeFull then { g with hold := .none } else g else s
  settleHolds s e.tile

/-- STORE_ACK (R172, R175, R180): a local entry is written 4 cycles after it began, a device entry is acknowledged by its home
slice; entries of one block leave in order. -/
def execStoreAck (tile : Tile) (entry cycle : Nat) (s : State) : Host.Outcome State Fault Refusal :=
  .next <| match s.tile.storeBuf.find? fun e => e.tile == tile.val && e.id == entry with
  | none => s
  | some e =>
    let first := (s.tile.storeBuf.find? fun x => x.tile == e.tile && x.space == e.space && x.block == e.block) == some e
    match e.begun with
    | none => s
    | some c =>
      if !first then s
      else
        match e.space with
        | some t => if c + 4 ≤ cycle then freeEntry (drainLocal s e t cycle) e else s
        | none =>
          if storePending s tile entry then s
          else
            let s' := match e.deadline with
              | some d => if passed s d then dlMissed s d (sheafOf tile) (groupOf (64 * e.block)) (some e.step) else s
              | none => s
            freeEntry s' e

/-! ## Loads that return (R181, R182, R283, R333) -/

/-- The bytes a lane of a load receives: the bytes the store buffer held at issue over the target's (R171, R182). -/
def laneBytes (l : Load) (a : LaneAcc) : List Byte :=
  let bytes := ((l.got.find? fun e => e.1 == a.addr / 256).elim [] (·.2))
  (List.range l.size).map fun i => ((a.ovl[i]?).getD none).getD ((bytes[a.addr % 256 + i]?).getD 0)

/-- Every line of the load has answered. -/
def loadDone (l : Load) : Bool := l.need.all fun n => l.got.any fun e => e.1 == n

/-- A group receives the data of a load at a cycle: its destination, and the entry of KEEP (R145, R181, R182). -/
def Group.loaded (g : Group) (l : Load) (at_ : Nat) : Group :=
  let g := l.lanes.foldl (fun (h : Group) (a : LaneAcc) => h.writeLoad l.dst.toNat a.lane (laneBytes l a)) g
  let g := match l.keep with
    | some (k, true) => l.lanes.foldl (fun (h : Group) (a : LaneAcc) =>
        h.writeDst (0x80 + k) a.lane (BitVec.ofNat 32 (fieldAt (laneBytes l a) 0 4))) g
    | _ => g
  let g := (l.keep.elim g fun k => g.setReady (0x80 + k.1) at_).readyLoad l.dst.toNat l.size at_
  { g with loadsBack := max g.loadsBack at_ }

/-- LOAD_RESPONSE (R181): the data reaches its registers, or POISON faults the group; a late tagged load is counted (R333). -/
def execLoadResponse (load cycle : Nat) (s : State) : Host.Outcome State Fault Refusal :=
  .next <| match s.tile.loads.find? fun l => l.id == load with
  | none => s
  | some l =>
    if loadDone l then
      let live := (getGroup s l.tile l.slot).filter fun g => g.id == l.group
      let step := live.map (·.step)
      let s' := match l.deadline with
        | some d => if l.demoted < l.need.length ∧ passed s d = true then dlMissed s d (sheafOf l.tile) (groupOf ((l.lanes.head?).elim 0 (·.addr))) step else s
        | none => s
      let s' := s'.modTile fun t => { t with loads := t.loads.filter fun x => x.id != load }
      match live, l.code with
      | none, _ => s'
      | some _, some c => settleHolds (s'.groupFault l.tile l.slot c l.pc (some cycle)) l.tile
      | some _, none =>
        let at_ := cycle + (if l.partialOvl then 6 else 0)
        settleHolds (s'.modGroup l.tile l.slot fun g => g.loaded l at_) l.tile
    else s

end Sys2Proof.Machine
end

