-- ==== Sys2Proof/Machine/StepOps.lean ====
section
/-! DEFINITION. What steps share: grades in force over a run (R64, R68), tempo slips (R75), Trellis fills that start (R410, R412),
contexts that open and close (R373, R377), completion records (R351 to R353) and the end of a step. -/

namespace Sys2Proof.Machine

/-! ## Grades (R62 to R69, R98 to R100) -/

/-- The operating point is enabled by the fuses and by the OPTABLE curve in force (R98 to R100). -/
def pointEnabled (s : State) (k : Nat) : Bool :=
  vat s.fuses.opEnable k false && (match s.str.bind (·.optable) with
    | some t => (t[k]?).elim false (·.1)
    | none => true)

/-- The slowest enabled point. -/
def slowestPoint (s : State) : Nat := maxN (idx 8 fun k => pointEnabled s k)

/-- A point, or the next slower enabled one where it is disabled (R99). -/
def enabledFrom (s : State) (k : Nat) : Nat := ((List.range 8).find? fun j => decide (k ≤ j) && pointEnabled s j).getD (slowestPoint s)

/-- One grade slower than a grade, down to the slowest enabled point (R301, R302, R498, R500). -/
def oneSlower (s : State) (k : Nat) : Nat := enabledFrom s (k + 1)

/-- The tempo rank of this package, 0 while none is written (R27, R36). -/
def ownRank (s : State) : Nat := match s.rhl.rank with
  | some (t, l) => 8 * t + l
  | none => 0

/-- The standing grade of a member for a frame: its latest announcement effective by then, else what it stood at (R68). -/
def standingAt (base : Nat) (as : List Announce) (f : Nat) : Nat :=
  ((as.filter fun a => decide (a.eff ≤ f)).foldl (fun (b : Nat × Nat) a => if b.1 ≤ a.eff then (a.eff, a.grade) else b) (0, base)).2

/-- Announcements made by this package. -/
def ownAnnounces (g : Grades) : List Announce := g.announced.filter (·.own)

/-- The grade in force that a frame's announcements give: the slowest standing grade of the members and of announcements for that
very frame by packages that have left (R68), or the next slower enabled point (R99). Announcements are kept of members only. -/
def gradeFor (s : State) (f : Nat) : Nat :=
  let g := s.grade
  let own := standingAt g.ownStanding (ownAnnounces g) f
  let others := g.standing.map fun e => standingAt e.2 (g.announced.filter fun a => !a.own && a.rank == e.1) f
  let gone := (g.announced.filter fun a => !a.own && a.eff == f && !(g.standing.any fun e => e.1 == a.rank)).map (·.grade)
  enabledFrom s (maxN (own :: others ++ gone))

/-- Some announcement takes effect at the frame. -/
def announcedFor (s : State) (f : Nat) : Bool := s.grade.announced.any fun a => a.eff == f

/-- The grade in force at a frame that is not past, as announced so far (R68). -/
def gradeAt (s : State) (f : Nat) : Nat :=
  let now := frameOf s.beat
  (List.range (f - now)).foldl (fun g i => if announcedFor s (now + 1 + i) then gradeFor s (now + 1 + i) else g) s.grade.now

/-- The slowest grade in force during a run of foreground beats from a start beat (R64). -/
def slowestDuring (s : State) (start fg : Nat) : Nat :=
  let last := fgBeat start (fg - 1)
  maxN ((List.range (frameOf last + 1 - frameOf start)).map fun i => gradeAt s (frameOf start + i))

/-- The grade of a ladder for a run: the smallest index at least that of every grade in force during it (R64). -/
def chooseGrade (s : State) (r : PlanRec) (start : Nat) : Option PlanGrade :=
  r.grades.find? fun g => decide (slowestDuring s start g.fgBeats ≤ g.grade)

/-- The grade of a ladder at the grade in force now (checks 8 to 10 of Table 9-4). -/
def chooseNow (s : State) (r : PlanRec) : Option PlanGrade := r.grades.find? fun g => decide (s.grade.now ≤ g.grade)

/-! ## Plans -/

/-- The plan record with an identifier that a partition may run. -/
def planRec (s : State) (id p : Nat) : Option PlanRec :=
  s.str.bind fun t => t.plans.find? fun r => r.id == id && (r.part == p || r.part == 0xFF)

/-- The plan record of a step that placement, grade and charge use: the variant-0 record (R421). -/
def stepPlan (s : State) (t : Step) : Option PlanRec := planRec s t.planId t.part

/-- The grade entry of a step's plan that it was admitted with. -/
def stepGrade (s : State) (t : Step) : Option PlanGrade :=
  (stepPlan s t).bind fun r => r.grades.find? fun g => g.grade == t.grade

/-- The grade entry of the plan a step runs, the ingest variant included. -/
def runGrade (s : State) (t : Step) : Option PlanGrade :=
  (planRec s t.runPlan t.part).bind fun r => r.grades.find? fun g => g.grade == t.grade

/-- A step of a collective plan (PFLAGS bit 0). -/
def collectiveStep (s : State) (t : Step) : Bool := (stepPlan s t).any (·.collective)

/-- The tiles a step occupies, and its foreground beats. -/
def stepTiles (s : State) (t : Step) : List Nat := (stepGrade s t).elim [] (·.tiles)
def stepBeats (s : State) (t : Step) : Nat := (stepGrade s t).elim 0 (·.fgBeats)

/-- Foreground beats by which a slot of a step is late: the greatest lateness of the slots that end before it (R71). -/
def slotDelay (t : Step) (p : PlanSlot) : Nat := maxN ((t.delays.filter fun e => decide (e.1 ≤ p.off)).map (·.2))

/-- Foreground beats by which the end of a step's run is late (R71). -/
def runDelay (t : Step) : Nat := maxN (t.delays.map (·.2))

/-- The last beat of a slot of a step: its offset and length, later by what its earlier slots overran (R59, R71). -/
def slotLast (t : Step) (p : PlanSlot) : Nat := fgBeat t.start (p.off + slotDelay t p + p.beats - 1)

/-- The first beat of a slot of a step. -/
def slotFirst (t : Step) (p : PlanSlot) : Nat := fgBeat t.start (p.off + slotDelay t p)

/-! ## Requests of plan transfers (R324 to R326) -/

/-- The deadline that a plan transfer of a step carries in a slot with this last beat (R325, R326). -/
def planDeadline (t : Step) (last : Nat) : Option Nat := if t.cls = 0 then some (last % 2 ^ 24) else none

/-- For whom a plan transfer makes its accesses. -/
def planWho (t : Step) (last master : Nat) : Who :=
  { master := master, cls := t.cls, deadline := planDeadline t last, step := some t.id }

/-- A write of a step: it completes with the code of what is lost (R277). -/
def State.wrFor (s : State) (who : Who) (step a : Nat) (bs : List Byte) : State :=
  let (s, r) := s.wr who a bs
  match r.code with
  | some c => s.faultStep step c
  | none => s

/-! ## Charges (R356, R363, R364) -/

/-- Charges engine-beats to a partition. -/
def State.chargePart (s : State) (p n : Nat) : State :=
  (s.modPart p fun q => { q with account := q.account + BitVec.ofNat 64 n, frameCharge := q.frameCharge + n }).partFrame p fun f =>
    { f with charge := f.charge + n }

/-! ## Tempo slips (R75) -/

/-- Causes of TMP_SLIP_LAST (Table 2-7). -/
def causeOverrun : Nat := 0
def causeLimiter : Nat := 1
def causeDelayed : Nat := 2
def causeRealign : Nat := 3

/-- A slip: the counters, TMP_SLIP_LAST and the step's status (R75). -/
def State.slip (s : State) (id cause endBeat overrun : Nat) : State :=
  match getStep s id with
  | none => s
  | some t =>
    let last : SlipLast := { beat := BitVec.ofNat 24 endBeat, planId := BitVec.ofNat 16 t.runPlan, part := BitVec.ofNat 3 t.part,
                             cause := BitVec.ofNat 2 cause, overrun := BitVec.ofNat 11 (min overrun 0x7FF) }
    ((s.modTmp fun x => { x with slipCount := x.slipCount + 1, slipPart := vmodN x.slipPart t.part (· + 1), slipLast := last }).partFrame
      t.part fun f => { f with slips := f.slips + 1 }).modStep id fun x => { x with slip := true }

/-! ## Trellis fills (R410 to R412) -/

/-- A Trellis slot. -/
def trlSlot (s : State) (n : Nat) : TSlot := vat s.trl.slot n {}

/-- Changes a Trellis slot. -/
def State.modTrlSlot (s : State) (n : Nat) (f : TSlot → TSlot) : State := s.modTrl fun t => { t with slot := vmodN t.slot n f }

/-- Buffer 0 or 1 of a slot. -/
def TSlot.buf (t : TSlot) (b : Bool) : Option TBuf := if b then t.buf1 else t.buf0

/-- Sets a buffer of a slot. -/
def TSlot.setBuf (t : TSlot) (b : Bool) (v : Option TBuf) : TSlot := if b then { t with buf1 := v } else { t with buf0 := v }

/-- The buffer a fill goes to: the one that is not the newest complete one (R410). -/
def TSlot.target (t : TSlot) : Bool := match t.newest with
  | some b => !b
  | none => false

/-- The target buffer has no pin (R412). -/
def TSlot.free (t : TSlot) : Bool := (t.buf t.target).all fun b => b.pins.isEmpty

/-- How many non-posted requests may be outstanding (R568). -/
def tagLimit (h : HostPort) : Nat := match h.tags with
  | .bits8 => 256
  | .bits10 => 768
  | .bits14 => 2048

/-- An upstream read leaves and waits for its completion. -/
def State.issueUp (s : State) (r : UpRead) : State :=
  ((s.fresh).modHif fun h => { h with upstream := h.upstream ++ [{ tag := s.nextId, fn := r.fn, src := r.src, abandoned := false }] }).emit
    (.upstreamRead r.fn s.nextId r.addr r.len)

/-- Reads that wait leave in their order while there are tags (R568). -/
def State.sendUp (s : State) : State :=
  let n := tagLimit s.hif - s.hif.upstream.length
  (s.modHif fun h => { h with upWait := h.upWait.drop n }).each (s.hif.upWait.take n) State.issueUp

/-- A source asks for an upstream read (R567). -/
def State.upstream (s : State) (fn : Nat) (src : UpSrc) (addr len : Nat) : State :=
  (s.modHif fun h => { h with upWait := h.upWait ++ [{ fn := fn, src := src, addr := addr, len := len }] }).sendUp

/-- Requests that are complete free their tags. -/
def State.endUp (s : State) (p : Upstream → Bool) : State :=
  (s.modHif fun h => { h with upstream := h.upstream.filter fun u => !p u }).sendUp

/-- Reads of a function or source are abandoned: one that has left keeps its tag until its completion is discarded (R577). -/
def State.abandonUp (s : State) (p : Nat → UpSrc → Bool) : State :=
  s.modHif fun h => { h with upstream := h.upstream.map (fun u => if p u.fn u.src then { u with abandoned := true } else u),
                             upWait := h.upWait.filter fun u => !p u.fn u.src }

/-- A source still waits for a tag. -/
def upWaits (s : State) (src : UpSrc) : Bool := s.hif.upWait.any fun u => u.src == src

/-- The fill of a slot that a push starts (R410). -/
def TSlot.newFill (t : TSlot) (p : TPush) (now : Nat) : TFill :=
  { buf := t.target, addr := t.base + (if t.target then 2 ^ t.sizeLog2 else 0), part := t.owner, stamp := p.stamp, len := p.len, got := 0,
    unacked := [], ackedAt := now, void := false }

/-- Starts a fill of a slot (R410). -/
def State.startFill (s : State) (n : Nat) (p : TPush) : State :=
  let t := trlSlot s n
  (s.modTrlSlot n fun t => { (t.setBuf t.target none) with fill := some (t.newFill p s.tmp.elapsed) }).upstream
    (servingFn s t.owner) (.trellis n) p.addr p.len

/-- Starts the pending push once no fill runs and its target has no pin (R412). -/
def State.tryPending (s : State) (n : Nat) : State :=
  let t := trlSlot s n
  match t.pending with
  | none => s
  | some p => if t.fill.isNone && t.free then (s.modTrlSlot n fun t => { t with pending := none }).startFill n p else s

/-- Releases the pins of a step (R414). -/
def State.unpin (s : State) (step : Nat) : State :=
  let strip : Option TBuf → Option TBuf := Option.map fun b => { b with pins := b.pins.filter fun i => i != step }
  let s := s.modTrl fun t => { t with slot := t.slot.map fun x => { x with buf0 := strip x.buf0, buf1 := strip x.buf1 } }
  s.each (List.range 64) fun s n => s.tryPending n

/-! ## Stream contexts (R371, R373, R377) -/

/-- The key of a context byte. -/
def ctxKey (c off : Nat) : Nat := 128 * c + off

/-- A little-endian field of a context. -/
def ctxField (s : State) (c off len : Nat) : Nat := leNat (mgetN 0 s.srv.ctx (ctxKey c off) len)

/-- Writes a little-endian field of a context. -/
def State.setCtxField (s : State) (c off len v : Nat) : State :=
  s.modSrv fun x => { x with ctx := msetN 0 x.ctx (ctxKey c off) (leBytes len v) }

/-- The contexts a step names. -/
def stepCtxs (t : Step) : List Nat := (List.range t.ctxCount).map (t.ctxFirst + ·)

/-- A context is open. -/
def ctxOpen (s : State) (c : Nat) : Bool := s.srv.opened.any fun o => o.ctx == c

/-- A step names a context. -/
def namesCtx (t : Step) (c : Nat) : Bool := decide (t.ctxFirst ≤ c) && decide (c < t.ctxFirst + t.ctxCount)

/-- Two steps name a common context. -/
def ctxClash (a b : Step) : Bool :=
  decide (0 < a.ctxCount) && decide (0 < b.ctxCount) && decide (a.ctxFirst < b.ctxFirst + b.ctxCount) &&
    decide (b.ctxFirst < a.ctxFirst + a.ctxCount)

/-- Opens a step's contexts and writes LAST_OPEN (R373). -/
def State.openCtxs (s : State) (t : Step) : State :=
  s.each (stepCtxs t) fun s c =>
    (s.modSrv fun x => { x with opened := x.opened ++ [{ ctx := c, step := t.id, c0 := t.cls == 0 }] }).setCtxField c 0x20 8 s.beat

/-! ## Completion records (R351 to R353) -/

/-- Records of a partition's completion ring that are not free: written and unread, or reserved by a step (R351). -/
def cqTaken (s : State) (p : Nat) : Nat :=
  let q := partSt s p
  let n := ringSize q.cqSize
  (q.cqTail + n - q.cqHead % n) % n + (s.stp.steps.filter fun t => t.part == p).length

/-- The ring holds a free record (R351). -/
def cqFree (s : State) (p : Nat) : Bool := decide (cqTaken s p < ringSize (partSt s p).cqSize - 1)

/-- Writes a completion record and signals its vector (R352, R573). While the link is down the record is lost and counted. -/
def State.writeRecord (s : State) (p : Nat) (irq : Bool) (r : CqRecord) : State :=
  let q := partSt s p
  let fn := servingFn s p
  let n := ringSize q.cqSize
  let s := if s.hif.linkUp then s.emit (.completion fn (q.cqBase.toNat + 32 * q.cqTail) { r with phase := q.cqPhase })
    else s.modFn fn fun h => { h with errCount := h.errCount + 1 }
  let s := s.modPart p fun q => { q with cqTail := (q.cqTail + 1) % n, cqPhase := if q.cqTail + 1 = n then !q.cqPhase else q.cqPhase }
  let s := s.partFrame p fun f => { f with steps := f.steps + 1 }
  if irq then s.signal fn (if fn = 0 then p else 0) else s

/-- STATUS of a step: the first code in the order of precedence (R353). -/
def Step.status (t : Step) : Code :=
  match t.fault with
  | some c => c
  | none => if t.dlMiss then .deadlineMiss else if t.tokenHeld then .tokenHeldAtExit else if t.slip then .tempoSlip else .ok

/-- The completion record of a step. -/
def Step.record (t : Step) : CqRecord :=
  { tag := t.tag, status := t.status, planId := t.runPlan, grade := t.grade, phase := false, cls := t.cls, overrun := t.overrun,
    start := if t.phase = .live then t.start else 0, charge := t.charge }

/-- Takes everything that runs for a step off the package: groups (whose tokens become FORFEIT), reductions, collectives, walks,
requests. -/
def State.clearStep (s : State) (id : Nat) : State :=
  let gs := s.tile.groups.filter fun e => e.2.step == id
  let s := (s.each gs fun s e => (s.dropGroup (e.1 / 8) (e.1 % 8)).forfeitTokens (e.1 / 8) (e.1 % 8)).dropJobs fun j => j.step == some id
  let s := s.dropWalks fun w => w.step == some id
  let s := s.modFab fun f => { f with reds := f.reds.filter fun r => r.step != id }
  let s := s.modRhl fun r => { r with colls := r.colls.filter (fun c => c.step != id),
                                      link := r.link.map fun x => { x with leases := x.leases.filter fun e => e.step != id } }
  let s := s.modSrv fun x => { x with opened := x.opened.filter (fun o => o.step != id),
                                      walkWait := x.walkWait.filter fun e => e.2.1 != id }
  s.abandonUp fun _ src => match src with
    | .kv i _ _ _ => i == id
    | _ => false

/-- The engine-beats an overrun adds at completion (R363). -/
def overCharge (s : State) (t : Step) : Nat := if t.phase = .live then (stepPlan s t).elim 0 (·.tiles) * t.overrun else 0

/-- A step completes (R352, R353, R363, R377, R414): its record is written, its contexts close, its pins are released. -/
def State.completeStep (s : State) (id : Nat) : State :=
  match getStep s id with
  | none => s
  | some t0 =>
    let extra := overCharge s t0
    let s := if extra = 0 then s else s.chargePart t0.part extra
    let t := { t0 with charge := t0.charge + extra }
    let s := if t.phase = .live ∧ collectiveStep s t = true then s.modRhl fun r =>
        { r with collCode := t.status, collBeat := BitVec.ofNat 24 s.beat, collPlan := BitVec.ofNat 16 t.runPlan }
      else s
    let s := (s.clearStep id).unpin id
    let s := s.modStp fun x => { x with steps := x.steps.filter (fun y => y.id != id),
                                        queue := vmodN x.queue (4 * t.part + t.cls) fun q => { q with recordAt := some s.tmp.frames } }
    s.writeRecord t.part t.irq t.record

/-- A step completes at once with a code, unless it already carries one. -/
def State.endStep (s : State) (id : Nat) (c : Code) : State := (s.faultStep id c).completeStep id

/-- A step that is charged nothing completes with a code (R65, R362, R418, R419, R453, R455). -/
def State.refuseStep (s : State) (id : Nat) (c : Code) : State := s.endStep id c

/-- Every step of a partition in some phase ends with a code. -/
def State.endPartSteps (s : State) (p : Nat) (which : Step → Bool) (c : Code) : State :=
  s.each ((s.stp.steps.filter fun t => t.part == p && which t).map (·.id)) fun s i => s.endStep i c

end Sys2Proof.Machine
end

