-- ==== Sys2Proof/Machine/Trellis.lean ====
section
/-! DEFINITION. Trellis (11): slots, pushes and fills, the ingest snapshot and the variant it selects, and the grid transfers. -/

namespace Sys2Proof.Machine

/-! ## Slots (R407 to R412) -/

/-- The function may act on a slot: the one that serves its owner (R407). -/
def trlOwner (s : State) (fn n : Nat) : Bool := (trlSlot s n).ownerValid && servingFn s (trlSlot s n).owner == fn

/-- A write that R407 ignores. -/
def trlDenied (s : State) : State := s.modTrl fun t => { t with denied := true }

/-- A write of OWNER or CFG discards both buffers and any pending push (Table 11-4). A fill in progress runs to completion (R412), but
its buffer is discarded too. -/
def TSlot.discard (t : TSlot) : TSlot :=
  { t with buf0 := none, buf1 := none, newest := none, pending := none, fill := t.fill.map fun f => { f with void := true } }

/-- The reads of a fill that is discarded are abandoned. -/
def dropFill (s : State) (n : Nat) : State :=
  s.abandonUp fun _ src => src == .trellis n

/-- A fill whose host read fails (Table 16-3): abandoned with HOST_ERR, its buffer is not complete; a pending push may start. -/
def failFill (s : State) (n : Nat) : State :=
  if (trlSlot s n).fill.isSome then ((dropFill s n).modTrlSlot n fun t => { t with fill := none, code := .hostErr }).tryPending n else s

/-- A write of TRL_SLOT_OWNER[n] (R407): only the PF. -/
def trlSetOwner (s : State) (fn n : Nat) (value : W32) : State :=
  if fn = 0 then s.modTrlSlot n fun t => { t.discard with ownerValid := value.getLsbD 31, owner := value.toNat % 8 }
  else trlDenied s

/-- TRL_SLOT_OWNER_WRITE (R407). -/
def execTrlSlotOwnerWrite (fn : Fn) (n : Fin 64) (value : W32) (s : State) : Host.Outcome State Fault Refusal :=
  .next (hostAccess s fn fun s => trlSetOwner s fn n value)

/-- A configuration that R408 allows. -/
def cfgOk (s : State) (p base size : Nat) : Bool :=
  decide (12 ≤ size) && decide (size ≤ 26) && (rangeCode s p base (2 * 2 ^ size)).isNone

/-- A write of TRL_SLOT_CFG[n] by a function (R407, R408). -/
def trlConfigure (s : State) (fn n : Nat) (value : BitVec 128) : State :=
  if trlOwner s fn n then
    let base := bitsOf value.toNat 127 64
    let size := bitsOf value.toNat 36 32
    if cfgOk s (trlSlot s n).owner base size then
      s.modTrlSlot n fun t =>
        { t.discard with base := base, sizeLog2 := size, configured := true, cfgWord := value, cfgStage := value,
                         fresh := bitsOf value.toNat 31 0, code := .ok }
    else s.modTrlSlot n fun t => { t with code := .trlSlotBad, cfgStage := value }
  else trlDenied s

/-- TRL_SLOT_CFG_WRITE (R408). -/
def execTrlSlotCfgWrite (fn : Fn) (n : Fin 64) (value : BitVec 128) (s : State) : Host.Outcome State Fault Refusal :=
  .next (hostAccess s fn fun s => trlConfigure s fn n value)

/-- A push to a slot (R409, R412): refused by its length, made pending, or started. -/
def trlPushTo (s : State) (fn n len : Nat) : State :=
  if trlOwner s fn n then
    let t := trlSlot s n
    if len = 0 ∨ t.configured = false ∨ 2 ^ t.sizeLog2 < len then s.modTrlSlot n fun t => { t with code := .trlPushBad }
    else
      let p : TPush := { addr := t.pushAddr.toNat, stamp := t.pushStamp.toNat, len := len }
      if t.fill.isNone && t.free && t.pending.isNone then (s.modTrlSlot n fun t => { t with code := .ok }).startFill n p
      else s.modTrlSlot n fun t => { t with code := .ok, pending := some p,
                                            superseded := if t.pending.isSome then t.superseded + 1 else t.superseded }
  else trlDenied s

/-- TRL_PUSH (R409). -/
def execTrlPush (fn : Fn) (n : Fin 64) (len : W32) (s : State) : Host.Outcome State Fault Refusal :=
  .next (hostAccess s fn fun s => trlPushTo s fn n len.toNat)

/-- Moves an ING flit into the fabric when the host port holds a credit of its slice, else it waits (R245). -/
def State.ingSend (s : State) (r : MemReq) : State :=
  let n := homeSlice (lineAddr r.line)
  if 0 < s.fab.ingCredit[n] then
    (s.modFab fun f => { f with ingCredit := vmod f.ingCredit n (· - 1) }).modGrn fun g => { g with reqs := g.reqs ++ [r] }
  else s.modFab fun f => { f with ingWait := f.ingWait ++ [r] }

/-- The 64-byte blocks of a byte range: address and bytes of each. -/
def blocksOf (a : Nat) (bs : List Byte) : List (Nat × List Byte) :=
  if bs.isEmpty then []
  else (List.range ((a + bs.length - 1) / 64 + 1 - a / 64)).map fun i =>
    let lo := max a (64 * (a / 64 + i))
    let hi := min (a + bs.length) (64 * (a / 64 + i) + 64)
    (lo, slice bs (lo - a) (hi - lo))

/-- A write of bytes within one line as an ING request. -/
def ingRequest (id a : Nat) (bs : List Byte) (part master : Nat) (poisoned : Bool) (src : ReqSrc) : MemReq :=
  let o := a % 256
  { id := id, line := a / 256, part := part, master := master, cls := 3, deadline := none, last := false, write := true,
    mask := maskRange o bs.length, data := List.replicate o 0 ++ bs ++ List.replicate (256 - o - bs.length) 0, poisoned := poisoned,
    die := none, step := none, src := src }

/-- The next bytes of a fill are written as ING flits, charged to master 89 (R410). -/
def fillData (s : State) (n : Nat) (data : List Byte) : State :=
  match (trlSlot s n).fill.filter fun _ => !upWaits s (.trellis n) with
  | none => s
  | some f =>
    let bs := data.take (f.len - f.got)
    let blocks := blocksOf (f.addr + f.got) bs
    let ids := (List.range blocks.length).map (s.nextId + ·)
    let s' := s.modTrlSlot n fun t => { t with fill := some { f with got := f.got + bs.length, unacked := f.unacked ++ ids } }
    let s' := if f.len ≤ f.got + bs.length then s'.endUp fun u => u.src == .trellis n
      else s'
    (s'.modNextId (· + blocks.length)).each (blocks.zip ids) fun s' e =>
      s'.ingSend (ingRequest e.2 e.1.1 e.1.2 f.part 89 false (.trellis n))

/-- TRELLIS_FILL_DATA (R410). -/
def execTrellisFillData (n : Fin 64) (data : List Byte) (s : State) : Host.Outcome State Fault Refusal := .next (fillData s n data)

/-- The fill ends in a buffer, which becomes the newest complete one unless it was discarded (R410 to R412). -/
def TSlot.complete (t : TSlot) (f : TFill) (beat : Nat) : TSlot :=
  if f.void then { t with fill := none }
  else { (t.setBuf f.buf (some { stamp := if f.stamp = 0 then beat else f.stamp, len := f.len, pins := [] })) with
         fill := none, newest := some f.buf }

/-! ## The ingest snapshot (R413 to R419) -/

/-- The newest complete buffer of a slot: which one, its stamp and length. -/
def newestOf (t : TSlot) : Option (Bool × TBuf) := t.newest.bind fun b => (t.buf b).map fun v => (b, v)

/-- The age of a buffer at a beat, saturating; a later stamp gives 0 (R415). -/
def ageOf (now stamp : Nat) : Nat := min (now - stamp) 0xFFFFFFFF

/-- Slots of a partition with a complete buffer. -/
def ingestSlots (s : State) (p : Nat) : List Nat :=
  idx 64 fun n => (trlSlot s n).ownerValid && (trlSlot s n).owner == p && (newestOf (trlSlot s n)).isSome

/-- FRESH_MASK of a partition (R415, Table 11-2). -/
def freshMask (s : State) (p : Nat) : W64 :=
  (ingestSlots s p).foldl (fun (m : W64) n =>
    match newestOf (trlSlot s n) with
    | some (_, b) => if ageOf s.beat b.stamp ≤ (trlSlot s n).fresh then m ||| BitVec.ofNat 64 (2 ^ n) else m
    | none => m) 0

/-- The DEGRADE entries that match a mask for a partition (R417). -/
def degradeMatches (es : List DegradeEntry) (p : Nat) (m : W64) : List Nat :=
  idx es.length fun i => (es[i]?).any fun e =>
    e.head.valid && (e.head.part == p || e.head.part == 0xFF) && (m ^^^ e.value) &&& e.mask == 0

/-- The winning DEGRADE entry (R112, R417). -/
def degradeWinner (es : List DegradeEntry) (p : Nat) (m : W64) : Option Nat :=
  let ns := degradeMatches es p m
  let prio := fun i => (es[i]?).elim 0 (·.head.prio)
  ns.find? fun i => prio i == maxN (ns.map prio)

/-- The plan record of a variant (R418). -/
def variantRec (s : State) (t : Step) (v : Nat) : Option PlanRec :=
  (planRec s (t.planId + v) t.part).filter fun r => r.variant == v

/-- The snapshot of a step: slot, buffer, stamp and length of each selected buffer (R414). -/
def snapOf (s : State) (p : Nat) : List (Nat × Nat × Nat × Nat) :=
  (ingestSlots s p).filterMap fun n => (newestOf (trlSlot s n)).map fun e => (n, b2n e.1, e.2.stamp, e.2.len)

/-- Address of a buffer of a slot (R408). -/
def bufAddr (t : TSlot) (b : Nat) : Nat := t.base + b * 2 ^ t.sizeLog2

/-- The ingest view (Table 11-2). -/
def ingestView (s : State) (p variant dstep entry : Nat) : List Byte :=
  let snap := snapOf s p
  leBytes 8 s.beat ++ leBytes 8 (freshMask s p).toNat ++ leBytes 1 variant ++ leBytes 1 dstep ++ leBytes 2 entry ++
    List.replicate 44 (0 : Byte) ++ (List.range 64).flatMap fun n =>
      match snap.find? fun e => e.1 == n with
      | some (_, b, stamp, len) => leBytes 8 (bufAddr (trlSlot s n) b) ++ leBytes 4 len ++ leBytes 4 (ageOf s.beat stamp)
      | none => leBytes 8 0 ++ leBytes 4 0 ++ leBytes 4 0xFFFFFFFF

/-- Pins the selected buffers for a step (R414). -/
def pinAll (s : State) (step p : Nat) : State :=
  s.each (snapOf s p) fun s e => s.modTrlSlot e.1 fun t =>
    t.setBuf (e.2.1 == 1) ((t.buf (e.2.1 == 1)).map fun b => { b with pins := b.pins ++ [step] })

/-- Which entry, variant and degradation step the table gives; none when no entry matches (R417, R419). -/
def ingestChoice (s : State) (p : Nat) : Option (Nat × Nat × Nat) :=
  match s.str.bind (·.degrade) with
  | none => some (0xFFFF, 0, 0)
  | some es => (degradeWinner es p (freshMask s p)).bind fun i => (es[i]?).map fun e => (i, e.variant, e.dstep)

/-- The C0 period of the structure in force, and whether a beat is a C0 slot start (R358). -/
def c0Period (s : State) : Nat := s.str.elim 1024 (·.c0Period)
def isC0Slot (s : State) (b : Nat) : Bool :=
  decide (s.stp.c0Phase ≤ bInF b) && (bInF b - s.stp.c0Phase) % c0Period s == 0

/-- The beat is the one before the start of an INGEST step, or the first beat reached after it (R413, R665). -/
def snapshotDue (s : State) (t : Step) : Bool :=
  t.ingest && t.snap.isNone &&
    ((t.phase == .placed && decide (t.start ≤ s.beat + 1)) ||
      (t.cls == 0 && t.phase == .read && isC0Slot s (s.beat + 1) && decide (t.notBefore ≤ s.beat + 1)))

/-- BUFFER_COMPLETE (R410 to R412): at a beat boundary after the last write was acknowledged the fill ends, and a pending push may
start. A snapshot of the beat comes first, since it does not see the buffer (R414). -/
def execBufferComplete (n : Fin 64) (s : State) : Host.Outcome State Fault Refusal :=
  .next <| match (trlSlot s n).fill with
  | none => s
  | some f =>
    let due := s.stp.steps.any fun t => t.part == (trlSlot s n).owner && snapshotDue s t
    if f.got = f.len ∧ f.unacked = [] ∧ f.ackedAt < s.tmp.elapsed ∧ due = false then
      (s.modTrlSlot n fun t => t.complete f s.beat).tryPending n
    else s

/-- The snapshot ends the step at its admission: no buffer is pinned. -/
def snapEnds (s : State) (t : Step) (c : Code) : State := s.modStep t.id fun x => { x with snap := some [], snapCode := some c }

/-- Takes the snapshot of a step (R413 to R419): its view is written by Trellis for the step (R416). -/
def takeSnapshot (s : State) (t : Step) : State :=
  match ingestChoice s t.part with
  | none => snapEnds s t .ingestNomatch
  | some (entry, v, d) =>
    match variantRec s t v with
    | none => snapEnds s t .ingestVariant
    | some r =>
      let snap := snapOf s t.part
      let view := ingestView s t.part v d entry
      ((pinAll s t.id t.part).modStep t.id fun x => { x with runPlan := r.id, dstep := d, snap := some snap }).post
        (.view t.id (t.argAddr + 0x40) view)

/-- The view of a step is being written. -/
def viewPending (s : State) (id : Nat) : Bool := s.grn.jobs.any fun e => match e.2 with
  | .view i _ _ => i == id
  | _ => false

/-- The snapshot of a step is discarded, with its pins and its view (R413). -/
def dropSnap (s : State) (t : Step) : State :=
  ((s.dropJobs fun j => match j with
    | .view i _ _ => i == t.id
    | _ => false).unpin t.id).modStep t.id fun x => { x with snap := none, snapCode := none, runPlan := x.planId, dstep := 0 }

/-- A step whose snapshot ends it completes with that code (R418, R419). -/
def refuseIngest (s : State) (t : Step) (c : Code) : State :=
  (if c = .ingestNomatch then s.modTrl fun x => { x with noMatch := x.noMatch + 1 } else s).refuseStep t.id c

/-- Writes the view of a step (R416), for the step and without a deadline: it is no plan transfer. -/
def writeView (s : State) (step addr : Nat) (bytes : List Byte) : State := match getStep s step with
  | none => s
  | some t => s.wrFor { master := 89, cls := t.cls, deadline := none, step := some step } step addr bytes

/-! ## Grids (R422 to R426) -/

/-- A grid descriptor (Table 11-3). -/
structure GridDesc where
  op : Nat
  mode : Nat
  slot : Nat
  pch : Nat
  w : Nat
  h : Nat
  c : Nat
  chFirst : Nat
  cell : W32
  cos : W32
  sin : W32
  tx : W32
  ty : W32
  dst : Nat
  src : Nat
  fill : W32
  reserved : Bool
  deriving DecidableEq, Repr

/-- Reads a grid descriptor from its 64 bytes. -/
def gridDesc (b : List Byte) : GridDesc :=
  let f := fieldAt b
  let v := fun o => BitVec.ofNat 32 (fieldAt b o 4)
  { op := f 0 1, mode := f 1 1, slot := f 2 1, pch := f 3 1, w := f 4 2, h := f 6 2, c := f 8 2, chFirst := f 0xA 2, cell := v 0xC,
    cos := v 0x10, sin := v 0x14, tx := v 0x18, ty := v 0x1C, dst := f 0x20 8, src := f 0x28 8, fill := v 0x30,
    reserved := (b.drop 0x34).any (· != 0) }

/-- An FP32 value above 0. -/
def fpPositive (v : W32) : Bool := match fpDecode fp32Fmt v.toNat with
  | .fin _ u => decide (0 < u)
  | .inf n => !n
  | .nan => false

/-- The descriptor's fields lie in the ranges of Table 11-3, and SHIFT has COS 1 and SIN 0 (R422, R426). -/
def gridOk (d : GridDesc) (op : Nat) : Bool :=
  d.op == op && decide (d.mode ≤ 2) && decide (d.slot < 64) && decide (1 ≤ d.pch) && decide (d.pch ≤ 16) && decide (1 ≤ d.w) &&
    decide (d.w ≤ 1024) && decide (1 ≤ d.h) && decide (d.h ≤ 1024) && decide (1 ≤ d.c) && decide (d.c ≤ 256) &&
    decide (d.chFirst + d.pch ≤ d.c) && fpPositive d.cell && !d.reserved &&
    (op != 1 || (d.cos == 0x3F800000 && (d.sin == 0 || d.sin == 0x80000000)))

/-- Bytes of a grid. -/
def gridBytes (d : GridDesc) : Nat := d.h * d.w * d.c * 4

/-- FP32 negation, product and sum with one rounding each (R424). -/
def fp32Neg (a : W32) : W32 := a ^^^ 0x80000000
def fp32Mul (a b : W32) : W32 :=
  BitVec.ofNat 32 (fpEncode fp32Fmt ((fpDecode fp32Fmt a.toNat).mul (fpDecode fp32Fmt b.toNat)))

/-- A coordinate of a point in its frame (R424). -/
def rotated (a x b y t : W32) : W32 := fp32Add (fp32Add (fp32Mul a x) (fp32Mul b y)) t

/-- floor(u / cell), or none for a NaN or an infinite coordinate, which lies outside every grid. -/
def cellIndex (u cell : W32) : Option Int :=
  match fpDecode fp32Fmt u.toNat, fpDecode fp32Fmt cell.toNat with
  | .fin _ a, .fin _ c => some (a / c)
  | .fin _ _, .inf _ => some 0
  | _, _ => none

/-- The nearest integer to t / cell, ties to even (R426); of a NaN or an infinite offset it is free. -/
def nearestCells (t cell : W32) : Int :=
  match fpDecode fp32Fmt t.toNat, fpDecode fp32Fmt cell.toNat with
  | .fin _ a, .fin _ c => if a < 0 then -(rneDiv a.natAbs c.natAbs : Int) else (rneDiv a.natAbs c.natAbs : Int)
  | .fin _ _, .inf _ => 0
  | _, _ => Config.gridShift t cell

/-- The landing cell of a point, when it lies in the grid (R424): row and column. -/
def landing (d : GridDesc) (x y : W32) : Option (Nat × Nat) :=
  let u := rotated d.cos x (fp32Neg d.sin) y d.tx
  let v := rotated d.sin x d.cos y d.ty
  match cellIndex u d.cell, cellIndex v d.cell with
  | some i, some j =>
    let col := i + (d.w / 2 : Nat)
    let row := j + (d.h / 2 : Nat)
    if 0 ≤ col ∧ col < d.w ∧ 0 ≤ row ∧ row < d.h then some (row.toNat, col.toNat) else none
  | _, _ => none

/-- What a channel holds after a point's value (R425): LAST, MAX, SUM. -/
def gridMerge (mode : Nat) (old new : W32) : W32 :=
  if mode = 0 then new
  else if mode = 1 then
    match fpDecode fp32Fmt old.toNat, fpDecode fp32Fmt new.toNat with
    | .nan, _ => 0x7FC00000
    | _, .nan => 0x7FC00000
    | .inf n, _ => if n then new else old
    | _, .inf n => if n then old else new
    | .fin _ a, .fin _ b => if a < b then new else old
  else fp32Add old new

/-- The device address of a channel of a cell. -/
def cellAddr (d : GridDesc) (grid r c k : Nat) : Nat := grid + ((r * d.w + c) * d.c + k) * 4

/-- What a channel of a cell takes from a point (R425): LAST writes it, MAX and SUM read it first. -/
def applyChannel (w : Who) (step mode a : Nat) (new : W32) (s : State) : State :=
  if mode = 0 then s.wrFor w step a (leBytes 4 new.toNat)
  else
    let (s, r) := s.rd w a 4
    match r.code with
    | some c => s.faultStep step c
    | none => s.wrFor w step a (leBytes 4 (gridMerge mode (BitVec.ofNat 32 (leNat r.bytes)) new).toNat)

/-- Applies one point (R424, R425); a point outside the grid is dropped and counted. -/
def applyPoint (w : Who) (step : Nat) (s : State) (d : GridDesc) (pt : List Byte) : State :=
  let f := fun o => BitVec.ofNat 32 (fieldAt pt o 4)
  match landing d (f 0) (f 4) with
  | none => s.modTrl fun t => { t with dropped := t.dropped + 1 }
  | some (r, c) =>
    s.each (List.range d.pch) fun s j => applyChannel w step d.mode (cellAddr d d.dst r c (d.chFirst + j)) (f (8 + 4 * j)) s

/-- The code of a grid descriptor, or the grid's (R422, R340, R283). -/
def gridCode (s : State) (t : Step) (op : Nat) (r : EngGot) : Code ⊕ GridDesc := match r.code with
  | some c => .inl c
  | none =>
    let d := gridDesc r.bytes
    if gridOk d op then
      match rangeCode s t.part d.dst (gridBytes d), (if op = 1 then rangeCode s t.part d.src (gridBytes d) else none) with
      | some c, _ => .inl c
      | _, some c => .inl c
      | none, none => .inr d
    else .inl .trlGridBad

/-- Reads the descriptor of a grid transfer and makes its checks (R422, R340, R283): the descriptor or the step's code. -/
def gridStart (s : State) (t : Step) (w : Who) (addr op : Nat) : State × (Code ⊕ GridDesc) :=
  match rangeCode s t.part addr 64 with
  | some c => (s, .inl c)
  | none =>
    let (s, r) := s.rd w addr 64
    (s, gridCode s t op r)

/-- The points of a buffer are applied in order (R423). -/
def scatterPoints (s : State) (t : Step) (w : Who) (d : GridDesc) (a len : Nat) : State :=
  let size := 8 + 4 * d.pch
  let (s, r) := s.rd w a len
  match r.code with
  | some c => s.faultStep t.id c
  | none => s.each (List.range (len / size)) fun s i => applyPoint w t.id s d (slice r.bytes (size * i) size)

/-- TRL.SCATTER of a step (R423 to R425). -/
def trlScatter (s : State) (t : Step) (w : Who) (addr : Nat) : State :=
  match gridStart s t w addr 0 with
  | (s, .inl c) => s.faultStep t.id c
  | (s, .inr d) =>
    match (t.snap.getD []).find? fun e => e.1 == d.slot with
    | none => s
    | some (n, b, _, len) => scatterPoints s t w d (bufAddr (trlSlot s n) b) len

/-- The bytes a destination cell of a SHIFT takes (R426), of the source grid's bytes. -/
def shiftedCell (d : GridDesc) (src : List Byte) (dx dy : Int) (r c : Nat) : List Byte :=
  let sr := (r : Int) - dy
  let sc := (c : Int) - dx
  if 0 ≤ sr ∧ sr < d.h ∧ 0 ≤ sc ∧ sc < d.w then slice src (cellAddr d 0 sr.toNat sc.toNat 0) (4 * d.c)
  else (List.range d.c).flatMap fun _ => leBytes 4 d.fill.toNat

/-- The cells of a SHIFT are written in order. -/
def shiftCells (s : State) (t : Step) (w : Who) (d : GridDesc) (src : List Byte) : State :=
  let dx := nearestCells d.tx d.cell
  let dy := nearestCells d.ty d.cell
  s.each (List.range (d.h * d.w)) fun s i =>
    s.wrFor w t.id (cellAddr d d.dst (i / d.w) (i % d.w) 0) (shiftedCell d src dx dy (i / d.w) (i % d.w))

/-- TRL.SHIFT of a step (R426). -/
def trlShift (s : State) (t : Step) (w : Who) (addr : Nat) : State :=
  match gridStart s t w addr 1 with
  | (s, .inl c) => s.faultStep t.id c
  | (s, .inr d) =>
    let n := gridBytes d
    if d.src < d.dst + n ∧ d.dst < d.src + n then s.faultStep t.id .trlOverlap
    else
      let (s, r) := s.rd w d.src n
      match r.code with
      | some c => s.faultStep t.id c
      | none => shiftCells s t w d r.bytes

end Sys2Proof.Machine
end

