-- ==== Sys2Proof/Machine/Serving.lean ====
section
/-! DEFINITION. The serving complex (10): host commands on stream contexts, KV pages, Rootstock walks, Winnow. -/

namespace Sys2Proof.Machine

/-! ## Host commands (R379 to R382) -/

/-- Changes the serving registers of a function. -/
def State.modSrvFn (s : State) (fn : Nat) (f : SrvFn → SrvFn) : State := s.modSrv fun x => { x with fn := vmodN x.fn fn f }

/-- The function may act on the context (R379). -/
def ctxAllowed (s : State) (fn c : Nat) : Bool :=
  fn == 0 || (match fnPart s fn with
    | some p => (partDesc s p).any fun d => decide (d.ctxBase ≤ c) && decide (c < d.ctxBase + d.ctxCount)
    | none => false)

/-- Sets the code of the function's last context command. -/
def ctxCode (s : State) (fn : Nat) (c : Code) : State := s.modSrvFn fn fun x => { x with code := c }

/-- The 32 words of a context. -/
def ctxWords (s : State) (c : Nat) : Vector W32 32 := Vector.ofFn fun i => BitVec.ofNat 32 (ctxField s c (4 * i) 4)

/-- The serving registers of a function. -/
def srvFn (s : State) (fn : Nat) : SrvFn := vat s.srv.fn fn {}

/-- The READ command (R380). -/
def ctxRead (s : State) (fn : Nat) : State :=
  let c := (srvFn s fn).sel
  if ctxAllowed s fn c then s.modSrvFn fn fun x => { x with data := ctxWords s c, code := .ok } else ctxCode s fn .ctxRange

/-- SRV_CTX_READ (R380, R381). -/
def execSrvCtxRead (fn : Fn) (s : State) : Host.Outcome State Fault Refusal := .next (hostAccess s fn fun s => ctxRead s fn)

/-- The WRITE command (R380, R381). -/
def ctxWrite (s : State) (fn : Nat) : State :=
  let r := srvFn s fn
  if !ctxAllowed s fn r.sel then ctxCode s fn .ctxRange
  else if ctxOpen s r.sel then ctxCode s fn .ctxOpen
  else ctxCode (s.modSrv fun x => { x with ctx := msetN 0 x.ctx (ctxKey r.sel 0) (r.data.toList.flatMap fun w => leBytes 4 w.toNat) })
    fn .ok

/-- SRV_CTX_WRITE (R380, R381). -/
def execSrvCtxWrite (fn : Fn) (s : State) : Host.Outcome State Fault Refusal := .next (hostAccess s fn fun s => ctxWrite s fn)

/-- The TRUNCATE command (R380 to R382). -/
def ctxTruncate (s : State) (fn : Nat) : State :=
  let r := srvFn s fn
  if !ctxAllowed s fn r.sel then ctxCode s fn .ctxRange
  else if ctxOpen s r.sel then ctxCode s fn .ctxOpen
  else if ctxField s r.sel 8 8 < r.truncLen.toNat then ctxCode s fn .truncBad
  else ctxCode (s.setCtxField r.sel 8 8 r.truncLen.toNat) fn .ok

/-- SRV_CTX_TRUNCATE (R380 to R382). -/
def execSrvCtxTruncate (fn : Fn) (s : State) : Host.Outcome State Fault Refusal := .next (hostAccess s fn fun s => ctxTruncate s fn)

/-! ## KV pages (R383 to R387) -/

/-- Bit i of a context's CFLAGS. -/
def ctxFlag (s : State) (c i : Nat) : Bool := bitOf (ctxField s c 0 1) i

/-- Bytes of a token of a context (Table 10-3). -/
def tokenBytes (s : State) (c : Nat) : Nat := 65536 / 2 ^ ctxField s c 1 1

/-- Where the link of a page-list block lies in it (R383). -/
def pageLink : Nat := 0xFF8

/-- The device address of the block that a page-list block links to (R384): the code where a link is 0 or out of reach. -/
def pageNext (w : Who) (p a : Nat) (s : State) : State × (Code ⊕ Nat) :=
  if a = 0 then (s, .inl .pageMissing)
  else match rangeCode s p (a + pageLink) 8 with
    | some c => (s, .inl c)
    | none =>
      let (s, r) := s.rd w (a + pageLink) 8
      (s, match r.code with
        | some c => .inl c
        | none => .inr (leNat r.bytes))

/-- The device address of the page-list block `k` links along the chain (R384). -/
def pageBlock (w : Who) (p : Nat) : Nat → Nat → State → State × (Code ⊕ Nat)
  | a, 0, s => (s, if a = 0 then .inl .pageMissing else .inr a)
  | a, k + 1, s =>
    let x := pageNext w p a s
    match x.2 with
    | .inl c => (x.1, .inl c)
    | .inr b => pageBlock w p b k x.1

/-- What a page entry names (R383, R385): the page address and HOST. -/
def pageEntry (r : EngGot) : Code ⊕ (Nat × Bool) := match r.code with
  | some c => .inl c
  | none =>
    let v := leNat r.bytes
    if bitOf v 0 then .inr (v / 65536 * 65536, bitOf v 1) else .inl .pageMissing

/-- Where a resolution of block `k` starts: at the cursor where that lies at or before it, else at LIST_HEAD (R384). -/
def listStart (s : State) (c k : Nat) : Nat × Nat :=
  (((s.srv.opened.find? fun o => o.ctx == c).bind (·.cursor)).filter fun e => decide (e.1 ≤ k)).getD (0, ctxField s c 0x18 8)

/-- An open context keeps a cursor on its last resolved block (R384). -/
def State.setCursor (s : State) (c k a : Nat) : State :=
  s.modSrv fun x => { x with opened := x.opened.map fun o => if o.ctx = c then { o with cursor := some (k, a) } else o }

/-- Resolves page entry `i` of a context (R384, R385): the page address and HOST, or the step's code. -/
def resolvePage (s : State) (w : Who) (p c i : Nat) : State × (Code ⊕ (Nat × Bool)) :=
  if ctxField s c 0x10 8 ≤ i then (s, .inl .pageMissing)
  else
    let (k, head) := listStart s c (i / 511)
    match pageBlock w p head (i / 511 - k) s with
    | (s, .inl e) => (s, .inl e)
    | (s, .inr b) =>
      let s := s.setCursor c (i / 511) b
      let a := b + 8 * (i % 511)
      match rangeCode s p a 8 with
      | some e => (s, .inl e)
      | none =>
        let (s, r) := s.rd w a 8
        (s, pageEntry r)

/-- A place moved on by some bytes. -/
def KvPlace.shift (k : KvPlace) (n : Nat) : KvPlace := match k with
  | .local_ t a => .local_ t (a + n)
  | .device a => .device (a + n)

/-- Writes bytes to a place. -/
def kvPut (w : Who) (step : Nat) (s : State) (k : KvPlace) (bs : List Byte) : State := match k with
  | .local_ t a => s.writeLocal t a bs
  | .device a => s.wrFor w step a bs

/-- Reads bytes from a place. -/
def kvGet (w : Who) (s : State) (k : KvPlace) (n : Nat) : State × EngGot := match k with
  | .local_ t a => (s, { bytes := readLocal s t a n, code := none, good := n })
  | .device a => s.rd w a n

/-- The code of a place that the step may not use: outside local memory, outside the partition (R340), or a tile the grade does
not name (R669). -/
def kvPlaceCode (s : State) (t : Step) (k : KvPlace) (n : Nat) : Option Code := match k with
  | .local_ tile a =>
    if !((runGrade s t).any fun g => g.tiles.contains tile) then some .planBodyBad
    else if localSize < a + n then some .localRange else none
  | .device a => rangeCode s t.part a n

/-- The step of a transfer has a fault, which ends the transfer. -/
def stepFaulted (s : State) (id : Nat) : Bool := ((getStep s id).bind (·.fault)).isSome

/-- Where a token of a context lies in its page entry (Table 10-3). -/
def tokenPage (s : State) (c token : Nat) : Nat := token / 2 ^ ctxField s c 1 1
def tokenAddr (s : State) (c token page : Nat) : Nat := page + token % 2 ^ ctxField s c 1 1 * tokenBytes s c

/-- A token is read from a host page, only with HOST_OK (R386). -/
def gatherHost (s : State) (t : Step) (w : Who) (c a n : Nat) (k : KvPlace) : State :=
  if ctxFlag s c 1 then s.upstream (servingFn s t.part) (match k with
    | .local_ tile la => .kv t.id (some tile) la w.deadline
    | .device d => .kv t.id none d w.deadline) a n
  else s.faultStep t.id .pageHost

/-- A token is read from a page in device memory. -/
def gatherDevice (s : State) (t : Step) (w : Who) (a n : Nat) (k : KvPlace) : State :=
  match rangeCode s t.part a n with
  | some e => s.faultStep t.id e
  | none =>
    let (s, r) := s.rd w a n
    match r.code with
    | some e => s.faultStep t.id e
    | none => kvPut w t.id s k r.bytes

/-- One token of a gather: from its page to the place, or a read of a host page (R386). -/
def gatherToken (s : State) (t : Step) (w : Who) (c token : Nat) (k : KvPlace) : State :=
  if stepFaulted s t.id then s
  else
    let n := tokenBytes s c
    match resolvePage s w t.part c (tokenPage s c token) with
    | (s, .inl e) => s.faultStep t.id e
    | (s, .inr (page, host)) =>
      if host then gatherHost s t w c (tokenAddr s c token page) n k else gatherDevice s t w (tokenAddr s c token page) n k

/-- A token is written into a page in device memory. -/
def scatterDevice (s : State) (t : Step) (w : Who) (a n : Nat) (k : KvPlace) : State :=
  match rangeCode s t.part a n with
  | some e => s.faultStep t.id e
  | none =>
    let (s, r) := kvGet w s k n
    match r.code with
    | some e => s.faultStep t.id e
    | none => s.wrFor w t.id a r.bytes

/-- One token of a scatter: into its page, never a host page (R386). -/
def scatterToken (s : State) (t : Step) (w : Who) (c token : Nat) (k : KvPlace) : State :=
  if stepFaulted s t.id then s
  else
    match resolvePage s w t.part c (tokenPage s c token) with
    | (s, .inl e) => s.faultStep t.id e
    | (s, .inr (page, host)) =>
      if host then s.faultStep t.id .pageHost else scatterDevice s t w (tokenAddr s c token page) (tokenBytes s c) k

/-- The checks a KV transfer makes on its context (R378): in the step's range, VALID. -/
def kvCode (s : State) (t : Step) (c : Nat) : Option Code :=
  if !namesCtx t c then some .ctxRange else if !ctxFlag s c 0 then some .ctxInvalid else none

/-- KV.GATHER and KV.SCATTER of a run of tokens (R385, R386). -/
def kvTransfer (s : State) (t : Step) (w : Who) (gather : Bool) (c token count : Nat) (k : KvPlace) : State :=
  match kvCode s t c, kvPlaceCode s t k (count * tokenBytes s c) with
  | some e, _ => s.faultStep t.id e
  | _, some e => s.faultStep t.id e
  | none, none =>
    s.each (List.range count) fun s i =>
      let k' := k.shift (i * tokenBytes s c)
      if gather then gatherToken s t w c (token + i) k' else scatterToken s t w c (token + i) k'

/-! ## Rootstock (R388 to R395) -/

/-- Changes a walk. -/
def State.modWalk (s : State) (slot : Nat) (f : Walk → Walk) : State :=
  s.modSrv fun x => { x with walks := x.walks.map fun w => if w.slot = slot then f w else w }

/-- The walk in a slot. -/
def walkIn (s : State) (slot : Nat) : Option Walk := s.srv.walks.find? fun w => w.slot == slot

/-- The lowest free slot among some. -/
def freeSlot (s : State) (slots : List Nat) : Option Nat := slots.find? fun n => s.srv.walks.all fun w => w.slot != n

/-- Starts a walk (R389): its request is read first. -/
def startWalk (s : State) (slot part : Nat) (fn step last : Option Nat) (req : Nat) : State :=
  let w : Walk := { slot := slot, part := part, fn := fn, step := step, last := last, tokensAddr := 0, tokenCount := 0, pathMax := 0,
                    pathAddr := 0, resultAddr := none, node := 0, matched := 0, depth := 0, partialN := 0, start := s.beat,
                    at_ := .request req }
  (s.modSrv fun x => { x with walks := x.walks ++ [w] }).post (.walkRequest slot)

/-- For whom a walk makes its accesses: a plan walk for its step, a host walk as class C2 (R324, R325). -/
def walkWho (s : State) (w : Walk) : Who :=
  let t := w.step.bind (getStep s)
  { master := 88, cls := t.elim 2 (·.cls), deadline := t.bind fun t => w.last.bind (planDeadline t), step := w.step }

/-- A walk as its request sets it up (R389, R390). -/
def Walk.asked (w : Walk) (b : List Byte) : Walk :=
  { w with tokensAddr := fieldAt b 8 8, tokenCount := fieldAt b 0x10 4, pathMax := fieldAt b 0x14 4, pathAddr := fieldAt b 0x18 8,
           resultAddr := some (fieldAt b 0x20 8), node := fieldAt b 0 8, at_ := .root }

/-- The request of the walk in a slot is read. -/
def walkRequest (s : State) (slot : Nat) : State := match walkIn s slot with
  | none => s
  | some w =>
    match w.at_ with
    | .request req =>
      let (s, r) := s.rd (walkWho s w) req 64
      s.modWalk slot fun w => match r.code with
        | some c => { w with at_ := .ended c }
        | none => w.asked r.bytes
    | _ => s

/-- A host submission whose earlier writes are acknowledged (R394): its partition is the VF's own, or for the PF the one whose
memory holds the request (log 22). -/
def submitWalk (s : State) (fn req : Nat) : State :=
  let part := if fn = 0 then (chanPart s (chanOf req)).filter fun p => servingFn s p == 0 else fnPart s fn
  let status := fun (s : State) c => s.modSrvFn fn fun x => { x with walkStatus := c }
  match part with
  | none => status s .partRange
  | some p =>
    match rangeCode s p req 64, freeSlot s ((List.range 6).map (8 * p + 2 + ·)) with
    | some c, _ => status s c
    | none, none => status s .rtkBusy
    | none, some n => startWalk (status s .ok) n p (some fn) none none req

/-- Posted writes of a function that are not yet acknowledged (R348). -/
def postedOf (s : State) (fn : Nat) : List Nat := (s.hif.posted.filter fun e => e.1 == fn).map (·.2)

/-- A write of 1 to RTK_WALK_GO (R394). -/
def walkGo (s : State) (fn : Nat) : State :=
  let req := (vat s.srv.fn fn {}).walkReq.toNat
  match postedOf s fn with
  | [] => submitWalk s fn req
  | ws => s.modSrv fun x => { x with goWait := x.goWait ++ [(fn, req, ws)] }

/-- Submissions whose earlier writes are now acknowledged are read (R394). -/
def settleGo (s : State) : State :=
  let ready := fun (e : Nat × Nat × List Nat) => e.2.2.all fun i => !(s.hif.posted.contains (e.1, i))
  (s.modSrv fun x => { x with goWait := x.goWait.filter fun e => !ready e }).each (s.srv.goWait.filter ready) fun s e =>
    submitWalk s e.1 e.2.1

/-- RTK.WALK of a plan (R393, R395): one of the partition's two plan slots, or a wait for one. -/
def planWalk (s : State) (t : Step) (last req : Nat) : State :=
  match rangeCode s t.part req 64 with
  | some c => s.faultStep t.id c
  | none =>
    match freeSlot s [8 * t.part, 8 * t.part + 1] with
    | some n => startWalk s n t.part none (some t.id) (some last) req
    | none => s.modSrv fun x => { x with walkWait := x.walkWait ++ [(t.part, t.id, last, req)] }

/-- The lowest-index child entry of a node with ADDR not 0 and the token as FIRST_TOKEN (R390). -/
def childOf (b : List Byte) (token : Nat) : Option Nat :=
  ((List.range 12).find? fun i => fieldAt b (0x60 + 12 * i + 4) 8 != 0 && fieldAt b (0x60 + 12 * i) 4 == token).map fun i =>
    fieldAt b (0x60 + 12 * i + 4) 8

/-- Where a walk goes on from a child list for a token (R390, R391). -/
def nextNode (b : List Byte) (exts token : Nat) : WalkAt := match childOf b token with
  | some a => .child a
  | none =>
    let e := fieldAt b 0xF0 8
    if e = 0 then .ended .ok else if 64 ≤ exts then .ended .rtkNodeBad else .scan e (exts + 1)

/-- Where a walk goes from a node it has read and stands on, or from an EXT node of it (R390, R391). -/
def walkFrom (s : State) (w : Walk) (b : List Byte) (exts : Nat) : State × WalkAt :=
  if w.matched = w.tokenCount then (s, .ended .ok)
  else
    match rangeCode s w.part (w.tokensAddr + 4 * w.matched) 4 with
    | some c => (s, .ended c)
    | none =>
      let (s, r) := s.rd (walkWho s w) (w.tokensAddr + 4 * w.matched) 4
      (s, match r.code with
        | some c => .ended c
        | none => nextNode b exts (leNat r.bytes))

/-- Moves a walk to where it goes next. -/
def State.walkOn (s : State) (w : Walk) (b : List Byte) (exts : Nat) : State :=
  let (s, at_) := walkFrom s w b exts
  s.modWalk w.slot fun _ => { w with at_ := at_ }

/-- Leading tokens of a child that equal the input tokens (R390). -/
def leadMatch (b tokens : List Byte) : Nat → Nat → Nat
  | 0, m => m
  | k + 1, m => if 4 * m < tokens.length ∧ fieldAt b (0x20 + 4 * m) 4 = fieldAt tokens (4 * m) 4 then leadMatch b tokens k (m + 1) else m

/-- A child has matched in full (R390): its path entry and hit stamp are written, and the walk goes on from it. -/
def walkMatched (s : State) (w : Walk) (a : Nat) (b : List Byte) : State :=
  let who := walkWho s w
  let pathA := w.pathAddr + 8 * w.depth
  let path := decide (w.depth + 1 ≤ w.pathMax)
  match (if path then rangeCode s w.part pathA 8 else none) with
  | some c => s.modWalk w.slot fun w => { w with at_ := .ended c }
  | none =>
    let (s, r) := if path then s.wr who pathA (leBytes 8 a) else (s, EngGot.none 0)
    let (s, h) := s.wr who (a + 8) (leBytes 8 w.start)
    match r.code.orElse fun _ => h.code with
    | some c => s.modWalk w.slot fun w => { w with at_ := .ended c }
    | none => s.walkOn { w with matched := w.matched + fieldAt b 1 1, depth := w.depth + 1, node := a } b 0

/-- A walk that has read a child compares its tokens with the input (R390, R391). -/
def walkChild (s : State) (w : Walk) (a : Nat) (b : List Byte) : State :=
  let n := fieldAt b 1 1
  let stop := fun (s : State) c => s.modWalk w.slot fun w => { w with at_ := .ended c }
  if !bitOf (fieldAt b 0 1) 0 || bitOf (fieldAt b 0 1) 1 || n == 0 then stop s .rtkNodeBad
  else
    let want := 4 * min n (w.tokenCount - w.matched)
    match rangeCode s w.part (w.tokensAddr + 4 * w.matched) want with
    | some c => stop s c
    | none =>
      let (s, r) := s.rd (walkWho s w) (w.tokensAddr + 4 * w.matched) want
      match r.code with
      | some c => stop s c
      | none =>
        let m := leadMatch b r.bytes (min n 16) 0
        if m < n then s.modWalk w.slot fun w => { w with partialN := m, at_ := .ended .ok } else walkMatched s w a b

/-- What a walk does with a node it has read. -/
def walkNodeRead (s : State) (w : Walk) (b : List Byte) : State := match w.at_ with
  | .root => if bitOf (fieldAt b 0 1) 0 then s.walkOn w b 0 else s.modWalk w.slot fun w => { w with at_ := .ended .rtkNodeBad }
  | .scan _ n => s.walkOn w b n
  | .child a => walkChild s w a b
  | _ => s

/-- The node a walk reads next. -/
def Walk.nodeAddr (w : Walk) : Option Nat := match w.at_ with
  | .root => some w.node
  | .scan a _ => some a
  | .child a => some a
  | _ => none

/-- The walk has ended, and its result is still to be written. -/
def Walk.over (w : Walk) : Bool := match w.at_ with
  | .ended _ => true
  | _ => false

/-- One node read of the walk in a slot (R390, R391, R398). -/
def walkStep (s : State) (slot : Nat) : State := match walkIn s slot with
  | none => s
  | some w =>
    match w.nodeAddr with
    | none => s
    | some a =>
      match rangeCode s w.part a 256 with
      | some _ => s.modWalk slot fun w => { w with at_ := .ended .partRange }
      | none =>
        let (s, r) := s.rd (walkWho s w) a 256
        match r.code with
        | some c => s.modWalk slot fun w => { w with at_ := .ended c }
        | none => walkNodeRead s w r.bytes

/-- The result of a walk (R392). -/
def walkResult (w : Walk) (c : Code) : List Byte :=
  leBytes 2 c.num.toNat ++ leBytes 1 1 ++ leBytes 1 0 ++ leBytes 4 w.depth ++ leBytes 8 w.matched ++ leBytes 8 w.node ++
    leBytes 1 w.partialN ++ List.replicate 7 (0 : Byte)

/-- A code that completes the step of a plan walk: the access was not made, or brought nothing (R340, R269, R283, R277, R228). -/
def walkFaults (c : Code) : Bool :=
  c == .partRange || c == .deviceRange || c == .poison || c == .memChannelFailed || c == .deadRead

/-- The slot of a walk is freed, and a plan walk that waits for it takes it (R395). -/
def freeWalkSlot (s : State) (slot part : Nat) : State :=
  if slot % 8 < 2 then
    match s.srv.walkWait.find? fun e => e.1 == part with
    | none => s
    | some e => startWalk (s.modSrv fun x => { x with walkWait := dropFirst (fun y => y == e) x.walkWait }) slot part none
        (some e.2.1) (some e.2.2.1) e.2.2.2
  else s

/-- A walk that has ended is over (R392, R395): its function is signalled, its step takes the code, its slot is freed. -/
def walkOver (s : State) (w : Walk) (c : Code) : State :=
  let s := s.modSrv fun x => { x with walks := x.walks.filter (fun v => v.slot != w.slot), walkCount := x.walkCount + 1 }
  let s := match w.fn with
    | some f => s.signal f (if f = 0 then 11 else 4)
    | none => s
  let s := match w.step with
    | some i => if walkFaults c then s.faultStep i c else s
    | none => s
  freeWalkSlot s w.slot w.part

/-- The result of the walk in a slot is written, where it can be (R392), and the walk is over. -/
def walkDone (s : State) (slot : Nat) : State := match walkIn s slot with
  | none => s
  | some w =>
    match w.at_ with
    | .ended c =>
      match w.resultAddr.filter fun a => (rangeCode s w.part a 32).isNone with
      | none => walkOver s w c
      | some a =>
        let (s, r) := s.wr (walkWho s w) a (walkResult w c)
        walkOver s w (r.code.getD c)
    | _ => s

/-- Start beat of the oldest walk in flight, or the current beat (Table 10-6). -/
def oldestWalk (s : State) : Nat := s.srv.walks.foldl (fun b w => min b w.start) s.beat

/-! ## Winnow (R400 to R405) -/

/-- A probability or uniform value that a stochastic record may hold (R404). -/
def probOk (v : Nat) : Bool := match fpDecode fp32Fmt v with
  | .nan => false
  | .inf n => !n
  | .fin _ u => decide (0 ≤ u)

/-- A uniform value lies in 0 to 1 (R404). -/
def unitOk (v : Nat) : Bool := match fpDecode fp32Fmt v with
  | .fin _ u => decide (0 ≤ u) && decide (u ≤ 2 ^ fxScale)
  | _ => false

/-- Draft i is accepted (R401), compared exactly; U of 0 times an infinite probability has no product, and the outcome is free. -/
def accepted (b : List Byte) (i : Nat) : Bool :=
  if fieldAt b 2 1 = 0 then fieldAt b (0x10 + 4 * i) 4 == fieldAt b (0x50 + 4 * i) 4
  else
    let w := fun o => fieldAt b (o + 4 * i) 4
    match (fpDecode fp32Fmt (w 0x180)).mul (fpDecode fp32Fmt (w 0x140)), fpDecode fp32Fmt (w 0x100) with
    | .fin _ x, .fin _ y => decide (x ≤ y)
    | .nan, _ => Config.infAccept (BitVec.ofNat 32 (w 0x100))
    | _, .inf n => !n
    | _, _ => false

/-- k: the drafts accepted before the first rejection (R401). -/
def acceptCount (b : List Byte) : Nat → Nat → Nat
  | 0, k => k
  | n + 1, k => if accepted b k then acceptCount b n (k + 1) else k

/-- The record breaks R404 in itself. -/
def recordBad (b : List Byte) : Bool :=
  let n := fieldAt b 3 1
  ((b.drop 4).take 12).any (· != 0) || ((b.drop 0x94).take 108).any (· != 0) || ((b.drop 0x1C0).take 64).any (· != 0) ||
    decide (1 < fieldAt b 2 1) || decide (16 < n) ||
    (fieldAt b 2 1 == 1 && (List.range n).any fun i => !probOk (fieldAt b (0x100 + 4 * i) 4) || !probOk (fieldAt b (0x140 + 4 * i) 4) ||
      !unitOk (fieldAt b (0x180 + 4 * i) 4))

/-- An output record (R405). -/
def winnowOut (c : Code) (k n token old new : Nat) : List Byte :=
  leBytes 2 c.num.toNat ++ leBytes 1 k ++ leBytes 1 n ++ leBytes 4 token ++ leBytes 8 old ++ leBytes 8 new ++ List.replicate 8 (0 : Byte)

/-- Verifies one record (R401 to R405): the state and the output record, or the code that completes the step (R378). -/
def winnowRecord (s : State) (t : Step) (earlier : List Nat) (b : List Byte) : Code ⊕ (State × List Byte) :=
  let c := fieldAt b 0 2
  let n := fieldAt b 3 1
  let old := ctxField s c 8 8
  let err := fun (e : Code) => Sum.inr (s.modSrv fun x => { x with wnwRecords := x.wnwRecords + 1, wnwErrors := x.wnwErrors + 1 },
    winnowOut e 0 n 0 old old)
  if recordBad b then err .wnwBad
  else if earlier.contains c then err .wnwDup
  else if !namesCtx t c then .inl .ctxRange
  else if !ctxFlag s c 0 then .inl .ctxInvalid
  else
    let k := acceptCount b n 0
    let new := old + k + 1
    if ctxField s c 0x10 8 * 2 ^ ctxField s c 1 1 < new then err .pageMissing
    else
      let s := s.setCtxField c 8 8 new
      let s := s.setCtxField c 0x28 8 (ctxField s c 0x28 8 + n)
      let s := s.setCtxField c 0x30 8 (ctxField s c 0x30 8 + k)
      .inr (s.modSrv fun x => { x with wnwRecords := x.wnwRecords + 1, wnwDrafts := x.wnwDrafts + BitVec.ofNat 32 n,
                                       wnwAccepted := x.wnwAccepted + BitVec.ofNat 32 k },
        winnowOut .ok k n (fieldAt b (0x50 + 4 * k) 4) old new)

/-- Verifies a record that has been read and writes its output record (R400 to R404). -/
def winnowWrite (s : State) (t : Step) (w : Who) (out : Nat) (seen : List Nat) (b : List Byte) : State :=
  match winnowRecord s t seen b with
  | .inl e => s.faultStep t.id e
  | .inr (s, o) => s.wrFor w t.id out o

/-- Verifies the records of a transfer in array order (R405); a fault of the step ends the transfer. -/
def winnowAll (t : Step) (w : Who) (inA outA : Nat) : Nat → Nat → List Nat → State → State
  | 0, _, _, s => s
  | k + 1, i, seen, s =>
    if stepFaulted s t.id then s
    else
      match s.rd w (inA + 512 * i) 512 with
      | (s, r) => match r.code with
        | some c => s.faultStep t.id c
        | none => winnowAll t w inA outA k (i + 1) (fieldAt r.bytes 0 2 :: seen) (winnowWrite s t w (outA + 32 * i) seen r.bytes)

/-- WNW.VERIFY of a step (R400 to R405). -/
def winnowVerify (s : State) (t : Step) (w : Who) (inA outA count : Nat) : State :=
  match rangeCode s t.part inA (512 * count), rangeCode s t.part outA (32 * count) with
  | some c, _ => s.faultStep t.id c
  | _, some c => s.faultStep t.id c
  | none, none => winnowAll t w inA outA count 0 [] s

end Sys2Proof.Machine
end

