-- ==== Sys2Proof/Machine/HostOps.lean ====
section
/-! DEFINITION. What host accesses share: which accesses a function decodes, BAR2 answers (R560 to R564, R576), doorbells and their
order after posted writes (R345 to R348). -/

namespace Sys2Proof.Machine

/-! ## Access checks (R555, R562, R575, R576) -/

/-- BAR2 answers BAR_BUSY: in a WARM reset, in PARK, and until a wake has completed (Table 16-6). -/
def bar2Busy (s : State) : Bool := s.rst.warm.isSome || s.pwr.diesDown || s.pwr.stage == .exiting || !s.rst.done

/-- A BAR_RANGE access is logged, signalled and reported (R562, Tables 16-4 and 16-5). -/
def State.barRange (s : State) (fn bar off : Nat) : State := (s.hifErr fn .barRange bar off).emit (.aer fn .completerAbort)

/-- The function reaches these device bytes through BAR2 (R562). -/
def bar2Reach (s : State) (fn a n : Nat) : Bool :=
  decide (a + n ≤ devTop) && (fn == 0 || match fnPart s fn with
    | some p => (rangeCode s p a n).isNone
    | none => false)

/-- A BAR2 read (R561, R564): the data, with EP set for POISON. Of data that EP marks, every byte is free (log 2). -/
def bar2Answer (s : State) (fn off len : Nat) : State :=
  let (s, r) := s.rd { master := 91, cls := 3, deadline := none, step := none } ((hifFn s fn).bar2Off.toNat + off) len
  if r.code.isSome then (s.emit (.bar2Data fn (some (freeBytes s len)) true)).modFree (· + (len + 7) / 8)
  else s.emit (.bar2Data fn (some r.bytes) false)

/-- BAR2 reads whose earlier writes are now acknowledged are answered (R563). -/
def settleBar2 (s : State) : State :=
  let ready := fun (r : Bar2Read) => r.waitFor.all fun i => !(s.hif.posted.contains (r.fn, i))
  (s.modHif fun h => { h with bar2Reads := h.bar2Reads.filter fun r => !ready r }).each (s.hif.bar2Reads.filter ready) fun s r =>
    s.post (.bar2 r.fn r.off r.len)

/-! ## Doorbells (R345 to R348) -/

/-- Sets DB_ERR of a partition (R347, R566). -/
def State.dbError (s : State) (p : Nat) : State := s.modPart p fun q => { q with dbErr := true }

/-- Sets CFG_ERR of a partition. -/
def State.cfgError (s : State) (p : Nat) : State := s.modPart p fun q => { q with cfgErr := true }

/-- A step queue. -/
def queueSt (s : State) (q : Nat) : Queue := vat s.stp.queue q {}

/-- Changes a step queue. -/
def State.modQueue (s : State) (q : Nat) (f : Queue → Queue) : State := s.modStp fun t => { t with queue := vmodN t.queue q f }

/-- A doorbell that R347 ignores. -/
def doorbellBad (s : State) (p cls tail : Nat) : Bool :=
  let st := (partSt s p).state
  decide (ringSize (queueSt s (4 * p + cls)).size ≤ tail) || st == .disabled || st == .resetting || s.rst.warm == some true

/-- Acts on a doorbell (R345, R347). -/
def actDoorbell (s : State) (p cls tail : Nat) : State :=
  if doorbellBad s p cls tail then s.dbError p else s.modQueue (4 * p + cls) fun q => { q with tail := tail }

/-- Takes a doorbell: it waits for the posted writes of its function (R348). -/
def takeDoorbell (s : State) (fn p cls tail : Nat) : State :=
  if doorbellBad s p cls tail then s.dbError p
  else
    match postedOf s fn with
    | [] => actDoorbell s p cls tail
    | ws => s.modStp fun t => { t with dbWait := t.dbWait ++ [{ fn := fn, part := p, cls := cls, tail := tail, waitFor := ws }] }

/-- Doorbells whose earlier writes are now acknowledged are acted on (R348). -/
def settleBells (s : State) : State :=
  let ready := fun (d : Doorbell) => d.waitFor.all fun i => !(s.hif.posted.contains (d.fn, i))
  (s.modStp fun t => { t with dbWait := t.dbWait.filter fun d => !ready d }).each (s.stp.dbWait.filter ready) fun s d =>
    actDoorbell s d.part d.cls d.tail

/-- What waits for acknowledged writes goes on (R348, R394, R563). -/
def settlePosted (s : State) : State := settleBar2 (settleGo (settleBells s))

/-- The write of a doorbell for a partition by a function, through BAR0 or a BAR4 page (R345, R367, R565, R566). -/
def doorbellWrite (s : State) (fn : Nat) (bar4 : Bool) (p : Nat) (v : W32) : State :=
  if bar4 && fn == 0 && servingFn s p != 0 then s.dbError p
  else if mayPart s fn p then takeDoorbell s fn p (v.toNat / 2 ^ 30) (v.toNat % 4096)
  else if bar4 && fn != 0 && (fnPart s fn).isNone then s.barRange fn 4 0
  else s

end Sys2Proof.Machine
end

