-- ==== Sys2Proof/Machine/PowerOps.lean ====
section
/-! DEFINITION. Caps, the grades the standing reasons allow, the effective state, and PKG_GOOD (13, R520). -/

namespace Sys2Proof.Machine

/-! ## Caps (R475 to R482) -/

/-- The greatest cap of a bin (Table 13-1). -/
def binMax (b : Bin) : Nat := match b with
  | .yp4A => 900
  | .yp4L => 1800

/-- The default host cap of a bin (Table 13-1). -/
def binHostCap (b : Bin) : Nat := match b with
  | .yp4A => 750
  | .yp4L => 1200

/-- A cap order within R476. -/
def capOk (s : State) (w : Nat) : Bool := decide (300 ≤ w) && decide (w ≤ binMax s.fuses.bin)

/-- Grades that the standing thermal reasons allow (Table 13-4). -/
def thermalGrades (s : State) : List Nat :=
  (s.pwr.tileGrade.toList ++ (if s.pwr.tileCrit then [slowestPoint s] else []) ++ s.mem.stack.toList.filterMap (·.warnGrade)).map
    (enabledFrom s)

/-- PWR_CAP_THERMAL (R482). -/
def capThermal (s : State) : Nat := match thermalGrades s with
  | [] => binMax s.fuses.bin
  | gs => vat s.fuses.ceil (maxN gs) 0

/-- The effective cap (R475). -/
def effCap (s : State) : Nat :=
  let o := s.pwr.orders
  min (min o.capHost o.capBoard) (min (capThermal s) (o.capRack.getD (binMax s.fuses.bin)))

/-- PWR_CAP_EFFECTIVE.BINDING: the first source of RACK, HOST, BOARD, THERMAL at the effective cap (R475). -/
def capBinding (s : State) : Nat :=
  let o := s.pwr.orders
  let c := effCap s
  if o.capRack = some c then 0 else if o.capHost = c then 1 else if o.capBoard = c then 2 else 3

/-- The cap grade: the fastest enabled point whose fused ceiling is within the effective cap (R479). -/
def capGrade (s : State) : Nat :=
  ((List.range 8).find? fun k => pointEnabled s k && decide (vat s.fuses.ceil k 0 ≤ effCap s)).getD (slowestPoint s)

/-- The package's own grade: the slowest its standing reasons allow (Table 13-4); a disabled point selects the next slower enabled
one (R99). -/
def ownGrade (s : State) : Nat := maxN (capGrade s :: thermalGrades s ++ s.pwr.limGrade.toList.map (enabledFrom s))

/-- Sets a bit of PWR_EVENT. -/
def State.powerEvent (s : State) (b : Nat) : State := s.modPwr fun p => { p with event := p.event ||| BitVec.ofNat 7 (2 ^ b) }

/-- Bits of PWR_EVENT (Table 13-6). -/
def evRackOff : Nat := 0
def evCap : Nat := 1
def evState : Nat := 2
def evTileWarn : Nat := 3
def evTileCrit : Nat := 4
def evLimiter : Nat := 5
def evHold : Nat := 6

/-- Makes a change and notes whether the effective cap changed by it. -/
def State.capChange (s : State) (f : State → State) : State :=
  let s' := f s
  if effCap s' = effCap s then s' else s'.powerEvent evCap

/-- Refuses a host order for the rack's sake (R477, R484): PWR_HOLD_LAST, its count and the event. -/
def State.rackHold (s : State) (kind : Bool) (rack host : Nat) : State :=
  (s.modPwr fun p => { p with holdCount := p.holdCount + 1,
                              holdLast := { beat := BitVec.ofNat 24 s.beat, kind := kind, rack := BitVec.ofNat 16 rack,
                                            host := BitVec.ofNat 16 host } }).powerEvent evHold

/-! ## States (R483, R487) -/

/-- The number of a power state (Table 13-6). -/
def pnum (p : PState) : Nat := match p with
  | .run => 0
  | .park => 1
  | .standby => 2
  | .off => 3

/-- The lower of two states, RUN the highest. -/
def plower (a b : PState) : PState := if pnum a < pnum b then b else a

/-- The rack order that the effective state is computed with: the one before the OFF order during its grace time (R487). -/
def rackEffective (o : Orders) : PState := if o.offLeft.isSome then o.rackBefore else o.rack

/-- The effective state (R483). -/
def effStateOf (o : Orders) : PState := plower (plower (rackEffective o) o.host) o.board
def effState (s : State) : PState := effStateOf s.pwr.orders

/-! ## PKG_GOOD (R520) -/

/-- All conditions of R520 hold. -/
def goodNow (s : State) : Bool :=
  s.rst.done && s.pwr.stage != .off && s.rhl.readySince && (effState s == .run || effState s == .park) && !s.rst.thermtrip && !s.rst.wdtExpired &&
    s.rst.resetN && s.rst.perst && !s.rst.railFault

/-- PKG_GOOD follows its conditions. -/
def State.refreshGood (s : State) : State := s.modRst fun r => { r with pkgGood := goodNow s }

/-! ## Voltages (R469, R472, R473, R97) -/

/-- GUARD_MV of an operating point: the OPTABLE curve in force, else 60 mV (R100). -/
def guardMv (s : State) (k : Nat) : Nat := match s.str.bind (·.optable) with
  | some t => (t[k]?).elim 60 (·.2)
  | none => 60

/-- The voltage a die runs a point at (R469). -/
def pointMv (s : State) (n k : Nat) : Nat := vat (vat s.fuses.vmin n (Vector.replicate 8 0)) k 0 + guardMv s k

/-- Sets every die's voltage for an operating point. -/
def State.setVolts (s : State) (k : Nat) : State :=
  s.modPwr fun p => { p with die := p.die.mapIdx fun n d => { d with mV := pointMv s n k } }

/-- The core clock switches to an operating point, unless it runs at it: a faster one after the voltages are raised (R473), a slower
one before they are lowered (R472). -/
def State.switchClock (s : State) (k : Nat) : State :=
  if s.grade.clock = k then s
  else ((s.emit (.clockSwitch k)).modGrade fun g => { g with clock := k }).setVolts k

/-- The core clock follows the grade in force (R62). -/
def State.syncClock (s : State) : State := s.switchClock s.grade.now

end Sys2Proof.Machine
end

