-- ==== Sys2Proof/Machine/RingOps.lean ====
section
/-! DEFINITION. What the ring shares (12): consensus and update words, membership and reshapes, the restart of training, grade
announcements (R67), and collectives. -/

namespace Sys2Proof.Machine

/-! ## Words (R437 to R440) -/

/-- One step of the CRC-16 of R437. -/
def crc16Bit (c : BitVec 16) : BitVec 16 := if c.msb then (c <<< 1) ^^^ 0x1021 else c <<< 1

/-- The CRC-16 of R437. -/
def crc16 (bs : List Byte) : BitVec 16 :=
  bs.foldl (fun c b => (List.range 8).foldl (fun c _ => crc16Bit c) (c ^^^ BitVec.ofNat 16 (256 * b.toNat))) 0xFFFF

/-- Bytes 0x00 to 0x1D of a word (Table 12-3). -/
def CWord.body (w : CWord) : List Byte :=
  leBytes 8 w.hash8.toNat ++ leBytes 2 w.compatClass ++ leBytes 2 w.minor ++ leBytes 8 w.beat ++
    leBytes 2 (b2n w.rankValid * 2 ^ 15 + w.kind % 8 * 2 ^ 12 + w.rank % 1024) ++ leBytes 1 w.state ++
    leBytes 1 (b2n w.pendingValid * 64 + w.pendingGrade % 8 * 8 + w.gradeNow % 8) ++ leBytes 3 w.effFrame ++ [w.thermal] ++
    leBytes 2 (w.master % 1024)

/-- The 32 bytes of a word (R437). -/
def CWord.bytes (w : CWord) : List Byte := w.body ++ leBytes 2 (crc16 w.body).toNat

/-- Reads a word; none where its CHECK fails (R438). -/
def parseWord (b : List Byte) : Option CWord :=
  if b.length = 32 ∧ fieldAt b 0x1E 2 = (crc16 (b.take 30)).toNat then
    let r := fieldAt b 0x14 2
    let g := fieldAt b 0x17 1
    some { hash8 := BitVec.ofNat 64 (fieldAt b 0 8), compatClass := fieldAt b 8 2, minor := fieldAt b 0xA 2, beat := fieldAt b 0xC 8,
           rankValid := bitOf r 15, kind := bitsOf r 14 12, rank := bitsOf r 9 0, state := fieldAt b 0x16 1,
           pendingValid := bitOf g 6, pendingGrade := bitsOf g 5 3, gradeNow := bitsOf g 2 0, effFrame := fieldAt b 0x18 3,
           thermal := BitVec.ofNat 8 (fieldAt b 0x1B 1), master := bitsOf (fieldAt b 0x1C 2) 9 0 }
  else none

/-- The number of a ring state (Table 12-3). -/
def ringNum (r : RingState) : Nat := match r with
  | .joining => 0
  | .member => 1
  | .fenced => 2
  | .leaving => 3

/-- The STATE the package shows: LEAVING, else FENCED while the tempo is fenced (R56), else JOINING or MEMBER. -/
def ownState (s : State) : RingState :=
  if s.rhl.state == .leaving then .leaving else if s.tmp.mode == .fenced then .fenced else s.rhl.state

/-- The STATE that RHL_STATUS shows: without a tempo rank the package is a domain of one (R36), and FENCED while its tempo is. -/
def shownState (s : State) : RingState :=
  if s.rhl.rank.isSome then ownState s else if s.tmp.mode == .fenced then .fenced else .member

/-- Members admitted (Table 12-8): a package without tempo rank is the one member of its domain (R36). -/
def memberCount (s : State) : Nat := if s.rhl.rank.isSome then s.rhl.members.length else 1

/-- The package is MEMBER (R455); without a tempo rank it is a domain of one (R36), and FENCED runs no collective (R57). -/
def isMember (s : State) : Bool := shownState s == .member

/-- The own beat master: the admitted one, else the package itself (R29, R36). -/
def ownMaster (s : State) : Nat := s.rhl.master.getD (ownRank s)

/-- Any stack is tripped. -/
def anyTripped (s : State) : Bool := (List.range 8).any fun t => stackTripped s t

/-- Any die's limiter is engaged. -/
def limiterOn (s : State) : Bool := s.pwr.die.toList.any fun d => d.limiter != 0

/-- THERMAL.POWER (R481). -/
def thermalPower (s : State) : Bool :=
  s.pwr.limGrade == some (ownGrade s) ||
    (ownGrade s == capGrade s && (List.range (capGrade s)).any (pointEnabled s) && capBinding s != 3)

/-- The THERMAL byte (Table 12-3, R464, R481). -/
def thermalByte (s : State) : Byte :=
  let own := ownGrade s
  let tile := s.pwr.tileGrade == some own || (s.pwr.tileCrit && slowestPoint s == own)
  let stack := s.mem.stack.toList.any fun t => t.warnGrade == some own
  BitVec.ofNat 8 (b2n stack + 2 * b2n (anyTripped s) + 4 * b2n tile + 8 * b2n (limiterOn s) + 16 * b2n (thermalPower s))

/-- Of some announcements, the earliest effective frame that is still to come and the slowest grade for it. -/
def earliestPending (s : State) (as : List Announce) : Option (Nat × Nat) :=
  let ps := as.filter fun a => decide (frameOf s.beat < a.eff)
  match ps.map (·.eff) with
  | [] => none
  | e :: es =>
    let f := es.foldl min e
    some (f, maxN ((ps.filter fun a => a.eff == f).map (·.grade)))

/-- The earliest pending effective frame and the slowest grade pending for it, of what has been announced (R439). -/
def pendingGrade (s : State) : Option (Nat × Nat) := earliestPending s s.grade.announced

/-- An announcement is due at the next consensus beat: the own grade has changed, or a reshape asks for it (R480, R666). -/
def announceNeeded (s : State) : Bool := s.grade.reannounce || ownGrade s != s.grade.ownAnnounced.getD s.grade.ownStanding

/-- The announcement that the next consensus beat will carry, two frames after the frame that it opens (R67, Table 2-4). -/
def ownDue (s : State) : List Announce :=
  if s.tmp.counting && ownGrade s != s.grade.ownAnnounced.getD s.grade.ownStanding then
    [{ rank := ownRank s, own := true, grade := ownGrade s, eff := frameOf s.beat + 3 }]
  else []

/-- What TMP_GRADE_PENDING shows (Tables 2-4, 2-8; log 105): of the changes announced and the own change still to be announced, the
slowest for the earliest frame; SOURCE 0 when this package is one that asks for it. -/
def shownPending (s : State) : Option (Nat × Nat × Bool) :=
  let all := s.grade.announced ++ ownDue s
  (earliestPending s all).map fun e => (e.1, e.2, !(all.any fun a => a.own && a.eff == e.1 && a.grade == e.2))

/-- A word of this package (Table 12-3): kind, announcement and the bytes at EFF_FRAME. -/
def ownWord (s : State) (kind : Nat) (pend : Option Nat) (eff : Nat) : CWord :=
  { hash8 := s.str.elim 0 fun t => digestHead t.hash, compatClass := s.str.elim 0 (·.compatClass), minor := s.str.elim 0 (·.minor),
    beat := s.beat, rankValid := s.rhl.rank.isSome, kind := kind, rank := ownRank s, state := ringNum (ownState s),
    pendingValid := pend.isSome, pendingGrade := pend.getD 0, gradeNow := s.grade.now, effFrame := eff, thermal := thermalByte s,
    master := ownMaster s }

/-- A link group that carries words (R439). -/
def linkLive (x : LinkState) : Bool := x == .relock || x == .ident || x == .up || x == .transit

/-- A link group. -/
def linkSt (s : State) (l : Nat) : LinkSt := vat s.rhl.link l {}

/-- Changes a link group. -/
def State.modLink (s : State) (l : Nat) (f : LinkSt → LinkSt) : State := s.modRhl fun r => { r with link := vmodN r.link l f }

/-- Sends bytes on the live link groups that satisfy a test. -/
def State.sendWord (s : State) (bs : List Byte) (p : Nat → Bool) : State :=
  s.each (List.finRange 8) fun s l => if linkLive (linkSt s l).state && p l then s.emit (.word l bs) else s

/-- The consensus word of a consensus beat (R439). -/
def State.sendConsensus (s : State) : State :=
  let w := match pendingGrade s with
    | some (f, g) => ownWord s 0 (some g) (f % 2 ^ 24)
    | none => ownWord s 0 none 0
  s.sendWord w.bytes fun _ => true

/-- Sends an update word of this package on every link group and notes it as seen (R440). -/
def State.sendUpdate (s : State) (w : CWord) : State :=
  (s.modRhl fun r => { r with seen := (w.kind, w.rank, w.beat) :: r.seen }).sendWord w.bytes fun _ => true

/-! ## Announcements (R67, R480, R666) -/

/-- Announces the own grade, effective two frames later (R67). -/
def State.announce (s : State) (g : Nat) : State :=
  let eff := frameOf s.beat + 2
  let s := s.modGrade fun x => { x with announced := x.announced ++ [{ rank := ownRank s, own := true, grade := g, eff := eff }],
                                        ownAnnounced := some g, reannounce := false }
  s.sendUpdate (ownWord s 1 (some g) (eff % 2 ^ 24))

/-- At a consensus beat the own grade is announced when it has changed, or again after a reshape (R480, R666). -/
def State.announceDue (s : State) : State := if announceNeeded s then s.announce (ownGrade s) else s

/-- Announcements whose effective frame is reached take effect, in the order of their frames (R68, R665); the core clock then runs at
the grade in force (R62). -/
def takeEffect (s : State) : Nat → State
  | 0 => s.syncClock
  | k + 1 =>
    match (s.grade.announced.filter fun a => decide (a.eff ≤ frameOf s.beat)).map (·.eff) with
    | [] => s.syncClock
    | e :: es =>
      let f := es.foldl min e
      let g := gradeFor s f
      let s := s.modGrade fun x =>
        { x with now := g, ownStanding := standingAt x.ownStanding (ownAnnounces x) f,
                 standing := x.standing.map fun m => (m.1, standingAt m.2 (x.announced.filter fun a => !a.own && a.rank == m.1) f),
                 announced := x.announced.filter fun a => a.eff != f }
      takeEffect s k

/-! ## Collectives that end, reshapes (R449 to R452, R461, R462) -/

/-- Ends each collective in flight whose partition is in a mask (R450, R461, R462). -/
def State.endColls (s : State) (mask : BitVec 8) (c : Code) : State :=
  s.each ((s.stp.steps.filter fun t => t.phase == .live && collectiveStep s t && mask.getLsbD t.part).map (·.id)) fun s i => s.endStep i c

/-- Floods a RESHAPE word for an event this package detects (R449). -/
def State.floodReshape (s : State) (link : Option Nat) (joins leaves : List Nat) : State :=
  (s.modRhl fun r => { r with reshapes := r.reshapes ++
    [{ d := s.beat, rank := ownRank s, link := link, joins := joins, leaves := leaves, aborted := false }] }).sendUpdate
      (ownWord s 2 none 0)

/-- A reshape event on an admitted member (R449). -/
def State.reshapeEvent (s : State) (link : Option Nat) (joins leaves : List Nat) : State :=
  if s.rhl.rank.isSome && ownState s == .member then s.floodReshape link joins leaves else s

/-- The rank of the MEMBER a link group shows. -/
def peerMember (s : State) (l : Nat) : Option Nat :=
  match (linkSt s l).peer with
  | some w => if w.rankValid && w.state == 1 && (linkSt s l).peerOk then some w.rank else none
  | none => none

/-- Members that only this link group showed: they leave with it. -/
def lostPeers (s : State) (l : Nat) : List Nat :=
  (peerMember s l).toList.filter fun r => (List.range 8).all fun k => k == l || !((linkSt s k).state == .up && peerMember s k == some r)

/-- Slots of a tray that are admitted, and trays in which a slot is admitted (R456). -/
def traySlots (s : State) (t : Nat) : List Nat := idx 8 fun k => s.rhl.members.contains (8 * t + k)
def slotTrays (s : State) (k : Nat) : List Nat := idx 128 fun t => s.rhl.members.contains (8 * t + k)

/-- The position after one on a ring of positions, and the position before it. -/
def ringNext (ps : List Nat) (a : Nat) : Nat := ps.getD ((ps.idxOf a + 1) % ps.length) a
def ringPrev (ps : List Nat) (a : Nat) : Nat := ps.getD ((ps.idxOf a + ps.length - 1) % ps.length) a

/-- The members next to a member on its rings, in the order of R43: XW, XE, YN, YS (R24, R25, R456). -/
def ringPeers (s : State) (r : Nat) : List Nat :=
  let xs := traySlots s (r / 8)
  let ys := slotTrays s (r % 8)
  [8 * (r / 8) + ringPrev xs (r % 8), 8 * (r / 8) + ringNext xs (r % 8), 8 * ringPrev ys (r / 8) + r % 8, 8 * ringNext ys (r / 8) + r % 8]

/-- The members within some hops of a member. -/
def within (s : State) (m : Nat) : Nat → List Nat
  | 0 => [m]
  | k + 1 =>
    let near := within s m k
    near ++ s.rhl.members.filter fun r => !near.contains r && (ringPeers s r).any fun q => near.contains q

/-- Hops on a shortest ring path from one member to another. -/
def hopsTo (s : State) (m r : Nat) : Option Nat :=
  (List.range (s.rhl.members.length + 1)).find? fun k => (within s m k).contains r

/-- The link groups whose neighbour lies on a shortest ring path to the master (R43). -/
def towards (s : State) : List Nat := match hopsTo s (ownMaster s) (ownRank s) with
  | none => []
  | some 0 => []
  | some (k + 1) =>
    ((ringPeers s (ownRank s)).zipIdx.filter fun e => (within s (ownMaster s) k).contains e.1).flatMap fun e => [2 * e.2, 2 * e.2 + 1]

/-- The alignment link group (R43): the lowest UP one whose neighbour lies on a shortest path to the master. -/
def alignLinkOf (s : State) : Link :=
  if s.rhl.rank.isNone then 0
  else ((List.finRange 8).find? fun l => (linkSt s l.val).state == .up && (towards s).contains l.val).getD 0

/-- The alignment link group is chosen anew (R43). -/
def State.realignLink (s : State) : State := s.modTmp fun t => { t with alignLink := alignLinkOf s }

/-- A link group leaves its state for another; leaving or entering UP or TRANSIT is a reshape event (R449). -/
def State.moveLink (s : State) (l : Nat) (next : LinkState) (f : LinkSt → LinkSt) : State :=
  let was := (linkSt s l).state
  let s' := (s.modLink l fun x => { f x with state := next }).realignLink
  if was == next || !(was == .up || was == .transit || next == .up || next == .transit) then s'
  else s'.reshapeEvent (some l) [] (if was == .up then lostPeers s l else [])

/-- A link group is taken down with a code (R431, R434, R438). -/
def State.linkDown (s : State) (l : Nat) (c : Code) : State :=
  s.moveLink l .down fun x => { x with code := c, tries := 0, passed1 := false, silent := 0, peer := none, peerOk := false, bypassed := false,
                                        leases := [] }

/-- Members in ascending order with one more. -/
def insertRank (r : Nat) (ms : List Nat) : List Nat :=
  if ms.contains r then ms else ms.filter (fun x => decide (x < r)) ++ r :: ms.filter fun x => decide (r < x)

/-- Admits a member: its standing grade is the grade in force (R68). -/
def State.addMember (s : State) (r : Nat) : State :=
  let s := s.modRhl fun x => { x with members := insertRank r x.members }
  if r = ownRank s ∨ (s.grade.standing.any fun e => e.1 == r) then s
  else s.modGrade fun g => { g with standing := g.standing ++ [(r, g.now)] }

/-- A member leaves: its pending announcements still apply (R68). -/
def State.dropMember (s : State) (r : Nat) : State :=
  (s.modRhl fun x => { x with members := x.members.filter (· != r) }).modGrade fun g =>
    { g with standing := g.standing.filter fun e => e.1 != r }

/-- The beat master and the alignment link group are computed anew (R42, R43, R452). -/
def State.remaster (s : State) : State :=
  let m : Option Nat := match s.rhl.members with
    | [] => none
    | r :: rs => some (rs.foldl min r)
  let s := (s.modRhl fun r => { r with master := m, counted := r.members }).realignLink
  if ownMaster s = ownRank s then s.modTmp fun t => { t with realign := .none } else s

/-- The MEMBER peers that accept and are accepted on UP link groups, and the masters that they show (R29). -/
def acceptedPeers (s : State) : List Nat :=
  (List.range 8).flatMap fun l => if (linkSt s l).state == .up && (peerMember s l).isSome then
      (linkSt s l).peer.elim [] fun w => [w.rank, w.master]
    else []

/-- The grade in force that the MEMBER peers show (R666). -/
def peerGrade (s : State) : Option Nat :=
  (List.range 8).findSome? fun l => if (linkSt s l).state == .up && (peerMember s l).isSome then (linkSt s l).peer.map (·.gradeNow) else none

/-- The package itself is admitted at a reshape boundary, its master's count loaded: it takes its peers' grade in force (R666) and
knows as members itself, its accepted peers and their masters. -/
def State.join (s : State) : State :=
  let g := (peerGrade s).getD s.grade.now
  let s := s.modGrade fun x => { x with now := enabledFrom s g, ownStanding := enabledFrom s g, ownAnnounced := none, standing := [] }
  let s := s.modRhl fun r => { r with state := .member, members := [] }
  (s.addMember (ownRank s)).each (acceptedPeers s) fun s r => s.addMember r

/-- The package leaves its domain: only its own announcements go on (R68). -/
def State.leaveDomain (s : State) : State :=
  (s.modRhl fun r => { r with state := if r.state == .leaving then .leaving else .joining, members := [] }).modGrade fun g =>
    { g with standing := [], announced := g.announced.filter (·.own) }

/-- One reshape event takes effect. -/
def State.applyReshape (s : State) (e : Reshape) : State :=
  let s := if e.joins.contains (ownRank s) && s.rhl.state == .joining then s.join else s
  let s := s.each (e.joins.filter (· != ownRank s)) fun s r => if s.rhl.state == .member then s.addMember r else s
  let s := s.each (e.leaves.filter (· != ownRank s)) fun s r => s.dropMember r
  if e.leaves.contains (ownRank s) then s.leaveDomain else s

/-- The reshapes whose abort beats fall before a frame boundary, which take effect at it together (R450). -/
def dueReshapes (s : State) : List Reshape := s.rhl.reshapes.filter fun e => decide (e.d + 32 < s.beat)

/-- The package itself is admitted by a reshape that takes effect at this boundary (R444). -/
def joinsNow (s : State) : Bool := s.rhl.state == .joining && (dueReshapes s).any fun e => e.joins.contains (ownRank s)

/-- The reshapes due take effect together (R450, R452). -/
def State.applyDue (s : State) (due : List Reshape) : State :=
  match due.getLast? with
  | none => s
  | some e =>
    let s := s.modRhl fun r => { r with reshapes := r.reshapes.filter fun e => !due.contains e }
    let s := s.each due fun s e => s.applyReshape e
    let s := s.modRhl fun r => { r with reshapeCount := r.reshapeCount + 1, reshapeD := BitVec.ofNat 24 e.d,
                                        reshapeRank := BitVec.ofNat 10 e.rank, reshapeLink := BitVec.ofNat 4 (e.link.getD 15) }
    (s.modGrade fun g => { g with reannounce := ownState s == .member }).signal 0 13

/-- The beat master is computed anew where the admitted membership has changed since it was last (R42). -/
def State.remasterDue (s : State) : State := if s.rhl.members == s.rhl.counted then s else s.remaster

/-! ## Restart of training (R436, R587) -/

/-- Every link group to DOWN, as at the start of training; PKG_GOOD falls with READY (R520). -/
def State.ringDown (s : State) : State :=
  ((s.modRhl fun r => { r with link := r.link.map fun x =>
      { x with state := .down, code := .ok, tries := 0, passed1 := false, silent := 0, heard := false, peer := none, peerOk := false,
               bypassed := false, leases := [] },
                               rank := r.nextRank.orElse fun _ => r.rank, nextRank := none, readySince := false, restart := false,
                               joinBeats := 0 }).leaveDomain.modRhl fun r =>
    { r with state := .joining, master := none, counted := [] }).realignLink.refreshGood

/-- Training restarts at step 1 (R436): with LEAVING sent first when the link groups run. -/
def State.restartTraining (s : State) : State :=
  if (List.range 8).any fun l => linkLive (linkSt s l).state then
    (s.reshapeEvent none [] [ownRank s]).modRhl fun r => { r with state := .leaving, restart := true }
  else s.ringDown

/-- A tray ID and slot are written (R28, R587): training restarts where they change while the package runs. -/
def State.writeRank (s : State) (id slot : Nat) : State :=
  if !s.rst.aon || (s.rhl.nextRank.orElse fun _ => s.rhl.rank) == some (id, slot) then s
  else if (List.range 8).any fun l => linkLive (linkSt s l).state then
    s.restartTraining.modRhl fun r => { r with nextRank := some (id, slot) }
  else (s.modRhl fun r => { r with rank := some (id, slot) }).ringDown

/-! ## Collectives (R453 to R461) -/

/-- First element of chunk `j` of `m` over `n` elements (R457). -/
def chunkLo (n m j : Nat) : Nat := j * n / m

/-- A collective of a step. -/
def getColl (s : State) (step : Nat) : Option Coll := s.rhl.colls.find? fun c => c.step == step

/-- Changes a collective. -/
def State.modColl (s : State) (step : Nat) (f : Coll → Coll) : State :=
  s.modRhl fun r => { r with colls := r.colls.map fun c => if c.step = step then f c else c }

/-- Elements of a collective in local memory. -/
def collWords (s : State) (c : Coll) (e n : Nat) : List W32 :=
  (List.range n).map fun i => BitVec.ofNat 32 (leNat (readLocal s c.tile (c.laddr + 4 * (e + i)) 4))

/-- Writes elements of a collective. -/
def State.collPut (s : State) (c : Coll) (e : Nat) (ws : List W32) : State :=
  s.writeLocal c.tile (c.laddr + 4 * e) (ws.flatMap fun w => leBytes 4 w.toNat)

/-- The link group of the positive direction of a dimension that is UP: XE along X, YS along Y. -/
def nextLink (s : State) (y : Bool) : Option Link :=
  (if y then [6, 7] else [2, 3] : List Link).find? fun l => (linkSt s l).state == .up

/-- Credits that a neighbour grants a link group for each of RED and DATA (R433). -/
def linkCredits : Nat := 512

/-- Credits of a channel of a link group that no lease holds (R433). -/
def creditsFree (x : LinkSt) (red : Bool) : Nat := linkCredits - sumN ((x.leases.filter fun e => e.red == red).map (·.credits))

/-- A step holds credits of a channel of a link group. -/
def hasLease (x : LinkSt) (red : Bool) (step : Nat) : Bool := x.leases.any fun e => e.red == red && e.step == step && decide (0 < e.credits)

/-- Reserves up to some credits of a channel of a link group for a collective, under a lease that names its partition (R433). -/
def State.reserveCredits (s : State) (l : Nat) (red : Bool) (c : Coll) (n : Nat) : State :=
  let k := min n (creditsFree (linkSt s l) red)
  if hasLease (linkSt s l) red c.step ∨ k = 0 then s
  else s.modLink l fun x => { x with leases := x.leases ++ [{ red := red, part := c.part, step := c.step, credits := k }] }

/-- Returns the credits that a step's leases hold. -/
def State.returnCredits (s : State) (step : Nat) : State :=
  s.modRhl fun r => { r with link := r.link.map fun x => { x with leases := x.leases.filter fun e => e.step != step } }

/-- Sends a flit of a collective to the next position: it leaves only on a reserved credit, and waits without one (R433). -/
def State.collSend (s : State) (step : Nat) (y : Bool) (f : RingFlit) : State := match nextLink s y with
  | some l => if hasLease (linkSt s l) f.red step then s.emit (.ringFlit l f)
      else s.modColl step fun c => { c with waiting := c.waiting ++ [(y, f)] }
  | none => s

/-- Collectives whose flits wait reserve the credits that have become free, and send (R433). -/
def State.flushWaiting (s : State) : State :=
  s.each (s.rhl.colls.filter fun c => !c.waiting.isEmpty) fun s c => match c.waiting with
    | [] => s
    | e :: _ => match nextLink s e.1 with
      | none => s
      | some l =>
        let s := (s.reserveCredits l e.2.red c c.waiting.length).modColl c.step fun x => { x with waiting := [] }
        s.each c.waiting fun s e => s.collSend c.step e.1 e.2

/-- Sends the own elements of a chunk, 16 words a flit. -/
def State.sendChunk (s : State) (c : Coll) (ph : CollPhase) (red : Bool) (chunk lo n : Nat) : State :=
  s.each (List.range ((n + 15) / 16)) fun s i =>
    s.collSend c.step ph.y { red := red, part := BitVec.ofNat 3 c.part |>.toFin, planId := c.planId, start := c.start, chunk := chunk, index := i,
                             poison := c.poisoned, vals := collWords s c (lo + 16 * i) (min 16 (n - 16 * i)) }

/-- First element and length of a chunk of a phase; a broadcast has one chunk. -/
def chunkRange (ph : CollPhase) (j : Nat) : Nat × Nat :=
  if ph.kind = .bcast then (ph.base, ph.count)
  else
    let lo := chunkLo ph.count ph.size j
    (ph.base + lo, chunkLo ph.count ph.size (j + 1) - lo)

/-- The chunk a position sends first. -/
def firstChunk (ph : CollPhase) : Nat := match ph.kind with
  | .reduce => (ph.pos + ph.size - 1) % ph.size
  | .gather => ph.pos
  | .bcast => 0

/-- Elements a position receives in a phase. -/
def phaseNeeds (ph : CollPhase) : Nat :=
  if ph.size ≤ 1 then 0
  else match ph.kind with
    | .bcast => if ph.pos = ph.rootPos then 0 else ph.count
    | _ => ph.count - (chunkRange ph (firstChunk ph)).2

/-- The flit belongs to this phase. -/
def inPhase (ph : CollPhase) (y : Bool) (f : RingFlit) : Bool :=
  ph.y == y && f.red == (ph.kind == .reduce) && decide (1 < ph.size) && decide (f.chunk < (if ph.kind = .bcast then 1 else ph.size)) &&
    decide (16 * f.index + f.vals.length ≤ (chunkRange ph f.chunk).2)

/-- A flit of the phase under way (R457 to R460): added, kept or passed on. -/
def State.collFlit (s : State) (c : Coll) (ph : CollPhase) (f : RingFlit) : State :=
  let e := (chunkRange ph f.chunk).1 + 16 * f.index
  let own := collWords s c e f.vals.length
  let vals := if ph.kind = .reduce then
      f.vals.zipWith (fun a b => if c.int32 then a + b else fp32Add a b) own
    else f.vals
  let last := match ph.kind with
    | .reduce => f.chunk == ph.pos
    | .gather => (ph.pos + 1) % ph.size == f.chunk
    | .bcast => (ph.pos + 1) % ph.size == ph.rootPos
  let keep := if ph.kind = .reduce then f.chunk == ph.pos else true
  let s := if f.poison then (s.modColl c.step fun x => { x with poisoned := true }).faultStep c.step .poison
    else if keep then s.collPut c e vals else s
  let s := if last then s else s.collSend c.step ph.y { f with vals := vals }
  s.modColl c.step fun x => { x with left := x.left - f.vals.length }

/-- Begins the phase at the head: reserves its credits (R433) and sends what the position sends first. -/
def State.beginPhase (s : State) (c : Coll) (ph : CollPhase) : State :=
  let s := (s.returnCredits c.step).modColl c.step fun x => { x with left := phaseNeeds ph }
  let s := match nextLink s ph.y with
    | some l => if ph.size ≤ 1 then s else s.reserveCredits l (ph.kind == .reduce) c ((ph.count + 15) / 16)
    | none => s
  if ph.size ≤ 1 ∨ (ph.kind = .bcast ∧ ph.pos ≠ ph.rootPos) then s
  else
    let r := chunkRange ph (firstChunk ph)
    s.sendChunk c ph (ph.kind == .reduce) (firstChunk ph) r.1 r.2

/-- Runs the flits that arrived early for the phase at the head. -/
def State.runEarly (s : State) (c : Coll) (ph : CollPhase) : State :=
  let mine := c.early.filter fun e => inPhase ph e.1 e.2
  let s := s.modColl c.step fun x => { x with early := x.early.filter fun e => !inPhase ph e.1 e.2 }
  s.each mine fun s e => match getColl s c.step with
    | some x => s.collFlit x ph e.2
    | none => s

/-- Goes on to the next phase while the one under way needs nothing more; a collective without phases is over. -/
def State.advanceColl (s : State) (step : Nat) : Nat → State
  | 0 => s
  | k + 1 =>
    match getColl s step with
    | none => s
    | some c =>
      if c.left ≠ 0 then s
      else
        match c.phases.drop 1 with
        | [] => if c.waiting.isEmpty then
            (s.modRhl fun r => { r with colls := r.colls.filter fun c => c.step != step }).returnCredits step
          else s
        | ph :: rest =>
          let c' := { c with phases := ph :: rest }
          let s := (s.modColl step fun _ => c').beginPhase c' ph
          (s.runEarly c' ph).advanceColl step k

/-- The phases of an operation along the dimensions (Table 12-6). -/
def collPhases (s : State) (op : CollOp) (dim : CollDim) (n root : Nat) : List CollPhase :=
  let (t, k) := s.rhl.rank.getD (0, 0)
  let xs := traySlots s t
  let ys := slotTrays s k
  let px := xs.idxOf k
  let py := ys.idxOf t
  let x := fun kind base count => ({ kind := kind, y := false, pos := px, size := xs.length, base := base, count := count,
                                     rootPos := xs.idxOf (root % 8) } : CollPhase)
  let y := fun kind base count => ({ kind := kind, y := true, pos := py, size := ys.length, base := base, count := count,
                                     rootPos := ys.idxOf (root / 8) } : CollPhase)
  let m := max xs.length 1
  let lo := chunkLo n m px
  let len := chunkLo n m (px + 1) - lo
  let rs : List CollPhase := match dim with
    | .x => [x .reduce 0 n]
    | .y => [y .reduce 0 n]
    | .xy => [x .reduce 0 n, y .reduce lo len]
  let ag : List CollPhase := match dim with
    | .x => [x .gather 0 n]
    | .y => [y .gather 0 n]
    | .xy => [y .gather lo len, x .gather 0 n]
  match op with
  | .reduceScatter => rs
  | .allGather => ag
  | .allReduce => rs ++ ag
  | .broadcast => match dim with
    | .x => if root / 8 = t then [x .bcast 0 n] else []
    | .y => if root % 8 = k then [y .bcast 0 n] else []
    | .xy => (if root / 8 = t then [x .bcast 0 n] else []) ++ [y .bcast 0 n]

/-- Every admitted tray holds the same set of admitted slots (R459). -/
def evenShape (s : State) : Bool :=
  let ts := idx 128 fun t => !(traySlots s t).isEmpty
  ts.all fun t => traySlots s t == traySlots s (ts.headD 0)

/-- A collective of a step starts its ring operation (R453 to R459): over X and Y only where the shape is even. -/
def State.startColl (s : State) (t : Step) (op : CollOp) (dim : CollDim) (int32 : Bool) (n root tile laddr : Nat) : State :=
  if !collectiveStep s t then s.faultStep t.id .planBodyBad
  else if dim == .xy && !evenShape s then s.endStep t.id .collShape
  else if localSize < laddr + 4 * n then s.faultStep t.id .localRange
  else
    let one : CollPhase := { kind := .gather, y := false, pos := 0, size := 1, base := 0, count := 0, rootPos := 0 }
    let c : Coll := { step := t.id, part := t.part, planId := t.planId, start := t.start, int32 := int32, tile := tile, laddr := laddr,
                      phases := one :: collPhases s op dim n root, left := 0, poisoned := false, waiting := [], early := [] }
    (s.modRhl fun r => { r with colls := r.colls ++ [c] }).advanceColl t.id (c.phases.length + 1)

end Sys2Proof.Machine
end

