-- ==== Sys2Proof/Machine/FabricOps.lean ====
section
/-! DEFINITION. Reductions in the Threshers (R242, R250 to R258), the fabric's buffers (R243, R244), and the images that die consensus
compares (R259, R672). -/

namespace Sys2Proof.Machine

/-! ## Reduction trees -/

/-- The TREE entry of a reduction. -/
def redTree (s : State) (r : Red) : Option TreeEntry := (s.str.bind fun t => t.trees[r.tree]?).filter (·.head.valid)

/-- Flits that wait in an input slot of a node. -/
def Red.slot (r : Red) (node input : Nat) : List RedFlit := (assoc r.slots (4 * node + input)).getD []

/-- Sets the flits that wait in an input slot. -/
def Red.setSlot (r : Red) (node input : Nat) (fs : List RedFlit) : Red := { r with slots := assocSet r.slots (4 * node + input) fs }

/-- A node of a tree. -/
def TreeEntry.node (t : TreeEntry) (j : Nat) : TreeNode := (t.nodes[j]?).getD { ins := [], site := 0 }

/-- The inputs of a node in use: position and code (R253). -/
def TreeEntry.inputs (t : TreeEntry) (j : Nat) : List (Nat × Nat) :=
  ((t.node j).ins.zipIdx.filter fun e => e.1 != 0xFF).map fun e => (e.2, e.1)

/-- The node and input that take the output of a node other than the root (R252). -/
def TreeEntry.parent (t : TreeEntry) (j : Nat) : Option (Nat × Nat) :=
  (List.range t.nodes.length).findSome? fun k => ((t.inputs k).find? fun e => e.2 == 0x80 + j).map fun e => (k, e.1)

/-- The elements of a leaf flit have 16 bits (R254): its 32 elements travel on in two flits of FP32. -/
def TreeEntry.half (t : TreeEntry) : Bool := t.format == 1 || t.format == 2

/-- Flits of 16 elements that make one output flit of the root: two where it converts to a 16-bit FORMAT, one towards a ring (R257). -/
def TreeEntry.perOut (t : TreeEntry) : Nat := if t.half && decide (t.outCode < 0x10) then 2 else 1

/-- Flits of 16 elements that each node of a reduction emits in all. -/
def Red.total (r : Red) (t : TreeEntry) : Nat := r.flits * t.perOut

/-- Flits a node has emitted so far: what its parent has consumed and holds. -/
def Red.emitted (r : Red) (t : TreeEntry) : Nat → Nat → Nat
  | 0, _ => r.rootOut * t.perOut
  | k + 1, j =>
    if j = t.root then r.rootOut * t.perOut
    else match t.parent j with
      | some (p, i) => r.emitted t k p + (r.slot p i).length
      | none => r.rootOut * t.perOut

/-- Flits an input of a node has received so far. -/
def Red.received (r : Red) (t : TreeEntry) (node input : Nat) : Nat := r.emitted t t.nodes.length node + (r.slot node input).length

/-- Changes a reduction. -/
def State.modRed (s : State) (id : Nat) (f : Red → Red) : State :=
  s.modFab fun x => { x with reds := x.reds.map fun r => if r.id = id then f r else r }

/-- The die of a Thresher site: the half 2n + h of CDn; none for a ring port of the hub (Table 6-4). -/
def siteDie (site : Nat) : Option Nat := if site < 8 then some (site / 2) else none

/-- The leaf inputs of a reduction that the sheaves of a die have not sent in full (R258). -/
def Red.owed (r : Red) (t : TreeEntry) (n : Nat) : List (Nat × Nat) :=
  (List.range t.nodes.length).flatMap fun j =>
    ((t.inputs j).filter fun e => decide (e.2 < 0x40) && e.2 / 16 == n && decide (r.received t j e.1 < r.total t)).map fun e => (j, e.1)

/-- Answers an input with POISON for every flit it still owes (R523). -/
def Red.poisonInput (r : Red) (t : TreeEntry) (e : Nat × Nat) : Red :=
  r.setSlot e.1 e.2 (r.slot e.1 e.2 ++ List.replicate (r.total t - r.received t e.1 e.2) { poison := true, bytes := [] })

/-- The 32-bit words of a flit. -/
def flitWords (bs : List Byte) : List W32 := (List.range (bs.length / 4)).map fun i => BitVec.ofNat 32 (fieldAt bs (4 * i) 4)

/-- The elements of a flit as 32-bit words: a leaf is converted from FORMAT to FP32 exactly, sums travel as FP32, INT32 stays
(R254). -/
def redElems (format code : Nat) (bs : List Byte) : List W32 :=
  let words := flitWords bs
  let halves := fun f => (List.range (bs.length / 2)).map fun i => toFp32 f (fieldAt bs (2 * i) 2)
  if code < 0x40 then
    match format with
    | 1 => halves bf16Fmt
    | 2 => halves fp16Fmt
    | _ => words
  else words

/-- What an input slot takes of a flit from a sheaf or a ring port: flits of 16 elements (R254, R257). -/
def leafFlits (t : TreeEntry) (code : Nat) (f : RedFlit) : List RedFlit :=
  let n := if t.half && decide (code < 0x40) then 2 else 1
  if f.poison then List.replicate n { poison := true, bytes := [] }
  else (List.range n).map fun i =>
    { poison := false, bytes := (((redElems t.format code f.bytes).drop (16 * i)).take 16).flatMap fun w => leBytes 4 w.toNat }

/-- One addition of a node (R253 to R255). -/
def redAdd (format : Nat) (a b : W32) : W32 := if format = 3 then a + b else fp32Add a b

/-- The sum of the inputs' elements in the order of the inputs (R253). -/
def redSum (format : Nat) : List (List W32) → List W32
  | [] => []
  | x :: xs => xs.foldl (fun s y => s.zipWith (redAdd format) y) x

/-- The bytes of a root's sum in FORMAT (R254). -/
def redBytes (format : Nat) (ws : List W32) : List Byte := ws.flatMap fun w => match format with
  | 1 => leBytes 2 (fp32To bf16Fmt w)
  | 2 => leBytes 2 (fp32To fp16Fmt w)
  | _ => leBytes 4 w.toNat

/-- The code a reduction completes with, the first to arise. -/
def State.redFault (s : State) (r : Red) (c : Code) : State :=
  (s.modRed r.id fun x => { x with code := some (x.code.getD c) }).faultStep r.step c

/-- The tiles the root of a reduction writes (R251): the DEST tile, or that logical tile in every sheaf of the MCAST entry. -/
def rootTiles (s : State) (t : TreeEntry) : List Nat :=
  let d := t.dest.toNat
  let i := bitsOf d 16 13
  if t.outCode = 0 then [16 * bitsOf d 22 17 + i] else (mcastSheaves s (bitsOf d 24 17)).map fun k => 16 * k + i

/-- The root's output flit sinks (R242, R251): in local memory, or at a ring port. -/
def rootOutput (s : State) (r : Red) (t : TreeEntry) (poison : Bool) (ws : List W32) : State :=
  let j := r.rootOut
  if 0x10 ≤ t.outCode then
    let part : Part := ⟨r.part % 8, Nat.mod_lt _ (by decide)⟩
    let link : Link := ⟨(t.outCode - 0x10) % 8, Nat.mod_lt _ (by decide)⟩
    match getStep s r.step with
    | some x => s.emit (.ringFlit link { red := true, part := part, planId := x.planId, start := x.start, chunk := 0, index := j,
                                         poison := poison, vals := ws })
    | none => s
  else if poison then s
  else
    let a := 64 * (bitsOf t.dest.toNat 12 0 + j)
    if 0x5FFC0 < a then s.redFault r .localRange
    else s.each (rootTiles s t) fun s tile => s.writeLocal tile a (redBytes t.format ws)

/-- Counts a poisoned output flit of a node (R258). -/
def countPoison (s : State) (site : Nat) : State :=
  s.each (siteDie site).toList fun s n => s.modFab fun f => { f with die := vmodN f.die n fun d => { d with thrPoison := d.thrPoison + 1 } }

/-- A node whose inputs in use all hold a flit emits its output flit (R256, R258): to its parent, or from the root to where the
tree's output goes; the reduction is over with the root's last flit. -/
def emitNode (s : State) (r : Red) (t : TreeEntry) (node : Nat) : State :=
  let ins := t.inputs node
  let n := if node = t.root then t.perOut else 1
  if ins.isEmpty || ins.any fun e => decide ((r.slot node e.1).length < n) then s
  else
    let heads := ins.map fun e => (r.slot node e.1).take n
    let poison := heads.any fun h => h.any (·.poison)
    let ws := if poison then [] else redSum t.format (heads.map fun h => h.flatMap fun f => flitWords f.bytes)
    let s := s.modRed r.id fun x => ins.foldl (fun x e => x.setSlot node e.1 ((x.slot node e.1).drop n)) x
    let s := if poison then (countPoison s (t.node node).site).redFault r .poison else s
    if node = t.root then
      let s := rootOutput s r t poison ws
      if r.rootOut + 1 = r.flits then s.modFab fun f => { f with reds := f.reds.filter fun x => x.id != r.id }
      else s.modRed r.id fun x => { x with rootOut := x.rootOut + 1 }
    else
      match t.parent node with
      | some (p, i) => s.modRed r.id fun x =>
          x.setSlot p i (x.slot p i ++ [{ poison := poison, bytes := ws.flatMap fun w => leBytes 4 w.toNat }])
      | none => s

/-! ## Routes (R233, R234, R248) -/

/-- The node of the hub; nodes below are the routers of the sheaves. -/
def hubNode : Nat := 64

/-- The half a node lies in: 2n + h for half h of CDn, West first; 8 for the hub. -/
def halfOf (node : Nat) : Nat := node / 8

/-- The node of a half at which its end of the seam or of a bridge attaches, by what lies at the other end. -/
def gateNode (half other : Nat) : Nat := if half = 8 then hubNode else 8 * half + Config.gate half other % 8

/-- The half, or the hub, that a flit enters when it leaves its half for another one (R233, R234): over the seam, over the ring bridge of
the West half to CD(n + 3) or of the East half to CD(n + 1), or over the West half's bridge to the hub. -/
def nextHalf (h g : Nat) : Nat :=
  if h = 8 then 2 * (g / 2)
  else if g = 8 then (if h % 2 = 0 then 8 else h - 1)
  else if h / 2 = g / 2 then g
  else if (g / 2 + 4 - h / 2) % 4 = 3 then (if h % 2 = 0 then 2 * ((h / 2 + 3) % 4) + 1 else h - 1)
  else if h % 2 = 0 then h + 1 else 2 * ((h / 2 + 1) % 4)

/-- One step on the mesh of a half: along the row, then along the column (R234). -/
def meshStep (a b : Nat) : Nat :=
  if a % 4 < b % 4 then a + 1
  else if b % 4 < a % 4 then a - 1
  else if a < b then a + 4
  else if b < a then a - 4
  else a

/-- The node that a flit at a node goes to next on its way to another (R234). -/
def nextHop (a b : Nat) : Nat :=
  let h := halfOf a
  let g := halfOf b
  if h = g then meshStep a b
  else
    let k := nextHalf h g
    if a = gateNode h k then gateNode k h else meshStep a (gateNode h k)

/-! ## Buffers of the fabric (R239, R243, R244) -/

/-- The class of what a flit carries (Table 6-3): 0 RSP, 1 WB, 2 RED, 3 REQ, 4 ING. -/
def contentClass (c : FlitContent) : Fin 5 := match c with
  | .readData | .stackFill | .storeAck | .tokenResult | .multicastDelivery => 0
  | .eviction | .forwardedStore => 1
  | .reductionPartial | .thresherOutput => 2
  | .readRequest | .storeRequest | .tokenRequest | .deadHint | .windowChange => 3
  | .hostWrite | .ingestWrite => 4

/-- The class of a flit. -/
def flitClass (x : FabFlit) : Fin 5 := contentClass x.content

/-- An input port of a node. -/
def fabPort (s : State) (node port : Nat) : Port :=
  (s.fab.ports.find? fun p => p.node == node && p.port == port).getD { node := node, port := port, shared := [], escape := [] }

/-- Sets an input port; an empty one is not listed. -/
def State.setPort (s : State) (p : Port) : State :=
  s.modFab fun f => { f with ports := (f.ports.filter fun q => !(q.node == p.node && q.port == p.port)) ++
    if p.shared.isEmpty && p.escape.isEmpty then [] else [p] }

/-- A flit that arrives finds a buffer: a shared one, or the escape buffer of its class (R244). -/
def Port.takes (p : Port) (x : FabFlit) : Bool := decide (p.shared.length < 32) || !(p.escape.any fun y => flitClass y == flitClass x)

/-- The flit takes a shared buffer when one is free, else the escape buffer of its class, which counts on its die (R244). -/
def takeBuffer (s : State) (node port : Nat) (x : FabFlit) : State :=
  let p := fabPort s node port
  if p.shared.length < 32 then s.setPort { p with shared := p.shared ++ [x] }
  else
    let s := s.setPort { p with escape := p.escape ++ [x] }
    if node < 64 then s.modFab fun f => { f with die := vmodN f.die (node / 16) fun d =>
      { d with escapeUse := vmodN d.escapeUse (flitClass x).val (· + 1) } } else s

/-- The flits on their way from one node to another, oldest first. -/
def onLink (s : State) (node out : Nat) : List FabFlit := (s.fab.transit.filter fun e => e.1 == node && e.2.1 == out).map (·.2.2)

/-- The output port of a node has downstream space for a flit of a class (R243, R244), beside the flits already on their way there: a
shared buffer, or the escape buffer of the class. A flit that has reached its node sinks (R239). -/
def outSpace (s : State) (node out cls : Nat) : Bool :=
  let p := fabPort s out node
  let t := onLink s node out
  out == node || decide (p.shared.length + t.length < 32) || !((p.escape ++ t).any fun y => (flitClass y).val == cls)

/-- The nodes of a flit that its output port at a node leads to. -/
def viaOut (x : FabFlit) (node out : Nat) : List Nat := x.dests.filter fun d => nextHop node d == out

/-- The first flit of a class that an input port holds for an output port. -/
def portFlit (p : Port) (out cls : Nat) : Option FabFlit :=
  (p.shared ++ p.escape).find? fun x => !(viaOut x p.node out).isEmpty && (flitClass x).val == cls

/-- Replaces the first of a kind. -/
def replaceFirst (x y : FabFlit) : List FabFlit → List FabFlit
  | [] => []
  | z :: zs => if z = x then y :: zs else z :: replaceFirst x y zs

/-- An input port after a flit has moved to an output port: a multicast flit stays for the nodes that its other routes lead to (R248). -/
def Port.moved (p : Port) (x : FabFlit) (out : Nat) : Port :=
  let rest := x.dests.filter fun d => nextHop p.node d != out
  let y := { x with dests := rest }
  let f := fun (l : List FabFlit) => if rest.isEmpty then dropFirst (· == x) l else replaceFirst x y l
  if p.shared.contains x then { p with shared := f p.shared } else { p with escape := f p.escape }

/-- The input ports of a node in the rotation that an output port serves them in: those after the one it served last first. -/
def rotationOf (s : State) (node out : Nat) : List Nat :=
  let ps := (s.fab.ports.filter fun p => p.node == node).map (·.port)
  let last := mget 0 s.fab.rotation (128 * node + out)
  let sorted := (List.range (maxN ps + 1)).filter fun i => ps.contains i
  sorted.filter (fun i => decide (last < i)) ++ sorted.filter fun i => decide (i ≤ last)

/-- What an output port moves next: of the classes that have downstream space the highest-ranked that holds a flit for it, its input
ports in rotation (R243). -/
def nextFlit (s : State) (node out : Nat) : Option (Port × FabFlit) :=
  ((List.range 5).filter (outSpace s node out)).findSome? fun c => (rotationOf s node out).findSome? fun i =>
    let p := fabPort s node i
    (portFlit p out c).map fun x => (p, x)

/-- An output port moves one flit towards the next node, or into its sink at this one (R239, R243, R248). -/
def moveFlit (s : State) (node out : Nat) : State := match nextFlit s node out with
  | none => s
  | some (p, x) =>
    let y := { x with dests := viaOut x node out }
    (s.setPort (p.moved x out)).modFab fun f => { f with
      rotation := mset 0 f.rotation (128 * node + out) p.port,
      sunk := if out = node then f.sunk ++ [(node, y)] else f.sunk,
      transit := if out = node then f.transit else f.transit ++ [(node, out, y)] }

/-- The output ports that hold a flit, each named once: node and output port. -/
def heldOuts (s : State) : List (Nat × Nat) :=
  (s.fab.ports.flatMap fun p => (p.shared ++ p.escape).flatMap fun x => x.dests.map fun d => (p.node, nextHop p.node d)).eraseDups

/-- Every output port of the fabric moves one flit if it can, again and again until none can (R243). -/
def moveAll : Nat → State → State
  | 0, s => s
  | k + 1, s =>
    let t := s.each (heldOuts s) fun s e => moveFlit s e.1 e.2
    if t.fab.ports = s.fab.ports then s else moveAll k t

/-- Moves that the flits in the buffers can make in all. -/
def moveFuel (s : State) : Nat := 1 + sumN (s.fab.ports.map fun p => sumN ((p.shared ++ p.escape).map fun x => x.dests.length))

/-! ## Die consensus (R259, R672) -/

/-- GRN_WIN_CTRL[n] as it reads (Table 5-8). -/
def windowWord (w : Window) : Nat :=
  b2n w.valid * 2 ^ 31 + w.prio % 256 * 2 ^ 16 + w.part % 256 * 2 ^ 8 + b2n w.detoff * 2 ^ 7 + w.cls % 8

/-- GRN_QUOTA[p] as it reads (Table 5-7). -/
def quotaNum (q : Quota) : Nat := q.pin % 32 * 2 ^ 16 + q.persist % 32 * 2 ^ 8 + q.stream % 32

/-- The window image (R672). -/
def windowImage (s : State) : List Byte :=
  (s.grn.win.toList.flatMap fun w => leBytes 8 w.base ++ leBytes 8 w.limit ++ leBytes 4 (windowWord w)) ++
    s.grn.quota.toList.flatMap fun q => leBytes 4 (quotaNum q)

/-- Changes the FAB registers of a die. -/
def State.modFabDie (s : State) (n : Nat) (f : FabDie → FabDie) : State := s.modFab fun x => { x with die := vmodN x.die n f }

/-- The FAB registers of a die. -/
def fabDie (s : State) (n : Nat) : FabDie := vat s.fab.die n {}

end Sys2Proof.Machine
end

