-- ==== Sys2Proof/Machine/ResetOps.lean ====
section
/-! DEFINITION. Fences, PART and DIE resets, and what each reset keeps (14): R506 to R514, R521 to R526 and Table 14-4. -/

namespace Sys2Proof.Machine

/-! ## Parties (R522, R523) -/

/-- A party: a compute die or a partition. -/
inductive Party where
  | part (p : Nat)
  | die (n : Nat)
  deriving DecidableEq, Repr

/-- A logical tile belongs to the party. -/
def Party.hasTile (k : Party) (s : State) (tile : Nat) : Bool := match k with
  | .part p => ownsSheaf s p (sheafOf tile)
  | .die n => dieOf tile == n

/-- A token unit belongs to the party: token t lies at sheaf t / 64. -/
def Party.hasToken (k : Party) (s : State) (t : Nat) : Bool := k.hasTile s (16 * (t / 64))

/-- A token is held by a group of the party. -/
def Party.holds (k : Party) (v : Token) : Bool := match v, k with
  | .held p _ _ _, .part q => p == q
  | .held _ tile _ _, .die n => dieOf tile == n
  | _, _ => false

/-- A request was made by the party's tiles. -/
def Party.made (k : Party) (r : MemReq) : Bool := match k, r.src with
  | .die n, _ => r.die == some n
  | .part p, .load _ => r.part == p
  | .part p, .store _ _ => r.part == p
  | .part p, .mcast _ _ _ _ => r.part == p
  | .part p, .engine _ _ => r.part == p && r.step.isSome
  | _, _ => false

/-- The requester of a waiter record lies on another die than the slice that holds it (R198). -/
def leased (w : Waiter) : Bool := w.req.die.any fun n => n != (homeSlice (lineAddr w.req.line)).val

/-! ## DMA engines that end (R571, R577) -/

/-- A DMA engine ends a transfer with a code: its status, its count and its vector (R571). -/
def State.endDma (s : State) (e : Nat) (c : Code) (done : Nat) : State :=
  let irq := (vat s.hif.dma e {}).irq
  let s := s.dropJobs fun j => match j with
    | .dmaOut f _ _ => f == e
    | .dmaIn f _ _ => f == e
    | _ => false
  let s := s.modHif fun h => { h with dma := vmodN h.dma e fun d => { d with busy := false, code := c, done := BitVec.ofNat 32 done } }
  let s := s.abandonUp fun _ src => src == .dma e
  let fn := dmaOwner s e
  if irq then s.signal fn (if fn = 0 then 16 + e else 8 + e) else s

/-- Bytes that a transfer from host memory has written to device memory in address order (R571): the lines that have answered before
the first that has not. -/
def dmaMoved (s : State) (e : Nat) : Nat :=
  let mine := fun (j : Nat × EngJob) => match j.2 with
    | .dmaIn f _ _ => f == e
    | _ => false
  let rec? := (s.grn.jobs.find? mine).bind fun j => s.grn.recs.find? fun r => r.job == j.1
  (rec?.bind fun r => r.left.head?).elim 0 fun l => 256 * l - (vat s.hif.dma e {}).dev.toNat

/-- Busy engines that satisfy a test end with DMA_ABORTED. -/
def State.abortDma (s : State) (p : Nat → Bool) : State :=
  s.each (idx 16 fun e => (vat s.hif.dma e {}).busy && p e) fun s e => s.endDma e .dmaAborted (dmaMoved s e)

/-! ## The fence sequence (R523 to R525) -/

/-- Step 1: the party's ports are fenced, so its requests are sunk, and its DMA engines and walks stop. -/
def fencePorts (s : State) (k : Party) : State :=
  let drop := fun (rs : List MemReq) => rs.filter fun r => !k.made r
  let s := s.modGrn fun g => { g with reqs := drop g.reqs, heldMerge := drop g.heldMerge, heldPool := drop g.heldPool,
                                      direct := g.direct.filter fun d => !k.made d.req }
  let s := s.dropJobs fun j => match j, k with
    | .fetch tile _ _, _ => k.hasTile s tile
    | .descriptor q, .part p => q / 4 == p
    | _, _ => false
  match k with
  | .part p => (s.abortDma fun e => dmaPart s e == some p).dropWalks fun w => w.part == p
  | .die _ => s

/-- The Thresher inputs that a die owes to reductions: reduction, node and input. -/
def owedInputs (s : State) (k : Party) : List (Nat × Nat × Nat) := match k with
  | .part _ => []
  | .die n => s.fab.reds.flatMap fun r => match redTree s r with
    | some t => (r.owed t n).map fun e => (r.id, e.1, e.2)
    | none => []

/-- Step 2: owed Thresher inputs are answered with POISON, queued token requests of others with BUSY unless the party holds the
token, and the party's waiter records are freed. -/
def fenceAnswers (s : State) (k : Party) : State :=
  let s := s.each (owedInputs s k) fun s e => s.modRed e.1 fun r => match redTree s r with
    | some t => r.poisonInput t e.2
    | none => r
  let busy := s.tile.tokenWait.filter fun w => k.hasToken s w.token && !k.hasTile s w.tile && !k.holds (token s w.token)
  let s := s.each busy fun s w =>
    ((s.modTile fun x => { x with tokenWait := x.tokenWait.filter fun v => v != w }).modGroup w.tile w.slot fun g =>
      { g with hold := .none }).tokenStatus w.tile w.slot w.dst.toNat w.keep w.lanes stBusy stBusy
  let s := s.modGrn fun g => { g with misses := g.misses.map fun m => { m with waiters := m.waiters.filter fun w => !k.made w.req } }
  s.each (List.range 4) fun s n => retryPool s n s.grn.heldPool.length

/-- Tokens a party holds, and contexts a partition has open (Table 14-5). -/
def heldTokens (s : State) (k : Party) : List Nat := (s.tile.tokens.filter fun e => k.holds e.2).map (·.1)
def openOf (s : State) (k : Party) : List OpenCtx := match k with
  | .part p => s.srv.opened.filter fun o => (getStep s o.step).any fun t => t.part == p
  | .die _ => []

/-- Step 3: every lease the party holds is revoked; a waiter of a revoked token is served with FORFEIT (R165, R167). -/
def fenceRevoke (s : State) (k : Party) : State :=
  let ts := heldTokens s k
  let os := openOf s k
  let s := s.modTile fun x => { x with tokens := x.tokens.map fun e => if k.holds e.2 then (e.1, .forfeit) else e,
                                       tokenWait := x.tokenWait.filter fun w => !k.hasTile s w.tile }
  let s := (s.each ts fun s t => s.serveToken t).modSrv fun x => { x with opened := x.opened.filter fun o => !os.contains o }
  match k with
  | .part p => s.modRhl fun r => { r with link := r.link.map fun x => { x with leases := x.leases.filter fun e => e.part != p } }
  | .die _ => s

/-- A partition holds ring credits (R433); RST_LEASE_STATUS has no count for them. -/
def holdsCredits (s : State) (k : Party) : Bool := match k with
  | .part p => (idx 2 fun i => (vat s.rhl.link i {}).leases.any fun e => e.part == p) != []
  | .die _ => false

/-- RST_LEASE_STATUS of a fence (R525, Table 14-9). -/
def leaseOf (s : State) (k : Party) : LeaseStatus :=
  let waiters := sumN (s.grn.misses.map fun m => (m.waiters.filter fun w => k.made w.req && leased w).length)
  let tokens := (heldTokens s k).length
  let thr := (owedInputs s k).length
  let ctxs := (openOf s k).length
  { code := if waiters + tokens + thr + ctxs = 0 ∧ holdsCredits s k = false then .ok else .leaseForfeit,
    kind := match k with
      | .part _ => 1
      | .die _ => 2,
    index := match k with
      | .part p => p
      | .die n => n,
    waiters := min waiters 0x7FFF, tokens := min tokens 0x1FFF, thresher := min thr 15, contexts := min ctxs 0x7FF }

/-- Steps 1 to 3 of a fence, and what it reports (R523 to R525, Table 16-4); a PART reset signals its partition's function itself. -/
def fence (s : State) (k : Party) : State :=
  let l := leaseOf s k
  let s := fenceRevoke (fenceAnswers (fencePorts s k) k) k
  let s := s.modRst fun r => { r with lease := l, fenceCount := r.fenceCount + 1 }
  match k with
  | .part p => if l.code = .ok then s else s.partEvent p .leaseForfeit
  | .die _ => (if l.code = .ok then s else s.event .leaseForfeit).signal 0 10

/-! ## The domain of a party -/

/-- Clears everything that the tiles of a set hold (R134, Table 14-4). -/
def State.clearTiles (s : State) (p : Nat → Bool) : State :=
  let keep := fun (w : Nat) (e : Nat) => !p (e / w)
  s.modTile fun t => { t with
    groups := t.groups.filter (fun e => keep 8 e.1), lastSlot := t.lastSlot.filter (fun e => keep 1 e.1),
    nextIssue := t.nextIssue.filter (fun e => keep 1 e.1), mxeFree := t.mxeFree.filter (fun e => keep 1 e.1),
    localMem := t.localMem.filter (fun e => keep (2 ^ 19) e.1), acc := t.acc.filter (fun e => keep 8192 e.1),
    storeBuf := t.storeBuf.filter (fun e => keep 1 e.tile), icache := t.icache.filter (fun e => keep (2 ^ 40) e.1),
    loads := t.loads.filter (fun l => keep 1 l.tile), tokenWait := t.tokenWait.filter (fun w => keep 1 w.tile),
    mxeOut := t.mxeOut.filter (fun w => keep 1 w.tile), tokenOut := t.tokenOut.filter (fun e => keep 1 e.1),
    tokenTurn := t.tokenTurn.filter fun u => u.reqs.all fun r => keep 1 r.tile }

/-- Sets RST_CAUSE (Table 14-7). -/
def State.setCause (s : State) (c : Code) (type source target : Nat) : State :=
  s.modRst fun r => { r with cause := { code := c, type := type, source := source, target := target } }

/-- A partition takes another state and signals it (Table 16-4). -/
def State.setPartState (s : State) (p : Nat) (v : PartState) : State :=
  if (partSt s p).state = v then s else (s.modPart p fun q => { q with state := v }).signalPart p

/-! ## PART reset (R366, R511) -/

/-- A resource that the partition owns is failed, or R512 left it FAULTED (R511). -/
def partResBad (s : State) (p : Nat) : Bool :=
  (partSt s p).resFailed ||
    (List.range 64).any (fun k => ownsSheaf s p k && dieFailed s (k / 16)) ||
    (List.range 512).any fun x => ownsChan s p x && stackFailed s (x / 64)

/-- Queue and completion-ring pointers of a partition to 0, unread entries and waiting doorbells dropped (R366). -/
def clearQueues (s : State) (p : Nat) : State :=
  let s := s.modStp fun t => { t with queue := t.queue.mapIdx fun q x => if q / 4 = p then { x with head := 0, tail := 0 } else x,
                                      dbWait := t.dbWait.filter fun d => d.part != p }
  s.modPart p fun q => { q with cqTail := 0, cqHead := 0, cqPhase := true }

/-- A PART reset (R366, R511, R523): it does nothing to a DISABLED partition. -/
def partReset (s : State) (p source : Nat) : State :=
  if (partSt s p).state = .disabled then s
  else
    let s := fence s (.part p)
    let s := s.endPartSteps p (fun _ => true) .stepAborted
    let s := (clearQueues s p).clearTiles fun t => ownsSheaf s p (sheafOf t)
    let bad := partResBad s p
    let s := if bad then s.modRst fun r => { r with lease := { r.lease with code := .partResFailed } } else s
    ((s.modPart p fun q => { q with
      state := if q.state = .resetting then .resetting else if bad then .faulted else .active }).signalPart p).setCause .ok 3 source p

/-! ## DIE reset (R261, R263, R509, R510) -/

/-- A step holds a tile of a die. -/
def stepOnDie (s : State) (t : Step) (n : Nat) : Bool := t.phase != .read && (stepTiles s t).any fun x => dieOf x == n

/-- The partition owns a sheaf of a die. -/
def partOnDie (s : State) (p n : Nat) : Bool := (List.range 16).any fun k => ownsSheaf s p (16 * n + k)

/-- What waits in the Threshers of a die is lost and answered with POISON (R509). -/
def resetThreshers (s : State) (n : Nat) : State :=
  let lose := fun (t : TreeEntry) (e : Nat × List RedFlit) =>
    if siteDie (t.node (e.1 / 4)).site = some n then (e.1, e.2.map fun _ => { poison := true, bytes := [] }) else e
  s.modFab fun f => { f with reds := f.reds.map fun r => match redTree s r with
                               | some t => { r with slots := r.slots.map (lose t) }
                               | none => r }

/-- Fences a die, ends its steps with a code, faults its partitions and clears its tiles (R509, R510, R523). -/
def dieDown (s : State) (n : Nat) (c : Code) : State :=
  let s := fence s (.die n)
  let s := s.each ((s.stp.steps.filter fun t => stepOnDie s t n).map (·.id)) fun s i => s.endStep i c
  let s := s.each (idx 8 fun p => partOnDie s p n && (partSt s p).state == .active) fun s p => s.setPartState p .faulted
  (resetThreshers s n).clearTiles fun t => dieOf t == n

/-- A DIE reset (R509): the die is reloaded in place from the hub's copy, which its own copies equal again (R261). -/
def dieReset (s : State) (n : Nat) (c : Code) (source : Nat) : State :=
  ((dieDown s n (if c = .ok then .stepAborted else c)).modFabDie n fun d =>
      { d with reloading := true, reloaded := false, reloadAt := s.tmp.frames, badShare := none, badWindow := none, badBeat := none }).setCause
    c 4 source n

/-- A disagreement or a hang resets the die, or fails it at its fourth (R261, R263, R526). -/
def dieReload (s : State) (n : Nat) (c : Code) (source : Nat) : State :=
  if (fabDie s n).reloads = 3 then ((dieDown s n .dieFailed).modFabDie n fun d => { d with failed := true }).event .dieFailed
  else (dieReset s n c source).modFabDie n fun d => { d with reloads := d.reloads + 1 }

/-! ## Rails (R79, R93, R95, R631 to R633, R637) -/

/-- The fused power-up list (R632): each rail after the VR_PG of the one before, then the clamps and the clocks. -/
def fusedUp : List SeqOp :=
  ([5, 2, 1, 0, 4, 3].flatMap fun r => [{ op := 0, rail := r, delayUs := 0 }, { op := 2, rail := r, delayUs := 0 }]) ++
    [{ op := 4, rail := 0, delayUs := 0 }, { op := 6, rail := 0, delayUs := 0 }]

/-- The fused power-down list (R632). -/
def fusedDown : List SeqOp :=
  [{ op := 7, rail := 0, delayUs := 0 }, { op := 5, rail := 0, delayUs := 0 }] ++
    [3, 4, 0, 1, 2, 5].map fun r => { op := 1, rail := r, delayUs := 100 }

/-- The power-up and power-down lists in force (R79, R95). -/
def upList (s : State) : List SeqOp := (s.str.bind (·.seq)).elim fusedUp (·.1)
def downList (s : State) : List SeqOp := (s.str.bind (·.seq)).elim fusedDown (·.2)

/-- Bits of VR_EN. -/
def enBits (ds : List Nat) : BitVec 64 := ds.foldl (fun (m : BitVec 64) d => m ||| BitVec.ofNat 64 (2 ^ d)) 0

/-- The rail of CDn and GRn that an entry names (R631). -/
def railBit (n r : Nat) : BitVec 64 := enBits [8 * n + r]

/-- The rails that a stage 1 step raises (R633). -/
def hubRails (step : Nat) : BitVec 64 :=
  if step = 2 then enBits [32, 33] else if step = 3 then enBits [34, 35] else if step = 4 then enBits [36, 37] else 0

/-- The stack rails of CDn (Table 18-3). -/
def stackRails (n : Nat) : BitVec 64 := enBits [40 + 3 * n, 41 + 3 * n, 42 + 3 * n]

/-- The rails of a die, its AUX rails included. -/
def coreRails (n : Nat) : BitVec 64 := enBits ((List.range 8).map fun r => 8 * n + r)

/-- Some VR_PG is high before its VR_EN rises (R637). -/
def pgEarly (s : State) (m : BitVec 64) : Bool := m &&& ~~~s.rst.vrEn &&& s.rst.vrPg != 0

/-- Raises rails. -/
def State.railsOn (s : State) (m : BitVec 64) : State := s.modRst fun r => { r with vrEn := r.vrEn ||| m }

/-- Removes rails; a regulator's power-good falls with its enable (log 116). -/
def State.railsOff (s : State) (m : BitVec 64) : State :=
  s.modRst fun r => { r with vrEn := r.vrEn &&& ~~~m, vrPg := r.vrPg &&& ~~~(m &&& r.vrEn) }

/-- The power-goods of raised rails have come (R638). -/
def State.powerGood (s : State) (m : BitVec 64) : State := s.modRst fun r => { r with vrPg := r.vrPg ||| (m &&& r.vrEn) }

/-- The wake state of a die. -/
def dieWake (s : State) (n : Nat) : DieWake := vat s.rst.die n {}

/-- Changes the wake state of a die. -/
def State.modDie (s : State) (n : Nat) (f : DieWake → DieWake) : State := s.modRst fun r => { r with die := vmodN r.die n f }

/-- What an entry of SEQ does to CDn and GRn; WAIT_PG and DELAY only take time. -/
def seqOp (s : State) (n : Nat) (o : SeqOp) : State :=
  if o.op = 0 then s.railsOn (railBit n o.rail)
  else if o.op = 1 then s.railsOff (railBit n o.rail)
  else if o.op = 4 then s.modDie n fun d => { d with clamped := false }
  else if o.op = 5 then s.modDie n fun d => { d with clamped := true }
  else if o.op = 6 then s.modDie n fun d => { d with clocked := true }
  else if o.op = 7 then s.modDie n fun d => { d with clocked := false }
  else s

/-- Runs the power-down list of a die (R79, R93, R632). -/
def seqDown (s : State) (n : Nat) : State := s.each (downList s) fun s o => seqOp s n o

/-- Runs the power-up list of a die in one go, each power-good coming in its turn (R492). -/
def seqUpAll (s : State) (n : Nat) : State := (s.each (upList s) fun s o => seqOp s n o).powerGood (coreRails n)

/-- The bytes of a line that its stack has not got: the dirty ones, or whole poisoned bursts (R538). -/
def flushLine (s : State) (l : GLine) : State :=
  let bad := linePoisoned s l.line
  s.flush l.line (if bad then dirtyBursts l.dirty else l.dirty) l.data bad

/-- Those who wait at a register whose fill has come are answered. -/
def flushWaiters (s : State) (m : Miss) : State := match m.fillData with
  | some d => if m.bad then poisonWaiters s m else answerWaiters s m d
  | none => s

/-- What a miss register keeps goes to the stack. -/
def flushMiss (s : State) (m : Miss) : State := (flushWaiters s m).flush m.line m.mask m.data false

/-- A miss register that keeps no bytes and installs no line. -/
def Miss.bare (m : Miss) : Miss :=
  { m with mask := 0, data := List.replicate 256 0, dead := false, alloc := false, win := none, stores := [], steps := [] }

/-- Slice n has left service (R231, R232): no line is lost or left stale, so what is dirty or kept under a miss goes to the stacks;
later fills install nothing, and what waits at the slice goes to the stack controllers. -/
def sliceLeaves (s : State) (n : Nat) : State :=
  let home := fun (l : Nat) => (homeSlice (lineAddr l)).val == n
  let mine := fun (rs : List MemReq) => rs.filter fun r => home r.line
  let rest := fun (rs : List MemReq) => rs.filter fun r => !home r.line
  let reads := mine s.grn.heldMerge ++ mine s.grn.heldPool
  let leaving := fun (w : WbWait) => home w.line && !w.isStore
  let stores := (s.mem.wbWait.filter leaving).filterMap fun w => match w.andThen with
    | .store r => some r
    | _ => none
  let s := (s.each (s.grn.lines.filter fun l => home l.line) flushLine).each (s.grn.misses.filter fun m => home m.line) flushMiss
  let s := s.modGrn fun g => { g with
    lines := g.lines.filter (fun l => !home l.line),
    misses := (g.misses.filter fun m => !home m.line || m.fillData.isNone).map (fun m => if home m.line then m.bare else m),
    heldMerge := rest g.heldMerge, heldPool := rest g.heldPool,
    slice := vmodN g.slice n fun x => { x with trackers := [], killed := [], patrolSet := 0 } }
  let s := s.modMem fun m => { m with wbWait := m.wbWait.filter fun w => !leaving w }
  (s.each reads readDirect).each stores serveStore

/-! ## Retention (Table 14-4) -/

/-- The power orders at COLD (Table 13-1). -/
def coldOrders (b : Bin) : Orders := { capHost := binHostCap b, capBoard := binMax b }

/-- What is left of the package when every rail but AON goes (columns PKG and STANDBY of Table 14-4), or AON as well (COLD). The
wake sequence rewrites the rest. -/
def railsLost (s : State) (cold : Bool) : State :=
  { State.reset with
    pending := s.pending, out := s.out, free := s.free + 1, nextId := s.nextId, fuses := s.fuses, flash := s.flash, tray := s.tray,
    sld := { nonce := freeVal s, bank := if cold then false else s.sld.bank, loadCount := if cold then 0 else s.sld.loadCount },
    rhl := { rank := if cold then none else s.rhl.nextRank.orElse fun _ => s.rhl.rank },
    tile := if cold then {} else { spare := s.tile.spare, failedTile := s.tile.failedTile, sheafFailed := s.tile.sheafFailed },
    mem := if cold then {} else { stack := s.mem.stack.map fun t => { tempMax := t.tempMax } },
    pwr := if cold then { orders := coldOrders s.fuses.bin }
      else { orders := s.pwr.orders, measuredMax := s.pwr.measuredMax, die := s.pwr.die.map fun d => { tempMax := d.tempMax } },
    rst := { aon := s.rst.aon, resetN := s.rst.resetN, perst := s.rst.perst, cause := s.rst.cause, lockout := s.rst.lockout,
             done := s.rst.done, failedStep := s.rst.failedStep, tries := s.rst.tries, failDie := s.rst.failDie, step := s.rst.step,
             thermtrip := s.rst.thermtrip, faultN := s.rst.faultN, wdtExpired := s.rst.wdtExpired, fwBank := s.rst.fwBank,
             vrPg := s.rst.vrPg &&& ~~~s.rst.vrEn } }

/-! ## Failures of wake stages (R516 to R519) -/

/-- WAKE_LOCKOUT (R519): every rail but AON off, PKG_FAULT_N asserted. -/
def lockout (s : State) : State :=
  let r := s.rst
  (railsLost s false).modRst fun q => { q with lockout := true, faultN := false, done := false, step := r.step }

/-- A failure in stage 1 (R516): every rail but AON goes; a retry after 20 ms, or lockout after the third retry. -/
def stageOneFail (s : State) : State :=
  let r := s.rst
  let t := r.stage1Tries + 1
  let s := (railsLost s false).modRst fun q =>
    { q with done := false, failedStep := r.step, tries := min t 4, failDie := 0 }
  let s := if r.step = 6 then s.event .fwBad else s
  if 4 ≤ t then lockout s
  else s.modRst fun q =>
    { q with stage1Tries := t, retryWait := true,
             wake := r.wake.map fun k => match k with
               | .warm _ => .pkg
               | k => k }

/-- A stage 1 step begins: its rails are raised, unless a power-good is high already, which fails the step at once (R637). -/
def hubStep (s : State) (k : Nat) : State :=
  let s := s.modRst fun r => { r with step := k }
  if pgEarly s (hubRails k) then stageOneFail s else s.railsOn (hubRails k)

/-- RST_WAKE_STEP names a step that failed (Table 14-8). -/
def stepFailed (s : State) (step tries die : Nat) : State :=
  s.modRst fun r => { r with failedStep := step, tries := min tries 4, failDie := die }

/-- Where stage 2 stands (R515, R518): over when every die is done or failed, and lockout when every die is failed. -/
def settleStage2 (s : State) : State :=
  let live := idx 4 fun n => !(dieWake s n).failed
  match live.map fun n => (dieWake s n).step with
  | [] => lockout s
  | k :: ks => s.modRst fun r => { r with step := ks.foldl min k }

/-- Both stacks of a die count as failed (R279). -/
def failStacks (s : State) (n : Nat) : State :=
  let bad := fun (k : Stack) => { k with failed := true, trained := false }
  (s.modStack (2 * n) bad).modStack (2 * n + 1) bad

/-- A boot load under way is given up when its wake goes back to stage 2. -/
def dropBoot (s : State) : State := match s.sld.job with
  | some j => match j.kind with
    | .boot _ => s.modSld fun l => { l with job := none, busy := false }
    | _ => s
  | none => s

/-- The rails of a die go: its power-down list runs, and nothing of it stays on (R517, R642). -/
def dieRailsOff (s : State) (n : Nat) : State := (seqDown s n).railsOff (coreRails n)

/-- A failure in stage 2 for a die (R517): its rails go; a retry after 20 ms, or the die is failed after the third retry. -/
def stageTwoFail (s : State) (n : Nat) : State :=
  let d := dieWake s n
  let t := d.tries + 1
  let at_ := if 13 ≤ s.rst.step then s.rst.step else d.step
  let s := dieRailsOff (((dropBoot s).modRst fun r => { r with failedStep := at_, tries := min t 4, failDie := n }).modDie n fun d =>
    { d with tries := t, powered := false, seqIdx := 0, step := 9, waiting := true }) n
  let s := if 4 ≤ t then
      let s := (failStacks (s.modDie n fun d => { d with failed := true, waiting := false, step := 13 }) n).event .dieWakeFail
      s.modRst fun r => { r with cause := { r.cause with code := .dieWakeFail } }
    else s
  settleStage2 s

/-! ## Stage 2 (R95, R515) -/

/-- The entry that raises the rail of a power-good that is high already fails the step at once (R637). -/
def seqBlocked (s : State) (n : Nat) (o : SeqOp) : Bool := o.op == 0 && pgEarly s (railBit n o.rail)

/-- The power-up list of a die from an entry on, up to the next WAIT_PG: after the last entry, step 9 is done. -/
def seqRun (n : Nat) : List SeqOp → Nat → State → State
  | [], _, s => settleStage2 (s.modDie n fun d => { d with step := 10, powered := true })
  | o :: os, i, s =>
    if o.op = 2 then s.modDie n fun d => { d with seqIdx := i }
    else if seqBlocked s n o then stageTwoFail s n
    else seqRun n os (i + 1) (seqOp s n o)

/-- A die begins stage 2 (R516, R517). -/
def startDie (s : State) (n : Nat) : State :=
  seqRun n (upList s) 0 (s.modDie n fun d => { d with step := 9, seqIdx := 0, waiting := false })

/-- The WAIT_PG of a die is met (R93, R515): its list runs on. -/
def seqResume (s : State) (n : Nat) : State :=
  let i := (dieWake s n).seqIdx
  let s := ((upList s)[i]?).elim s fun o => s.powerGood (railBit n o.rail)
  seqRun n ((upList s).drop (i + 1)) (i + 1) s

/-- Stage 2 begins for every die that is not failed. -/
def startStage2 (s : State) : State :=
  settleStage2 (s.each (idx 4 fun n => !(dieWake s n).failed) fun s n => startDie s n)

/-! ## WARM reset (R508, R674) -/

/-- Posted writes of the host and of Trellis fills that are still on their way. -/
def hostWrites (s : State) : List MemReq :=
  (s.grn.reqs ++ s.fab.ingWait ++ s.mem.wbWait.filterMap fun w => match w.andThen with
    | .store r => some r
    | _ => none).filter fun r => match r.src with
      | .posted _ _ => r.write
      | .trellis _ => r.write
      | _ => false

/-- Every dirty line, every store kept under a miss and every write on its way reaches its stack, or the write buffer of a tripped one
(R508 with KEEP_MEM, R490, R304). -/
def writeBackAll (s : State) : State :=
  let s := s.each (s.mem.wbWait.filter WbWait.isStore) fun s w => s.flush w.line w.mask w.data w.poisoned
  let s := s.each s.grn.lines flushLine
  let s := s.each s.grn.misses fun s m => s.flush m.line m.mask m.data false
  s.each (hostWrites s) fun s r => s.flush r.line r.mask r.data r.poisoned

/-- A partition at a WARM reset (Table 14-4): its queue registers and C0 reserve return to reset, its account and errors stay. -/
def warmPart (q : PartSt) : PartSt :=
  { state := if q.state = .disabled then .disabled else .resetting, share := q.share, account := q.account, cfgErr := q.cfgErr,
    dbErr := q.dbErr, service := q.service, frameCharge := q.frameCharge, resFailed := q.resFailed }

/-- Steps, queues, streams, slots and requests at a WARM reset. -/
def warmHub (s : State) (keep : Bool) : State :=
  let s := s.modStp fun t => { part := t.part.map warmPart }
  let s := s.modSrv fun x => { x with ctx := if keep then x.ctx else [], opened := [], walks := [], walkWait := [], goWait := [] }
  let s := s.modTrl fun t => { t with slot := t.slot.map fun x => { pushAddr := x.pushAddr, pushStamp := x.pushStamp } }
  let s := s.modBwr fun b => { b with used := [], held := [] }
  let waiting := s.hif.bar2Reads
  let s := (s.modHif fun h => { h with posted := [], bar2Reads := [] }).abandonUp fun _ _ => true
  let reading := s.grn.jobs.filterMap fun e => match e.2 with
    | .bar2 fn _ _ => some fn
    | _ => none
  (s.each waiting fun s r => s.emit (.bar2Data r.fn none false)).each reading fun s fn => s.emit (.bar2Data fn none false)

/-- Tiles, slices, fabric and stacks at a WARM reset. -/
def warmDies (s : State) (keep : Bool) : State :=
  let s := s.modTile fun t => { spare := t.spare, failedTile := t.failedTile, sheafFailed := t.sheafFailed, groupFault := t.groupFault,
                                fetchMiss := t.fetchMiss }
  let s := if keep then writeBackAll s else s.modMem fun m => { m with cells := [], poison := [], wbuf := [] }
  let s := s.modGrn fun g => { g with lines := [], misses := [], direct := [], heldMerge := [], heldPool := [], reqs := [], armed := [],
                                      jobs := [], recs := [], stage := Vector.replicate 64 {},
                                      slice := g.slice.map fun x => { x with trackers := [], killed := [] } }
  let s := s.modFab fun f => { f with ports := [], transit := [], sunk := [], rotation := [], ingCredit := Vector.replicate 4 64, ingWait := [],
                                      reds := [], die := f.die.map fun d => { d with reloading := false, reloaded := false } }
  s.modMem fun m => { m with wbWait := [], retries := [] }

/-- A WARM reset begins (R508): PKG_GOOD drops, steps in flight complete with STEP_ABORTED, every partition is reset, and stages 2
and 3 of the wake follow. -/
def warmStart (s : State) (keep commit : Bool) (source : Nat) : State :=
  let s := s.modRst fun r => { r with warm := some commit, done := false, wake := some (.warm keep), step := 9, stage1Tries := 0,
                                      retryWait := false, die := r.die.map fun d => { d with tries := 0, waiting := false } }
  let s := (s.setCause .ok 2 source 0).refreshGood
  let s := s.each (s.stp.steps.map (·.id)) fun s i => s.endStep i .stepAborted
  let s := s.each (idx 8 fun p => (partSt s p).state != .disabled) fun s p => s.signalPart p
  let s := warmDies (warmHub (s.abortDma fun _ => true) keep) keep
  startStage2 ((s.modPwr fun p => { p with stage := .run, diesDown := false }).ringDown)

end Sys2Proof.Machine
end

