-- ==== Sys2Proof/Machine/PowerStage.lean ====
section
/-! DEFINITION. The stages of the power state (13): entering and leaving PARK, STANDBY and OFF as the effective state changes (R487 to
R493, R677), and the start of a wake. -/

namespace Sys2Proof.Machine

/-- Writes every ageing count to the wear log (R545). -/
def writeWear (s : State) : State := s.modFlash fun f => { f with wearLog := s.gln.age, wearUnreadable := false }

/-- A wake begins at a step (R507, R515); the record of the last failure stays in AON. -/
def beginWake (s : State) (kind : WakeKind) (step : Nat) : State :=
  hubStep (s.modRst fun r => { r with wake := some kind, done := false, stage1Tries := 0, retryWait := false,
                                      die := Vector.replicate 4 {} }) step

/-- Steps that end without a completion record (R489). -/
def dropSteps (s : State) : State :=
  (s.each (s.stp.steps.map (·.id)) fun s i => (s.clearStep i).unpin i).modStp fun t => { t with steps := [] }

/-- OFF becomes effective (R489): admission stops, PKG_GOOD drops, OFF_READY is reported. -/
def enterOff (s : State) : State :=
  (((dropSteps (writeWear s)).modPwr fun p => { p with stage := .off, offReady := true }).refreshGood).emit .offReady

/-- STANDBY is entered (R493): PKG_GOOD drops and every rail but AON goes. -/
def enterStandby (s : State) : State := (railsLost (writeWear s) false).modPwr fun p => { p with stage := .standby }

/-- STANDBY is left (R493, Table 14-2): as after a PKG reset, from step 2. -/
def leaveStandby (s : State) : State :=
  ((beginWake s .standby 2).setCause .ok 1 9 0).modPwr fun p => { p with stage := .run }

/-- The dies and slices are powered up again, and the stacks leave self-refresh (R492). -/
def leavePark (s : State) : State :=
  let s := s.modRst fun r => { r with die := r.die.map fun d => { d with powered := !d.failed } }
  let s := s.each (idx 4 (diePowered s)) seqUpAll
  let s := s.modMem fun m => { m with stack := m.stack.map fun k => { k with selfRefresh := k.tripped } }
  s.modPwr fun p => { p with stage := .exiting, exitBeats := 0, diesDown := false }

/-- The dies are powered down (R490): dirty lines are written back, the stacks enter self-refresh, the link groups will be in
TRANSIT (R491), and what Table 14-4 does not keep is lost. -/
def enterPark (s : State) : State :=
  let s := writeBackAll s
  let s := s.modGrn fun g => { g with lines := [], misses := [], direct := [], heldMerge := [], heldPool := [], reqs := [],
                                      recs := g.recs.filter (fun e => e.left.isEmpty),
                                      slice := g.slice.map fun x => { x with trackers := [], killed := [], patrolSet := 0 } }
  let s := settlePosted ((s.modFab fun f => { f with ingWait := [], ingCredit := Vector.replicate 4 64 }).modHif fun h =>
    { h with posted := [] })
  let s := s.modTrl fun t => { t with slot := t.slot.map fun x => { x with fill := x.fill.map fun f => { f with unacked := [] } } }
  let s := (s.modMem fun m => { m with wbWait := [], stack := m.stack.map fun k => { k with selfRefresh := k.trained && !k.failed } }).clearTiles
    fun _ => true
  let s := (s.modRst fun r => { r with die := r.die.map fun d => { d with powered := false } }).each (List.range 4) seqDown
  let s := (s.reshapeEvent none [] [ownRank s]).modRhl fun r => { r with state := .leaving }
  s.modPwr fun p => { p with stage := .parked, diesDown := true }

/-- The state machine can act: AON is on, no THERMTRIP and no lockout. -/
def powerLive (s : State) : Bool := s.rst.aon && !s.rst.thermtrip && !s.rst.lockout

/-- Brings the stage in line with the effective state (R483, R489 to R493, R677); during a wake only OFF acts, the rest at its end. -/
def settlePower (s : State) : State :=
  if !powerLive s then s
  else
    let set := fun (v : ParkStage) => s.modPwr fun p => { p with stage := v }
    let s' : State := match effState s with
      | .off => if s.pwr.stage = .off then s else enterOff s
      | .standby => if s.pwr.stage = .off ∨ s.pwr.stage = .standby ∨ s.rst.done = false then s else enterStandby s
      | .park => match s.pwr.stage with
        | .run => if s.rst.done then set .stopping else s
        | .resuming => set .stopping
        | .standby => leaveStandby s
        | _ => s
      | .run => match s.pwr.stage with
        | .stopping => set .run
        | .draining => set .resuming
        | .parked => leavePark s
        | .standby => leaveStandby s
        | _ => s
    s'.refreshGood

/-- Makes a change of the orders: PWR_EVENT notes changes of the effective cap and state, and the stage follows. -/
def State.order (s : State) (f : Orders → Orders) : State :=
  let was := effState s
  let s := s.capChange fun s => s.modPwr fun p => { p with orders := f p.orders }
  settlePower (if effState s = was then s else s.powerEvent evState)

/-- What a frame boundary does to the stage (R490, R677): admission stops, and steps that are placed and not admitted wait to be placed
again. -/
def stageBoundary (s : State) : State := match s.pwr.stage with
  | .stopping => (s.modPwr fun p => { p with stage := .draining }).modStp fun t =>
      { t with steps := t.steps.map fun x => if x.phase = .placed then { x with phase := .read } else x }
  | .resuming => s.modPwr fun p => { p with stage := .run }
  | _ => s

end Sys2Proof.Machine
end

