-- ==== Sys2Proof/Machine/GranaryCmds.lean ====
section
/-! DEFINITION. The commands of the Granary (05): reads, fills and stores at a slice, write-buffer grants, windows and quotas. -/

namespace Sys2Proof.Machine

/-! ## Requests at a slice -/

/-- A request on its way to its slice, by its name. -/
def findReq (s : State) (id : Nat) (write : Bool) : Option MemReq := s.grn.reqs.find? fun r => r.id == id && r.write == write

/-- Takes a request off its way. -/
def State.dropReq (s : State) (id : Nat) : State := s.modGrn fun g => { g with reqs := g.reqs.filter fun r => r.id != id }

/-- A read reaches its home slice (R192). -/
def granaryRead (s : State) (req : Nat) (ecc : GrEcc) : State := match findReq s req false with
  | none => s
  | some r => serveRead (s.dropReq req) r ecc

/-- The stack read of a line, issued and not held, returns its eight bursts (R197). -/
def granaryFill (s : State) (line : Nat) (bursts : List Burst) : State :=
  match readUnderWay s line, directUnderWay s line with
  | some m, _ => fillArrives s m bursts
  | none, some d => directArrives s d bursts
  | none, none => s

/-- Two stores of one tile, one function or one Trellis slot. -/
def sameSource (q r : MemReq) : Bool := match q.src, r.src with
  | .store t _, .store u _ => t == u
  | .posted f _, .posted g _ => f == g
  | .trellis n, .trellis m => n == m
  | _, _ => false

/-- The stores that wait for a write-buffer entry, their own or their victim's (R241). -/
def storesAtSlice (s : State) : List MemReq := s.mem.wbWait.filterMap fun w => match w.andThen with
  | .store r => some r
  | .ack r => some r
  | _ => none

/-- The reads that are on their way, held, or waiting for a fill. -/
def readsUnderWay (s : State) : List MemReq :=
  (s.grn.reqs.filter fun r => !r.write) ++ s.grn.heldMerge ++ s.grn.heldPool ++ s.grn.direct.map (·.req) ++
    s.grn.misses.flatMap fun m => m.waiters.map (·.req)

/-- A read with a dead hint, made by the tile of a store. -/
def hintOf (s : State) (q r : MemReq) : Bool := q.last && match q.src, r.src with
  | .load id, .store t _ => s.tile.loads.any fun l => l.id == id && l.tile == t
  | _, _ => false

/-- A store stays on its way: an earlier store of its source to the line has not taken effect (R171, R172, R560), or an earlier load of
its tile has not delivered its dead hint for the line (R183). -/
def storeBlocked (s : State) (r : MemReq) : Bool :=
  let earlier := fun (q : MemReq) => q.line == r.line && decide (q.id < r.id)
  ((s.grn.reqs.filter (·.write)).any fun q => earlier q && sameSource q r) || (storesAtSlice s).any (fun q => earlier q && sameSource q r) ||
    (readsUnderWay s).any fun q => earlier q && hintOf s q r

/-- A store reaches its home slice (R199). -/
def granaryStore (s : State) (req : Nat) : State :=
  match findReq s req true with
  | none => s
  | some r => if storeBlocked s r then s else settlePosted (serveStore (s.dropReq req) r)

/-- The oldest write that waits for an entry of the pseudo-channel takes it (R241). -/
def wbGrant (s : State) (x : Nat) (found : List Burst) : State :=
  match nextWrite s x with
  | none => s
  | some w => settlePosted (grantWrite s w found)

/-! ## Windows and quotas (R211 to R216) -/

/-- The partition the function may change windows and quotas of: any for the PF. -/
def winAllowed (s : State) (fn : Nat) (parts : List Nat) : Bool :=
  fn == 0 || match fnPart s fn with
    | some p => parts.all (· == p)
    | none => false

/-- A write that R213 ignores. -/
def winDenied (s : State) (via : Nat) : State := s.modSlice via fun x => { x with winErr := true }

/-- A write of GRN_WIN_BASE[n] or GRN_WIN_LIMIT[n] is staged (R212). -/
def stageWindow (s : State) (fn via n : Nat) (isLimit : Bool) (v : Nat) : State :=
  if winAllowed s fn [(vat s.grn.win n {}).part] then
    s.modGrn fun g => { g with stage := vmodN g.stage n fun t =>
      if isLimit then { t with limit := some (v / 256 * 256 + 255) } else { t with base := some (v / 256 * 256) } }
  else winDenied s via

/-- The window a control word makes of staged and standing bounds (R212, Table 5-8). -/
def windowOf (w : Window) (t : Stage) (ctrl : Nat) : Window :=
  { base := t.base.getD w.base, limit := t.limit.getD w.limit, valid := bitOf ctrl 31, prio := bitsOf ctrl 23 16,
    part := bitsOf ctrl 15 8, detoff := bitOf ctrl 7, cls := bitsOf ctrl 2 0 }

/-- A write of GRN_WIN_CTRL[n] (R212, R213): the staged values are committed with it at the next beat boundary, with what an earlier
write of the same beat has armed. -/
def controlWindow (s : State) (fn via n : Nat) (v : W32) : State :=
  let w := vat s.grn.win n {}
  if winAllowed s fn [w.part, bitsOf v.toNat 15 8] then
    s.modGrn fun g => { g with armed := assocSet g.armed n (windowOf ((assoc g.armed n).getD w) (vat g.stage n {}) v.toNat),
                               stage := vmodN g.stage n fun _ => {} }
  else winDenied s via

/-- The entries armed by control writes take effect in every slice at once (R212). -/
def commitWindows (s : State) : State :=
  s.modGrn fun g => { g with win := g.armed.foldl (fun v e => vmodN v e.1 fun _ => e.2) g.win, armed := [] }

/-- The quota a word of GRN_QUOTA[p] gives (Table 5-7). -/
def quotaWord (v : Nat) : Quota := { pin := bitsOf v 20 16, persist := bitsOf v 12 8, stream := bitsOf v 4 0 }

/-- A quota that R209 allows for a partition. -/
def quotaOk (s : State) (p : Nat) (q : Quota) : Bool :=
  decide (q.pin + q.persist + 1 ≤ waysOf s p) && decide (1 ≤ q.stream) && decide (q.stream ≤ waysOf s p)

/-- A write of GRN_QUOTA[p] (R213, R216). -/
def writeQuota (s : State) (fn via p : Nat) (v : W32) : State :=
  if winAllowed s fn [p] then
    if quotaOk s p (quotaWord v.toNat) then s.modGrn fun g => { g with quota := vmodN g.quota p fun _ => quotaWord v.toNat }
    else s.modSlice via fun x => { x with quotaErr := true }
  else winDenied s via

/-- GRN_WIN_STAGE_WRITE (R212). -/
def execGrnWinStageWrite (fn : Fn) (via : Die) (n : Fin 64) (isLimit : Bool) (value : W64) (s : State) :
    Host.Outcome State Fault Refusal := .next (hostAccess s fn fun s => stageWindow s fn via n isLimit value.toNat)

/-- GRN_WIN_CTRL_WRITE (R212). -/
def execGrnWinCtrlWrite (fn : Fn) (via : Die) (n : Fin 64) (value : W32) (s : State) : Host.Outcome State Fault Refusal :=
  .next (hostAccess s fn fun s => controlWindow s fn via n value)

/-- WINDOW_COMMIT (R212): the beat boundary after a control write. -/
def execWindowCommit (s : State) : Host.Outcome State Fault Refusal := .next (commitWindows s)

/-- GRN_QUOTA_WRITE (R216). -/
def execGrnQuotaWrite (fn : Fn) (via : Die) (p : Part) (value : W32) (s : State) : Host.Outcome State Fault Refusal :=
  .next (hostAccess s fn fun s => writeQuota s fn via p value)

/-- A plan's window change (R214): it takes effect at once, over what a host write of the same beat has armed (R215). -/
def planWindow (s : State) (t : Step) (n base limit : Nat) (ctrl : W32) : State :=
  let w := vat s.grn.win n {}
  if w.part = t.part ∧ bitsOf ctrl.toNat 15 8 = t.part then
    s.modGrn fun g =>
      let now := match assoc g.armed n with
        | some h => h
        | none => w
      { g with armed := assocDel g.armed n,
               win := vmodN g.win n fun _ => windowOf now { base := some (base / 256 * 256), limit := some (limit / 256 * 256 + 255) } ctrl.toNat }
  else s.faultStep t.id .windowDenied

/-- STREAM_TRACKER_TIMEOUT (R219): a detected tracker without an expected miss for 1,024 beats leaves the detected state. -/
def execStreamTrackerTimeout (slice : Die) (tracker : Fin 32) (s : State) : Host.Outcome State Fault Refusal :=
  .next <| match (sliceSt s slice).trackers[tracker.val]?.join with
  | some t =>
    if t.detected && decide (t.lastBeat + 1024 ≤ s.tmp.elapsed) then
      s.modSlice slice fun x => { x with trackers := x.trackers.set tracker.val none }
    else s
  | none => s

/-- MATCH_TIE_CLEAR (R113). -/
def execMatchTieClear (slice : Die) (s : State) : Host.Outcome State Fault Refusal :=
  .next (s.modSlice slice fun x => { x with matchTie := 0 })

end Sys2Proof.Machine
end

