-- ==== Sys2Proof/Machine/StepCmds.lean ====
section
/-! DEFINITION. The commands of steps and partitions (09), and the slots of plans (02): descriptors, admission, slots, completion,
shares, resets of partitions, queue registers. -/

namespace Sys2Proof.Machine

/-! ## Descriptors (R342 to R344, R351, Table 9-4) -/

/-- Steps are placed, admitted and read: the package is in RUN, not on its way to PARK (R490, R491), and no WARM reset is under way. -/
def admitting (s : State) : Bool :=
  (s.pwr.stage == .run || s.pwr.stage == .stopping) && s.rst.warm.isNone && s.rst.done

/-- The C0 reserve of a partition holds every tile, or none of them, of a grade (R359). -/
def inReserve (s : State) (p tile : Nat) : Bool := (partSt s p).c0Sheaves.getLsbD (sheafOf tile)

/-- The plan record that a descriptor names may run in the partition (check 5). -/
def planFits (s : State) (p : Nat) (r : PlanRec) : Bool :=
  r.part != 0xFF || r.grades.all fun g =>
    g.tiles.all (fun x => ownsSheaf s p (sheafOf x)) && g.refs.all fun e =>
      if e.1 = 3 then (s.str.bind fun t => t.trees[e.2]?).any fun x => x.head.part == p
      else (s.str.bind fun t => t.mcasts[e.2]?).any fun x => x.head.part == p

/-- Check 6: the contexts lie in the partition's range, and the argument block, with the ingest view, in its memory (R374, R416). -/
def ctxFits (s : State) (p cls first count arg : Nat) (ingest : Bool) : Bool :=
  decide (count ≤ (if cls = 0 then 1024 else 896)) &&
    (count == 0 || (partDesc s p).any fun d => decide (d.ctxBase ≤ first) && decide (first + count ≤ d.ctxBase + d.ctxCount)) &&
    (rangeCode s p arg (if ingest then 0x480 else 64)).isNone

/-- Checks 8 to 10 (R64, R359). -/
def gradeChecks (s : State) (p cls : Nat) (r : PlanRec) : Option Code :=
  match chooseNow s r with
  | none => some .gradeUnavailable
  | some g =>
    if cls = 0 then
      if g.fgBeats ≤ c0Period s - 2 ∧ g.tiles.all (inReserve s p) = true then none else some .c0Nofit
    else if g.tiles.any (inReserve s p) then some .tileReserved else none

/-- The checks of Table 9-4 that need no descriptor. -/
def partChecks (s : State) (p : Nat) : Option Code :=
  if s.str.isNone then some .structNone else if (partSt s p).state != .active then some .partFaulted else none

/-- The checks of Table 9-4 in order, on the bytes of a descriptor. -/
def descChecks (s : State) (p cls : Nat) (b : List Byte) : Option Code :=
  match partChecks s p with
  | some c => some c
  | none =>
    let flags := fieldAt b 2 1
    if 8 ≤ flags ∨ fieldAt b 3 1 ≠ 0 ∨ ((b.drop 0x20).any (· != 0)) = true then some .descBad
    else if cls = 0 ∧ ((partDesc s p).any (·.c0)) = false then some .classDenied
    else
      match (planRec s (fieldAt b 0 2) p).filter (planFits s p) with
      | none => some .planUnknown
      | some r =>
        if !ctxFits s p cls (fieldAt b 4 2) (fieldAt b 6 2) (fieldAt b 8 8) (bitOf flags 2) then some .ctxRange
        else if partTripped s p then some .stackTrip
        else gradeChecks s p cls r

/-- The step that a descriptor asks for. GRADE of its record is free until a grade is selected (log 2). -/
def descStep (s : State) (p cls : Nat) (b : List Byte) : Step :=
  let flags := fieldAt b 2 1
  { id := s.nextId, part := p, cls := cls, planId := fieldAt b 0 2, runPlan := fieldAt b 0 2, irq := bitOf flags 0, ordered := bitOf flags 1,
    ingest := bitOf flags 2, ctxFirst := fieldAt b 4 2, ctxCount := fieldAt b 6 2, argAddr := fieldAt b 8 8,
    tag := BitVec.ofNat 64 (fieldAt b 0x10 8), notBefore := fieldAt b 0x18 8, readBeat := s.beat, phase := .read, start := 0,
    grade := (freeVal s).toNat % 8, begun := [], running := [], delays := [], overrun := 0, charge := 0, fault := none, faultAt := none, dlMiss := false, tokenHeld := false, slip := false,
    snap := none, snapCode := none, dstep := 0 }

/-- The code of a descriptor that cannot be read, outside the partition or POISON (R340, R304, R283), after the checks that need none. -/
def descUnread (s : State) (p : Nat) (c : Code) : Code :=
  (partChecks s p).getD (if c == .poison && partTripped s p then .stackTrip else c)

/-- The bytes of the descriptor at an address of a queue, or why it cannot be read (R340, R344, R369): the class of the queue and
master 91 make the access. -/
def descBytes (s : State) (q a : Nat) : State × (Code ⊕ List Byte) := match rangeCode s (q / 4) a 64 with
  | some c => (s, .inl c)
  | none =>
    let (s, r) := s.rd { master := 91, cls := q % 4, deadline := none, step := none } a 64
    (s, match r.code with
      | some c => .inl c
      | none => .inr r.bytes)

/-- Reads and checks the descriptor at the head of a queue (R344, R351); the entry is consumed. Of a descriptor that cannot be read,
every field of the record is free but its code (log 2). -/
def readDescriptor (s : State) (q : Nat) : State :=
  let p := q / 4
  let cls := q % 4
  let k := queueSt s q
  let (s, b) := descBytes s q (k.base.toNat + 64 * k.head)
  let t := descStep s p cls (match b with
    | .inl _ => freeBytes s.drawn 64
    | .inr b => b)
  let code := match b with
    | .inl c => some (descUnread s p c)
    | .inr b => descChecks s p cls b
  let s := (s.fresh.modFree (· + 9)).modQueue q fun x => { x with head := (x.head + 1) % ringSize x.size }
  let s := s.modStp fun x => { x with steps := x.steps ++ [t] }
  match code with
  | some c => s.refuseStep t.id c
  | none => s

/-- A queue's next descriptor may be read (R344 to R351): it has entries up to its TAIL, a free completion record, and the package is
in RUN. -/
def mayReadDesc (s : State) (q : Nat) : Bool :=
  let k := queueSt s q
  k.head != k.tail && cqFree s (q / 4) && (s.pwr.stage == .run || s.pwr.stage == .stopping) && s.rst.warm.isNone

/-- The descriptor read of a queue, when its access is answered: nothing where the queue may no longer be read. -/
def descriptorIn (s : State) (q : Nat) : State := if mayReadDesc s q then readDescriptor s q else s

/-- STP_DOORBELL (R345 to R348, R565, R566). -/
def execStpDoorbell (fn : Fn) (bar4 : Bool) (p : Part) (value : W32) (s : State) : Host.Outcome State Fault Refusal :=
  .next (hostAccess s fn fun s => doorbellWrite s fn bar4 p value)

/-! ## Admission (R64 to R66, R72, R356, R360 to R364, R453, R455) -/

/-- A tile is held by a step in flight. -/
def tileHeld (s : State) (tile : Nat) : Bool := s.stp.steps.any fun t => t.phase == .live && (stepTiles s t).contains tile

/-- A COLLECTIVE step runs only as a MEMBER, in a partition with RING (R455). -/
def collAllowed (s : State) (p : Nat) : Bool := isMember s && (partDesc s p).any (·.ring)

/-- Admits a step with a grade at the current beat: charged TILES × FG_BEATS, its contexts opened (R363, R373). -/
def startStep (s : State) (t : Step) (r : PlanRec) (g : PlanGrade) : State :=
  let n := r.tiles * g.fgBeats
  ((s.chargePart t.part n).modStep t.id fun x => { x with phase := .live, start := s.beat, grade := g.grade, charge := n, begun := [], running := [], delays := [] }).openCtxs t

/-- Defers an admission to the next frame boundary (R72): the snapshot is discarded, the step slips with cause DELAYED. -/
def deferStep (s : State) (t : Step) : State :=
  ((dropSnap s t).modStep t.id fun x => { x with phase := .read }).slip t.id causeDelayed s.beat 0

/-- The code a placed or C0 step completes with at its start beat before any grade is chosen. -/
def startCode (s : State) (t : Step) : Option Code :=
  if partTripped s t.part then some .stackTrip
  else if collectiveStep s t && !collAllowed s t.part then some .collNotMember else none

/-- Admits a placed step whose start beat has come. -/
def admitPlaced (s : State) (t : Step) : State :=
  let coll := collectiveStep s t
  match startCode s t with
  | some c => s.refuseStep t.id c
  | none =>
    if coll && t.start != s.beat then s.refuseStep t.id .collStart
    else if t.ingest && (t.snap.isNone || viewPending s t.id) then s
    else
      match stepPlan s t with
      | none => s.refuseStep t.id .planUnknown
      | some r =>
        match chooseGrade s r s.beat with
        | none => s.refuseStep t.id .gradeUnavailable
        | some g =>
          if g.tiles.any (tileHeld s) then if coll then s.refuseStep t.id .collStart else deferStep s t
          else match t.snapCode with
            | some c => refuseIngest s t c
            | none => startStep s t r g

/-- STEP_ADMIT (R356): at the start beat, or the first foreground beat reached after it (R665). -/
def execStepAdmit (step : Nat) (s : State) : Host.Outcome State Fault Refusal :=
  .next <| match getStep s step with
  | none => s
  | some t => if t.phase == .placed && decide (t.start ≤ s.beat) && isFg s.beat && admitting s then admitPlaced s t else s

/-- C0 steps of a partition that are read and not yet admitted, in queue order. -/
def c0Waiting (s : State) (p : Nat) : List Step := s.stp.steps.filter fun t => t.part == p && t.cls == 0 && t.phase == .read

/-- Steps in flight of class C0, and of the others (R354, R360). -/
def c0InFlight (s : State) : Nat := (s.stp.steps.filter fun t => t.cls == 0 && t.phase == .live).length
def restInFlight (s : State) : Nat := (s.stp.steps.filter fun t => t.cls != 0 && t.phase != .read).length

/-- The step's contexts can be opened at a slot start: none is open, and the context cache has entries (R376). -/
def ctxsFree (s : State) (t : Step) : Bool :=
  (stepCtxs t).all (fun c => !ctxOpen s c) && decide (s.srv.opened.length + t.ctxCount ≤ 1024)

/-- The head C0 step of a partition at a slot start (R360 to R362): the state after it, and whether the next one is considered. -/
def c0Head (s : State) (t : Step) : State × Bool :=
  let coll := collectiveStep s t
  if s.beat < t.notBefore then (s, false)
  else
    match startCode s t with
    | some c => (s.refuseStep t.id c, true)
    | none =>
      if coll && t.notBefore != s.beat then (s.refuseStep t.id .collStart, true)
      else
        match stepPlan s t with
        | none => (s.refuseStep t.id .planUnknown, true)
        | some r =>
          match chooseGrade s r s.beat with
          | none => (s.refuseStep t.id .gradeUnavailable, true)
          | some g =>
            if (t.ingest && (t.snap.isNone || viewPending s t.id)) || g.tiles.any (tileHeld s) || !ctxsFree s t || decide (32 ≤ c0InFlight s) then
              if coll then (s.refuseStep t.id .collStart, true) else (s, false)
            else match t.snapCode with
              | some c => (refuseIngest s t c, true)
              | none => (startStep s t r g, true)

/-- Admits the C0 steps of a partition in queue order until one waits (R360). -/
def c0Admit (s : State) : List Step → State
  | [] => s
  | t :: ts =>
    match c0Head s t with
    | (s', true) => c0Admit s' ts
    | (s', false) => s'

/-- COLLECTIVE C0 steps whose NOT_BEFORE has come and that were not admitted at it (R362). -/
def c0Late (s : State) (p : Nat) : State :=
  s.each ((c0Waiting s p).filter fun t => collectiveStep s t && decide (t.notBefore ≤ s.beat)) fun s t => s.refuseStep t.id .collStart

/-- A C0 step that was not admitted at a slot start has no start beat yet: its snapshot is discarded (R413). -/
def c0Resnap (s : State) (p : Nat) : State := s.each ((c0Waiting s p).filter fun t => t.snap.isSome) dropSnap

/-- C0_SLOT_START (R358, R360 to R362). -/
def execC0SlotStart (s : State) : Host.Outcome State Fault Refusal :=
  .next <|
    if ((isC0Slot s s.beat && !s.tmp.again) || s.stp.c0Due) && isFg s.beat && admitting s then
      (s.modStp fun t => { t with c0Due := false }).each (idx 8 fun p => (partSt s p).state == .active) fun s p =>
        c0Resnap (c0Late (c0Admit s (c0Waiting s p)) p) p
    else s

/-! ## Slots (R59, R70 to R75, R135, R202, R214, R669) -/

/-- A slot of a step's plan. -/
def slotOf (s : State) (t : Step) (n : Nat) : Option PlanSlot := (runGrade s t).bind fun g => g.slots[n]?

/-- The step's grade names the tile, or the entry (R669). -/
def namesTile (s : State) (t : Step) (tile : Nat) : Bool := (runGrade s t).any fun g => g.tiles.contains tile
def namesRef (s : State) (t : Step) (kind n : Nat) : Bool := (runGrade s t).any fun g => g.refs.contains (kind, n)

/-- Launch arguments in v0 to v7, each the same in every lane (R135). -/
def argRegs (args : List W32) : NMap W32 :=
  ((args.take 8).zipIdx).foldl (fun m e => (List.range 32).foldl (fun m l => mset 0 m (32 * e.2 + l) e.1) m) []

/-- The group that a launch starts (R135). -/
def newGroup (t : Step) (id base pc last : Nat) (args : List W32) : Group :=
  { id := id, part := t.part, step := t.id, cls := t.cls, codeBase := base, pc := pc, exec := 0xFFFFFFFF, preds := List.replicate 7 0,
    regs := argRegs args, rc := [], ready := [], predReady := [], memReady := 0, loadsBack := 0, resumeAt := 0,
    fetching := false, hold := .none, deadline := last, slotEnd := last }

/-- Launches a kernel onto a free group slot (R135, R141). -/
def launchKernel (s : State) (t : Step) (last tile slot codeId pc words : Nat) (args : List W32) : State :=
  match s.str.bind fun x => x.codes.find? fun c => c.id == codeId && (c.part == t.part || c.part == 0xFF) with
  | none => s.faultStep t.id .planBodyBad
  | some c =>
    if !namesTile s t tile then s.faultStep t.id .planBodyBad
    else if (getGroup s tile slot).isSome then s
    else
      let a := c.addr + 8 * pc
      let (s, r) := if words = 0 then (s, EngGot.none 0) else s.rd (planWho t last (sheafOf tile)) a (8 * words)
      match r.code with
      | some e => s.faultStep t.id e
      | none =>
        ((s.preload tile a (codeWords r.bytes words)).fresh.modTile fun x =>
          { x with groups := assocSet x.groups (gKey tile slot) (newGroup t s.nextId c.addr pc last args) }).fetch tile slot

/-- A multicast read of one line (R202), charged to the lowest sheaf of its mask; it writes the tile of every sheaf of the mask, and
the grade names each of them (R669). -/
def multicastRead (s : State) (t : Step) (last entry tile laddr dev : Nat) : State :=
  if !(namesRef s t 6 entry && (mcastSheaves s entry).all fun k => namesTile s t (16 * k + tile)) then s.faultStep t.id .planBodyBad
  else if localSize < laddr + 256 then s.faultStep t.id .localRange
  else
    match rangeCode s t.part (dev / 256 * 256) 256 with
    | some c => s.faultStep t.id c
    | none =>
      s.fresh.modGrn fun g => { g with reqs := g.reqs ++
        [{ id := s.nextId, line := dev / 256, part := t.part, master := (mcastSheaves s entry).headD 0, cls := t.cls,
           deadline := planDeadline t last, last := false, write := false, mask := BitVec.allOnes 256, data := [], poisoned := false,
           die := none, step := some t.id, src := .mcast t.id entry tile laddr }] }

/-- A plan transfer of a DMA engine between device and local memory (R340, R283, R669). -/
def planTransfer (s : State) (t : Step) (last : Nat) (toLocal : Bool) (engine tile laddr dev len : Nat) : State :=
  if !namesTile s t tile then s.faultStep t.id .planBodyBad
  else if localSize < laddr + len then s.faultStep t.id .localRange
  else
    match rangeCode s t.part dev len with
    | some c => s.faultStep t.id c
    | none =>
      if toLocal then
        let (s, r) := s.rd (planWho t last (64 + engine)) dev len
        match r.code with
        | some c => s.faultStep t.id c
        | none => s.writeLocal tile laddr r.bytes
      else s.wrFor (planWho t last (64 + engine)) t.id dev (readLocal s tile laddr len)

/-- A plan transfer that reads the PLAN_AREA of a context (R378). -/
def planAreaRead (s : State) (t : Step) (ctx tile laddr : Nat) : State :=
  if !namesCtx t ctx then s.faultStep t.id .ctxRange
  else if !namesTile s t tile then s.faultStep t.id .planBodyBad
  else if localSize < laddr + 64 then s.faultStep t.id .localRange
  else s.writeLocal tile laddr (mgetN 0 s.srv.ctx (ctxKey ctx 0x40) 64)

/-- Starts a reduction of a TREE entry (R242, R669). -/
def startReduction (s : State) (t : Step) (tree flits : Nat) : State :=
  if !namesRef s t 3 tree then s.faultStep t.id .planBodyBad
  else if flits = 0 then s
  else s.fresh.modFab fun f => { f with reds := f.reds ++
    [{ id := s.nextId, step := t.id, part := t.part, tree := tree, flits := flits, slots := [], rootOut := 0, code := none }] }

/-- An action that needs device memory: it is an engine's job (R188). -/
def usesMemory (a : SlotAction) : Bool := match a with
  | .launch _ _ _ _ words _ => decide (0 < words)
  | .toLocal _ _ _ _ _ => true
  | .toDevice _ _ _ _ _ => true
  | .kvGather _ _ _ _ _ => true
  | .kvGatherDev _ _ _ _ => true
  | .kvScatter _ _ _ _ _ => true
  | .kvScatterDev _ _ _ _ => true
  | .wnwVerify _ _ _ => true
  | .trlScatter _ => true
  | .trlShift _ => true
  | _ => false

/-- What one action of a slot does. -/
def runAction (t : Step) (last : Nat) (s : State) (a : SlotAction) : State :=
  match a with
  | .launch tile slot codeId pc words args => launchKernel s t last tile slot codeId pc words args
  | .reduce tree flits => startReduction s t tree flits
  | .multicast entry tile laddr dev => multicastRead s t last entry tile laddr dev
  | .windowChange n base limit ctrl => planWindow s t n base limit ctrl
  | .toLocal e tile laddr dev len => planTransfer s t last true e tile laddr dev len
  | .toDevice e tile laddr dev len => planTransfer s t last false e tile laddr dev len
  | .kvGather ctx token count tile laddr => kvTransfer s t (planWho t last 88) true ctx token count (.local_ tile laddr)
  | .kvGatherDev ctx token count dev => kvTransfer s t (planWho t last 88) true ctx token count (.device dev)
  | .kvScatter ctx token count tile laddr => kvTransfer s t (planWho t last 88) false ctx token count (.local_ tile laddr)
  | .kvScatterDev ctx token count dev => kvTransfer s t (planWho t last 88) false ctx token count (.device dev)
  | .planArea ctx tile laddr => planAreaRead s t ctx tile laddr
  | .rtkWalk req => planWalk s t last req
  | .wnwVerify inA outA count => winnowVerify s t (planWho t last 88) inA outA count
  | .trlScatter desc => trlScatter s t (planWho t last 89) desc
  | .trlShift desc => trlShift s t (planWho t last 89) desc
  | .collective op dim int32 n root tile laddr =>
    if namesTile s t tile then s.startColl t op dim int32 n root tile laddr else s.faultStep t.id .planBodyBad

/-- The action of a step's slot, when its accesses are answered: nothing where the step is gone. -/
def actionRun (s : State) (step last : Nat) (a : SlotAction) : State := match getStep s step with
  | none => s
  | some t => runAction t last s a

/-- Starts an action of a slot: at once, or as an engine's job. -/
def startAction (t : Step) (slot last : Nat) (s : State) (a : SlotAction) : State :=
  if usesMemory a then s.post (.action t.id slot last a) else runAction t last s a

/-- A job of a slot of a step is under way. -/
def slotBusy (s : State) (step slot : Nat) : Bool := s.grn.jobs.any fun e => match e.2 with
  | .action i n _ _ => i == step && n == slot
  | _ => false

/-- The dies that a tree's partials come from and that its nodes stand on (Table 6-4). -/
def treeDies (s : State) (tree : Nat) : List Nat := match s.str.bind fun x => x.trees[tree]? with
  | some e => (e.nodes.flatMap fun n => (n.ins.filter fun c => decide (c < 0x40)).map (· / 16) ++
      (if n.site < 8 then [n.site / 2] else []))
  | none => []

/-- The compute dies that an action of a slot runs on (R74): those of the tiles and sheaves it names. -/
def actionDies (s : State) (a : SlotAction) : List Nat := match a with
  | .launch tile _ _ _ _ _ => [dieOf tile]
  | .reduce tree _ => treeDies s tree
  | .multicast entry _ _ _ => (mcastSheaves s entry).map (· / 16)
  | .toLocal _ tile _ _ _ => [dieOf tile]
  | .toDevice _ tile _ _ _ => [dieOf tile]
  | .kvGather _ _ _ tile _ => [dieOf tile]
  | .kvScatter _ _ _ tile _ => [dieOf tile]
  | .planArea _ tile _ => [dieOf tile]
  | .collective _ _ _ _ _ tile _ => [dieOf tile]
  | _ => []

/-- The issue limiter of one of these dies is engaged. -/
def onLimited (s : State) (dies : List Nat) : Bool := dies.any fun n => (vat s.pwr.die n {}).limiter != 0

/-- Every slot under way on a die whose limiter is engaged is marked (R74). -/
def markLimited (s : State) : State :=
  s.modStp fun x => { x with steps := x.steps.map fun t =>
    { t with running := t.running.map fun r => { r with limited := r.limited || onLimited s r.dies } } }

/-- A slot of a step starts: once, at its mapped foreground beat (R39, R59, R665). -/
def startsNow (s : State) (t : Step) (slot : Nat) (p : PlanSlot) : Bool :=
  t.phase == .live && s.beat == slotFirst t p && !t.begun.contains slot

/-- The slot is under way until its end beat. -/
def beginSlot (s : State) (t : Step) (slot : Nat) (p : PlanSlot) (actions : List SlotAction) : State :=
  let dies := actions.flatMap (actionDies s)
  s.modStep t.id fun x => { x with begun := slot :: x.begun,
                                   running := x.running ++ [{ slot := slot, last := slotLast t p, dies := dies, limited := onLimited s dies }] }

/-- A slot of a step in flight begins at its mapped beat, with what its actions start (R59). -/
def slotStart (s : State) (step slot : Nat) (actions : List SlotAction) : State := match getStep s step with
  | none => s
  | some t =>
    match slotOf s t slot with
    | none => s
    | some p => if startsNow s t slot p then (beginSlot s t slot p actions).each actions (startAction t slot (slotLast t p)) else s

/-- The code of a collective that misses a ring slot (R73, R461): COLL_MEMBER_TRIP where any member shows STACK_TRIP. -/
def missedCode (s : State) : Code :=
  if anyTripped s || s.rhl.link.toList.any fun l => l.state == .up && l.peer.any fun w => w.thermal.getLsbD 1 then .collMemberTrip
  else .collTime

/-- A slot of a step ends: its overrun counts, and delays the slots that follow it (R70, R71). -/
def endSlot (p : PlanSlot) (slot overrun : Nat) (t : Step) : Step :=
  { t with running := t.running.filter (fun r => r.slot != slot), overrun := t.overrun + overrun,
           delays := t.delays ++ [(p.off + p.beats, slotDelay t p + overrun)] }

/-- SLOT_END (R70 to R75, R461): a slot ends once its last beat is reached and its transfers are done; what the slot overran delays the step's later slots, and a missed ring slot ends its collective. -/
def execSlotEnd (step slot overrun : Nat) (ringMissed : Bool) (s : State) : Host.Outcome State Fault Refusal :=
  .next <| match getStep s step with
  | none => s
  | some t =>
    match slotOf s t slot with
    | none => s
    | some p =>
      match t.running.find? fun r => r.slot == slot with
      | none => s
      | some r =>
        if r.last ≤ s.beat ∧ slotBusy s step slot = false then
          let s := if r.limited then s.slip step causeLimiter r.last overrun
            else if overrun = 0 then s else s.slip step causeOverrun r.last overrun
          let s := s.modStep step (endSlot p slot overrun)
          if ringMissed && collectiveStep s t then s.endStep step (missedCode s) else s
        else s

/-! ## Completion (R352, R353) -/

/-- Something that a step started still runs. -/
def outstanding (s : State) (id : Nat) : Bool :=
  let mc := fun (r : MemReq) => match r.src with
    | .mcast i _ _ _ => i == id
    | _ => false
  (s.grn.jobs.any fun e => e.2.step == some id) || (s.tile.groups.any fun e => e.2.step == id) || (s.fab.reds.any fun r => r.step == id) || (s.rhl.colls.any fun c => c.step == id) ||
    (s.srv.walks.any fun w => w.step == some id) || (s.srv.walkWait.any fun e => e.2.1 == id) ||
    s.grn.reqs.any mc || (s.grn.direct.any fun d => mc d.req) || s.grn.heldMerge.any mc || s.grn.heldPool.any mc || (s.grn.misses.any fun m => m.waiters.any fun w => mc w.req) ||
    ((s.hif.upstream.filter fun u => !u.abandoned).map (·.src) ++ s.hif.upWait.map (·.src)).any fun u => match u with
      | .kv i _ _ _ => i == id
      | _ => false

/-- The step's run has reached its last beat, with what it overran (R71). -/
def runOver (s : State) (t : Step) : Bool := decide (fgBeat t.start (stepBeats s t - 1 + runDelay t) ≤ s.beat)

/-- STEP_COMPLETE (R352, R353): nothing of the step still runs, and it is at its last beat or has faulted. -/
def execStepComplete (step : Nat) (s : State) : Host.Outcome State Fault Refusal :=
  .next <| match getStep s step with
  | none => s
  | some t => if t.phase == .live && !outstanding s step && (t.fault.isSome || runOver s t) then s.completeStep step else s

/-! ## Registers of partitions (R357 to R359, R366 to R369) -/

/-- A write of STP_SHARE[p] (R357). -/
def writeShare (s : State) (fn p : Nat) (v : Nat) : State :=
  if fn != 0 then s
  else if v % 65536 = 0 then s.cfgError p
  else s.modPart p fun q => { q with shareNext := some (BitVec.ofNat 16 v) }

/-- STP_SHARE_WRITE (R357). -/
def execStpShareWrite (fn : Fn) (p : Part) (value : W32) (s : State) : Host.Outcome State Fault Refusal :=
  .next (hostAccess s fn fun s => writeShare s fn p value.toNat)

/-- A write of STP_C0_PHASE (R358); the register belongs to no partition, so an ignored write sets CFG_ERR of every one. -/
def writeC0Phase (s : State) (fn : Nat) (v : Nat) : State :=
  let x := v % 1024
  if fn != 0 then s
  else if 1 ≤ x ∧ x ≤ c0Period s - 2 then s.modStp fun t => { t with c0PhaseNext := some x }
  else s.each (List.range 8) fun s p => s.cfgError p

/-- STP_C0_PHASE_WRITE (R358). -/
def execStpC0PhaseWrite (fn : Fn) (value : W32) (s : State) : Host.Outcome State Fault Refusal :=
  .next (hostAccess s fn fun s => writeC0Phase s fn value.toNat)

/-- A write of STP_C0_SHEAVES[p] (R359). -/
def writeC0Sheaves (s : State) (fn p : Nat) (v : W64) : State :=
  if fn != 0 then s
  else if (List.range 64).all fun k => !v.getLsbD k || ownsSheaf s p k then s.modPart p fun q => { q with c0SheavesNext := some v }
  else s.cfgError p

/-- STP_C0_SHEAVES_WRITE (R359). -/
def execStpC0SheavesWrite (fn : Fn) (p : Part) (value : W64) (s : State) : Host.Outcome State Fault Refusal :=
  .next (hostAccess s fn fun s => writeC0Sheaves s fn p value)

/-- PART_RESET (R366): only the PF's write acts. -/
def execPartReset (fn : Fn) (p : Part) (s : State) : Host.Outcome State Fault Refusal :=
  .next (hostAccess s fn fun s => if fn.val = 0 then partReset s p 5 else s)

/-- No step of the partition is in flight. -/
def noSteps (s : State) (p : Nat) : Bool := s.stp.steps.all fun t => t.part != p

/-- Master 91 has 32 units on every channel group that a C0 queue ring of this base and size touches (R369). -/
def c0RingOk (s : State) (base size : Nat) : Bool :=
  (List.range (groupOf (base + 64 * 2 ^ size - 1) + 1 - groupOf base)).all fun i => decide (32 ≤ budgetOf s 91 (groupOf base + i))

/-- A size that R341 and R351 allow. -/
def ringSizeOk (v : BitVec 4) : Bool := decide (4 ≤ v.toNat) && decide (v.toNat ≤ 12)

/-- A write of a base or size of a queue or completion ring (R367 to R369). -/
def writeQueueCfg (s : State) (fn : Nat) (w : QueueCfg) : State :=
  let bad := fun (p : Nat) => s.cfgError p
  let page := fun (v : W64) => v &&& ~~~(0xFFF : W64)
  match w with
  | .qBase q v =>
    let p := q.val / 4
    let k := queueSt s q
    if !mayPart s fn p then s
    else if k.head == k.tail && noSteps s p && (q.val % 4 != 0 || c0RingOk s (page v).toNat k.size.toNat) then
      s.modQueue q fun k => { k with base := page v, head := 0, tail := 0 }
    else bad p
  | .qSize q v =>
    let p := q.val / 4
    let k := queueSt s q
    if !mayPart s fn p then s
    else if k.head == k.tail && noSteps s p && ringSizeOk v && (q.val % 4 != 0 || c0RingOk s k.base.toNat v.toNat) then
      s.modQueue q fun k => { k with size := v, head := 0, tail := 0 }
    else bad p
  | .cqBase p v =>
    let k := partSt s p
    if !mayPart s fn p then s
    else if k.cqHead == k.cqTail && noSteps s p then
      s.modPart p fun k => { k with cqBase := page v, cqHead := 0, cqTail := 0, cqPhase := true }
    else bad p
  | .cqSize p v =>
    let k := partSt s p
    if !mayPart s fn p then s
    else if k.cqHead == k.cqTail && noSteps s p && ringSizeOk v then
      s.modPart p fun k => { k with cqSize := v, cqHead := 0, cqTail := 0, cqPhase := true }
    else bad p

/-- QUEUE_CONFIG_WRITE (R368, R369). -/
def execQueueConfigWrite (fn : Fn) (w : QueueCfg) (s : State) : Host.Outcome State Fault Refusal :=
  .next (hostAccess s fn fun s => writeQueueCfg s fn w)

end Sys2Proof.Machine
end

