-- ==== Sys2Proof/Machine/PlaceOps.lean ====
section
/-! DEFINITION. Placement at a frame boundary (R343, R354 to R356, R375, R453). -/

namespace Sys2Proof.Machine

/-- The index of a foreground beat in the sequence of all foreground beats (R59); a reserved beat has the index of the one before. -/
def fgIndex (b : Nat) : Nat := frameOf b * 1022 + min (bInF b) 1022

/-- The foreground beat of an index above 0. -/
def fgOfIndex (i : Nat) : Nat := (i - 1) / 1022 * 1024 + (i - 1) % 1022 + 1

/-- Two steps cannot hold their tiles over these beats: a common tile and common foreground beats. -/
def collides (s : State) (tiles : List Nat) (first beats : Nat) (t : Step) : Bool :=
  t.phase != .read && (stepTiles s t).any (fun x => tiles.contains x) &&
    decide (first < fgIndex t.start + stepBeats s t + runDelay t) && decide (fgIndex t.start < first + beats)

/-- The tiles are free from a beat on for these foreground beats. -/
def tilesFree (s : State) (tiles : List Nat) (start beats : Nat) : Bool :=
  s.stp.steps.all fun t => !collides s tiles (fgIndex start) beats t

/-- Entries of the context cache that steps of classes C1 to C3 hold, or will hold when the steps placed start (R375). -/
def restCtxs (s : State) : Nat :=
  sumN ((s.stp.steps.filter fun t => t.cls != 0 && t.phase != .read).map (·.ctxCount))

/-- The step's contexts can be opened (R375). -/
def ctxRoom (s : State) (t : Step) : Bool :=
  (s.stp.steps.all fun u => u.phase == .read || !ctxClash t u) && decide (restCtxs s + t.ctxCount ≤ 896)

/-- ORDERED holds a step behind an earlier one of its queue until the frame boundary after that one's completion record (R343). -/
def orderedWait (s : State) (mine : List Step) (t : Step) : Bool :=
  t.ordered && (mine.head?.any (fun u => u.id != t.id) || (queueSt s (4 * t.part + t.cls)).recordAt == some s.tmp.frames)

/-- The head of a queue: its oldest step that is read and not placed. -/
def queueHead (s : State) (p cls : Nat) : Option Step :=
  let mine := s.stp.steps.filter fun t => t.part == p && t.cls == cls
  (mine.find? fun t => t.phase == .read).filter fun t => !orderedWait s mine t

/-- What a pick finds for a head. -/
inductive Pick where
  /-- Not placeable in this frame. -/
  | wait
  /-- The step completes with a code and is charged nothing. -/
  | refuse (c : Code)
  | place (start : Nat) (g : PlanGrade)
  deriving DecidableEq, Repr

/-- The grade at a start beat whose tiles are free there (R64, R354). -/
def freeGrade (s : State) (r : PlanRec) (b : Nat) : Option PlanGrade :=
  (chooseGrade s r b).filter fun g => tilesFree s g.tiles b g.fgBeats

/-- A COLLECTIVE step starts exactly at its NOT_BEFORE (R453). -/
def pickExact (s : State) (t : Step) (r : PlanRec) : Pick :=
  let b := t.notBefore
  if b = 0 ∨ isFg b = false ∨ b < s.beat then .refuse .collStart
  else if frameOf b ≠ frameOf s.beat then .wait
  else
    match chooseGrade s r b with
    | none => .refuse .gradeUnavailable
    | some g =>
      if !tilesFree s g.tiles b g.fgBeats then .refuse .collStart
      else if ctxRoom s t then .place b g else .wait

/-- Any other step starts at the earliest beat of the frame at which its tiles are free (R354); where its ladder has no grade at its
first beat it is refused (R65). -/
def pickEarliest (s : State) (t : Step) (r : PlanRec) : Pick :=
  let f := frameOf s.beat
  let b := max (nextFg t.notBefore) (f * 1024 + 1)
  if frameOf b ≠ f ∨ ctxRoom s t = false then .wait
  else
    match chooseGrade s r b with
    | none => .refuse .gradeUnavailable
    | some _ =>
      match (List.range (1023 - bInF b)).find? fun i => (freeGrade s r (b + i)).isSome with
      | none => .wait
      | some i => match freeGrade s r (b + i) with
        | some g => .place (b + i) g
        | none => .wait

/-- What a pick finds for a head. -/
def pick (s : State) (t : Step) : Pick := match stepPlan s t with
  | none => .refuse .planUnknown
  | some r => if r.collective then pickExact s t r else pickEarliest s t r

/-- The classes whose heads are refused at once are emptied of them; the first placeable head of the partition's classes, in the
order C1, C2, C3, with its place. The fuel is the number of steps. -/
def partPick (s : State) (p : Nat) : Nat → State × Option (Step × Nat × PlanGrade)
  | 0 => (s, none)
  | k + 1 =>
    let found := [1, 2, 3].filterMap fun cls => (queueHead s p cls).bind fun t => match pick s t with
      | .wait => none
      | .refuse c => some (t, Sum.inl c)
      | .place b g => some (t, Sum.inr (b, g))
    match found with
    | [] => (s, none)
    | (t, .inl c) :: _ => partPick (s.refuseStep t.id c) p k
    | (t, .inr e) :: _ => (s, some (t, e))

/-- Places a step. -/
def placeStep (s : State) (t : Step) (b : Nat) (g : PlanGrade) : State :=
  s.modStep t.id fun x => { x with phase := .placed, start := b, grade := g.grade }

/-- Partitions whose steps are placed. -/
def placingParts (s : State) : List Nat := idx 8 fun p => (partSt s p).state == .active

/-- SERVICE_p at a boundary (R356): the 16 frames before, and what this boundary has placed. -/
def serviceOf (s : State) (extra : NMap Nat) (p : Nat) : Nat := sumN (partSt s p).service + mget 0 extra p

/-- The partition of a list that the share comparison of R355 picks. -/
def leastServed (s : State) (extra : NMap Nat) : List Nat → Option Nat
  | [] => none
  | p :: ps =>
    match leastServed s extra ps with
    | none => some p
    | some q =>
      if serviceOf s extra p * (partSt s q).share.toNat ≤ serviceOf s extra q * (partSt s p).share.toNat then some p else some q

/-- A placement of the boundary: what it adds to SERVICE (R356). -/
def addCost (s : State) (extra : NMap Nat) (t : Step) (g : PlanGrade) : NMap Nat :=
  mset 0 extra t.part (mget 0 extra t.part + (stepPlan s t).elim 0 (·.tiles) * g.fgBeats)

/-- The boundary can still place: 64 placements are not made and 224 steps are not in flight (R354). -/
def mayPlace (s : State) (made : Nat) : Bool := decide (made < 64) && decide (restInFlight s < 224)

/-- One pick for a partition, where it has a placeable step. -/
def pickFor (st : State × NMap Nat × Nat) (p : Nat) : (State × NMap Nat × Nat) × Bool :=
  let (s, extra, made) := st
  if mayPlace s made then
    match partPick s p (s.stp.steps.length + 1) with
    | (s, some (t, b, g)) => ((placeStep s t b g, addCost s extra t g, made + 1), true)
    | (s, none) => ((s, extra, made), false)
  else (st, false)

/-- The second pass (R355): a partition without a placeable step leaves it. -/
def pickShares : Nat → State × NMap Nat × Nat → List Nat → State
  | 0, st, _ => st.1
  | k + 1, st, ps =>
    match leastServed st.1 st.2.1 ps with
    | none => st.1
    | some p =>
      if mayPlace st.1 st.2.2 then
        match pickFor st p with
        | (st', true) => pickShares k st' ps
        | (st', false) => pickShares k st' (ps.filter (· != p))
      else st.1

/-- Placement at a frame boundary (R354 to R356), in RUN only (R490). -/
def placeAll (s : State) : State :=
  if s.pwr.stage = .run ∧ s.rst.warm = none ∧ s.rst.done = true then
    let ps := placingParts s
    let st := ps.foldl (fun st p => (pickFor st p).1) (s, ([] : NMap Nat), 0)
    pickShares (64 + 8 + 1) st ps
  else s

end Sys2Proof.Machine
end

