-- ==== Sys2Proof/Machine/HostData.lean ====
section
/-! DEFINITION. Host data (16) on its way to and from device memory: BAR2 accesses, the transfers of DMA engines, and the completions
of upstream reads. -/

namespace Sys2Proof.Machine

/-! ## BAR2 (R560 to R564, R576) -/

/-- The access lies inside the function's BAR2 (R559). -/
def inBar2 (s : State) (fn off len : Nat) : Bool := decide (off + len ≤ 2 ^ (30 + (hifFn s fn).bar2Log2))

/-- The posted writes of a BAR2 write, one for each 64-byte block it touches (R561). -/
def bar2Post (s : State) (fn a : Nat) (data : List Byte) (poisoned : Bool) : State :=
  s.each (blocksOf a data) fun s e =>
    let id := s.nextId
    (s.fresh.modHif fun h => { h with posted := h.posted ++ [(fn, id)] }).ingSend
      (ingRequest id e.1 e.2 (addrPart s e.1) 91 poisoned (.posted fn id))

/-- A BAR2 write that the function decodes (R561, R562, R564, R576). -/
def bar2Store (s : State) (fn off : Nat) (data : List Byte) (poisoned : Bool) : State :=
  let s := if poisoned then s.emit (.aer fn .poisonedTlp) else s
  let a := (hifFn s fn).bar2Off.toNat + off
  if bar2Busy s then s.modHif fun h => { h with drop := h.drop + 1 }
  else if bar2Reach s fn a data.length then bar2Post s fn a data poisoned
  else s.barRange fn 2 off

/-- A BAR2 read that the function decodes (R561 to R564, R576). -/
def bar2Load (s : State) (fn off len : Nat) : State :=
  if bar2Busy s then s.emit (.bar2Data fn none false)
  else if bar2Reach s fn ((hifFn s fn).bar2Off.toNat + off) len then
    match postedOf s fn with
    | [] => s.post (.bar2 fn off len)
    | ws => s.modHif fun h => { h with bar2Reads := h.bar2Reads ++ [{ fn := fn, off := off, len := len, waitFor := ws }] }
  else (s.barRange fn 2 off).emit (.bar2Data fn none false)

/-! ## DMA engines (R569 to R572) -/

/-- A DMA engine. -/
def dmaSt (s : State) (e : Nat) : Dma := vat s.hif.dma e {}

/-- Changes a DMA engine. -/
def State.modDma (s : State) (e : Nat) (f : Dma → Dma) : State := s.modHif fun h => { h with dma := vmodN h.dma e f }

/-- The addresses and length that R569 allows. -/
def dmaShape (d : Dma) : Bool :=
  d.host.toNat % 64 == 0 && d.dev.toNat % 64 == 0 && d.len.toNat % 64 == 0 && d.len != 0

/-- The code of the device bytes of an engine (R269, R340, R570): an engine of no partition reaches all of device memory. -/
def dmaCode (s : State) (e a n : Nat) : Option Code := match dmaPart s e with
  | some p => rangeCode s p a n
  | none => if devTop < a + n then some .deviceRange else none

/-- How far a transfer may go (R570): the bytes before the first 64-byte block that fails its checks, and the code. -/
def dmaReach (s : State) (e a blocks : Nat) : Nat × Option Code :=
  match (List.range blocks).find? fun i => (dmaCode s e (a + 64 * i) 64).isSome with
  | some i => (64 * i, dmaCode s e (a + 64 * i) 64)
  | none => (64 * blocks, none)

/-- For whom an engine makes its accesses (R324, R570). -/
def dmaWho (e : Nat) : Who := { master := 64 + e, cls := 2, deadline := none, step := none }

/-- What stops a transfer: the first address whose access fails, the first that may not be accessed, or the host. -/
def dmaStop (r : EngGot) (limit : Option Code) (hostErr : Bool) : Code :=
  (r.code.orElse fun _ => limit).getD (if hostErr then .hostErr else .ok)

/-- A transfer from host memory stops (R570, R571, R277): the bytes that came are written up to the first address that fails. -/
def dmaFromHost (s : State) (e : Nat) (data : List Byte) (hostErr : Bool) : State :=
  let d := dmaSt s e
  let bs := data.take d.len.toNat
  let l := dmaReach s e d.dev.toNat ((bs.length + 63) / 64)
  let (s, r) := s.wr (dmaWho e) d.dev.toNat (bs.take l.1)
  s.endDma e (dmaStop r l.2 hostErr) r.good

/-- A transfer to host memory stops: `moved` bytes went to the host, or fewer where a device address fails (R570, R571, R283). -/
def dmaToHost (s : State) (e moved : Nat) (hostErr : Bool) : State :=
  let d := dmaSt s e
  let m := min moved d.len.toNat
  let l := dmaReach s e d.dev.toNat ((m + 63) / 64)
  let (s, r) := s.rd (dmaWho e) d.dev.toNat (min l.1 m)
  let s := if r.good = 0 then s else s.emit (.hostWrite (dmaOwner s e) d.host.toNat (r.bytes.take r.good))
  s.endDma e (dmaStop r l.2 hostErr) r.good

/-- The engine's transfer has its device accesses under way. -/
def dmaPending (s : State) (e : Nat) : Bool := s.grn.jobs.any fun j => match j.2 with
  | .dmaOut f _ _ => f == e
  | .dmaIn f _ _ => f == e
  | _ => false

/-- The host side of a transfer has ended (R571): all bytes moved, or an error. In PARK the dies are off and nothing ends. -/
def dmaFinish (s : State) (e : Nat) (data : List Byte) (hostErr : Bool) : State :=
  let d := dmaSt s e
  if d.busy && !s.pwr.diesDown && !dmaPending s e && !upWaits s (.dma e) && (hostErr || decide (d.len.toNat ≤ data.length)) then
    (s.endUp fun u => u.src == .dma e).post
      (if d.dir then .dmaOut e data.length hostErr else .dmaIn e data hostErr)
  else s

/-! ## Upstream requests (R567, R577, Table 16-3) -/

/-- An upstream request by its tag. -/
def findUp (s : State) (tag : Nat) : Option Upstream := s.hif.upstream.find? fun u => u.tag == tag

/-- Takes an upstream request off the list. -/
def State.dropUp (s : State) (tag : Nat) : State := s.endUp fun u => u.tag == tag

/-- Data arrives for a request: what an abandoned one asked for is discarded (R577). -/
def upData (s : State) (tag : Nat) (data : List Byte) : State :=
  match findUp s tag with
  | none => s
  | some u =>
    if u.abandoned then s.dropUp tag
    else match u.src with
      | .dma e => dmaFinish s e data false
      | .kv step tile addr deadline => match tile with
          | some t => (s.dropUp tag).writeLocal t addr data
          | none => (s.dropUp tag).post (.hostPage step addr deadline data)
      | .trellis n => fillData s n data

/-- Bytes of a host page of a gather go to device memory (R386), with the deadline of the transfer's slot (R325). -/
def hostPageIn (s : State) (step addr : Nat) (deadline : Option Nat) (data : List Byte) : State := match getStep s step with
  | none => s
  | some t => s.wrFor { master := 88, cls := t.cls, deadline := deadline, step := some step } step addr data

end Sys2Proof.Machine
end

