-- ==== Sys2Proof/Machine/Engines.lean ====
section
/-! DEFINITION. The engines' jobs (R188, log 127): what each does with the bytes its accesses bring, and how they go on. -/

namespace Sys2Proof.Machine

/-- What a job does, from its beginning. -/
def runJob (j : EngJob) (s : State) : State := match j with
  | .action step _ last a => actionRun s step last a
  | .view step a bs => writeView s step a bs
  | .hostPage step a deadline bs => hostPageIn s step a deadline bs
  | .descriptor q => descriptorIn s q
  | .bar2 fn off len => bar2Answer s fn off len
  | .dmaOut e moved hostErr => dmaToHost s e moved hostErr
  | .dmaIn e data hostErr => dmaFromHost s e data hostErr
  | .walkRequest slot => walkRequest s slot
  | .walkNode slot => walkStep s slot
  | .walkDone slot => walkDone s slot
  | .fetch tile slot words => fetchLine s tile slot words

/-- A job goes on, unless it has ended meanwhile. -/
def jobOn (s : State) (e : Nat × EngJob) : State :=
  if s.grn.jobs.any (fun x => x == e) then tryJob e.1 (runJob e.2) engFuel s else s

/-- Each job goes on, and once more for those that another one has started or let go on. Nothing goes on while the dies are off. -/
def settle (s : State) : State :=
  if s.pwr.diesDown then s else
    let s := s.each s.grn.jobs jobOn
    s.each s.grn.jobs jobOn

/-- A command after which the engines go on. -/
def settled (s : State) : Host.Outcome State Fault Refusal := .next (settle s)

end Sys2Proof.Machine
end

