-- ==== Sys2Proof/Machine/StackCmds.lean ====
section
/-! DEFINITION. The commands of the memory stacks (07): parity retries, row remaps, refresh slots, temperature, trips. -/

namespace Sys2Proof.Machine

/-! ## Parity retries (R273 to R278, R676) -/

/-- Marks a pseudo-channel failed (R276). -/
def failChannel (s : State) (x : Nat) : State :=
  s.modStack (x / 64) fun t => { t with chFail := t.chFail ||| BitVec.ofNat 64 (2 ^ (x % 64)) }

/-- A data retry exhaustion: counted, its address recorded with cause 1, the fourth in a frame fails the pseudo-channel (R276,
R676). -/
def dataExhausted (s : State) (x line : Nat) : State :=
  let n := mget 0 s.mem.exhaust x + 1
  let s := recordErr (s.modStack (x / 64) fun t => { t with parExhaust := t.parExhaust + 1 }) line 1
  let s := s.modMem fun m => { m with exhaust := mset 0 m.exhaust x n }
  if n = 4 then failChannel s x else s

/-- The waiters of a line whose read is exhausted receive POISON and no line is installed (R676). -/
def poisonRead (s : State) (line : Nat) : State :=
  match readUnderWay s line, directUnderWay s line with
  | some m, _ => poisonFill s m
  | none, some d => directEnds s d [] true
  | none, none => s

/-- The one poison write of a line whose write is exhausted (Table 7-3): every burst takes the poison syndrome. -/
def poisonLine (s : State) (line : Nat) : State :=
  let places := writePlaces s (lineAddr line)
  s.modMem fun m => places.foldl (fun m k => (List.range 8).foldl (fun m b => m.setPoison (k + 32 * b) true) m) m

/-- What follows the third failed retry (Table 7-3). -/
def retriesOver (s : State) (x line : Nat) (kind : ParityKind) : State :=
  match kind with
  | .command => failChannel (recordErr (s.modStack (x / 64) fun t => { t with parExhaust := t.parExhaust + 1 }) line 2) x
  | .write => poisonRead (dataExhausted (poisonLine s line) x line) line
  | .read => poisonRead (dataExhausted s x line) line

/-- The retry under way of a transfer. -/
def findRetry (s : State) (x line : Nat) (kind : ParityKind) : Option Retry :=
  s.mem.retries.find? fun r => r.x == x && r.line == line && r.kind == kind

/-- One attempt in the error-retry reserve, four a beat; with the reserve used it waits (R273 to R276, R676). -/
def parityRetry (s : State) (x line : Nat) (kind : ParityKind) (pass : Bool) : State :=
    if chanOf (lineAddr line) != x || linePoisonAnswer s line || decide (4 ≤ mget 0 s.mem.retryUsed x) then s
    else
      let s := s.modMem fun m => { m with retryUsed := mset 0 m.retryUsed x (mget 0 m.retryUsed x + 1) }
      let tries := (findRetry s x line kind).elim 1 (·.tries + 1)
      let s := s.modMem fun m => { m with retries := m.retries.filter fun r => !(r.x == x && r.line == line && r.kind == kind) }
      if pass then s.modStack (x / 64) fun t => { t with parPass := t.parPass + 1 }
      else if tries < 3 then s.modMem fun m =>
        { m with retries := m.retries ++ [{ x := x, line := line, kind := kind, tries := tries, poisonWrite := false }] }
      else retriesOver s x line kind

/-! ## Remaps (R288 to R292) -/

/-- Copies one burst of a row to its spare row: an uncorrectable one is written with the poison syndrome (R288). -/
def copyBurst (found : List Burst) (src dst : Nat) (m : Memory) (b : Nat) : Memory :=
  let k := src + 32 * b
  (m.writeN (dst + 32 * b) (mgetN Memory.fresh m.cells k 32)).setPoison (dst + 32 * b)
    (m.poisoned k || found[b]? == some Burst.uncorrectable)

/-- The device address of the first byte of a row of a bank. -/
def rowAddr (x bank row : Nat) : Nat := chanSize * x + 65536 * row + 1024 * bank

/-- The key of the first byte of an entry's old row, and of its spare row. -/
def oldRow (s : State) (e : Remap) : Nat := placeKey e.x (physRow s e.x e.bank e.row) (1024 * e.bank)
def spareRow (e : Remap) : Nat := placeKey e.x e.spare (1024 * e.bank)

/-- The reads of the row's four lines are checked as any others are (R280 to R282, R286). -/
def countRow (s : State) (e : Remap) (found : List Burst) : State :=
  s.each (List.range 4) fun s q => eccCount s (rowAddr e.x e.bank e.row / 256 + q) ((found.drop (8 * q)).take 8)

/-- The bursts of the row, copied to the spare row. -/
def copyRow (s : State) (e : Remap) (found : List Burst) : State :=
  s.modMem fun m => (List.range 32).foldl (copyBurst found (oldRow s e) (spareRow e)) m

/-- The stack of a pseudo-channel takes commands: neither failed nor tripped (R277, R303). -/
def takesCommands (s : State) (x : Nat) : Bool := !chanFailed s x && !stackTripped s (x / 64)

/-- REMAP_COPY_DONE (R288, R289): the Gleaner has copied the row's four lines. -/
def execRemapCopyDone (entry : Nat) (found : List Burst) (s : State) : Host.Outcome State Fault Refusal :=
  .next <| match s.mem.remap.find? fun e => e.order == entry && !e.copied && takesCommands s e.x with
  | none => s
  | some e => (copyRow (countRow s e found) e found).modMem fun m =>
    { m with remap := m.remap.map fun q => if q.order = entry then { q with copied := true } else q }

/-- REMAP_TAKE_EFFECT (R290): from the beat boundary after the copy every access goes to the spare row. -/
def execRemapTakeEffect (entry : Nat) (s : State) : Host.Outcome State Fault Refusal :=
  .next (s.modMem fun m => { m with remap := m.remap.map fun q => if q.order = entry ∧ q.copied = true then { q with active := true } else q })

/-- The repair log in boot flash: its offset and its length (R292), which holds an entry for each of the 16,384 of all the tables. -/
def repairLogBase : Nat := 0x01F00000
def repairLogSize : Nat := 0x100000

/-- REPAIR_LOG_WRITE (R292): an entry in effect reaches the repair log in boot flash. -/
def execRepairLogWrite (entry : Nat) (s : State) : Host.Outcome State Fault Refusal :=
  .next <| match s.mem.remap.find? fun e => e.order == entry && e.active && !e.logged with
  | none => s
  | some e =>
    (s.modFlash fun f => { f with repairLog := f.repairLog ++ [{ e with logged := true }] }).modMem fun m =>
      { m with remap := m.remap.map fun q => if q.order = entry then { q with logged := true } else q }

/-! ## Refresh (R296 to R299) -/

/-- The stack takes refresh commands: trained, not failed, not in self-refresh. -/
def refreshed (s : State) (t : Nat) : Bool := (stackSt s t).trained && !stackFailed s t && !(stackSt s t).selfRefresh

/-- One refresh slot of a pseudo-channel of a stack (R298): a new MULT is in force from it on. -/
def refreshOne (s : State) (t c n : Nat) : State :=
  let s := s.modStack t fun k => match k.multNext with
    | some m => { k with mult := m, multNext := none }
    | none => k
  let m := (stackSt s t).mult
  let key := 64 * t + c
  let due := refreshed s t && decide (n * m / 512 < (n + 1) * m / 512)
  s.modMem fun x => { x with refreshSlots := mset 0 x.refreshSlots key (mget 0 x.refreshSlots key + 1),
                             refreshes := if due then mset 0 x.refreshes key (mget 0 x.refreshes key + 1)
                               else x.refreshes }

/-- A retraining pass begins (R540). -/
def startRetrain (s : State) : State := s.modGln fun g => { g with retrainActive := true, retrainSeg := [] }

/-- A slot of a pseudo-channel carries a retraining segment, six in all (R540); the last of them ends the pass. -/
def retrainSlot (s : State) (c : Nat) : State :=
  if s.gln.retrainActive then
    let seg := mset 0 s.gln.retrainSeg c (min 6 (mget 0 s.gln.retrainSeg c + 1))
    if (List.range 64).all fun c => mget 0 seg c == 6 then
      s.modGln fun g => { g with retrainActive := false, retrainSeg := [], retrainLast := s.beat }
    else s.modGln fun g => { g with retrainSeg := seg }
  else s

/-- The tempo time of slot n of a pseudo-channel, in ticks from beat 0 (R296). -/
def slotTime (c n : Nat) : Nat := 1940 * n + 30 * c

/-- The slot lies in the current beat, and none after it has passed (R296). -/
def slotDue (s : State) (c n : Nat) : Bool :=
  s.tmp.counting && decide (s.tmp.nowTicks ≤ slotTime c n) && decide (slotTime c n < s.tmp.nowTicks + s.tmp.beatTicks) &&
    decide (mget 0 s.mem.nextSlot c ≤ n)

/-- REFRESH_SLOT (R296 to R299, R540): slot n of pseudo-channel c of every stack, kept whether or not it issues a refresh (R297). -/
def execRefreshSlot (c : Fin 64) (n : Nat) (s : State) : Host.Outcome State Fault Refusal :=
  .next <|
    if slotDue s c n then
      let s := s.modMem fun m => { m with nextSlot := mset 0 m.nextSlot c (n + 1) }
      retrainSlot (s.each (List.range 8) fun s t => refreshOne s t c n) c
    else s

/-! ## Temperature (R300 to R307) -/

/-- Partitions that own a pseudo-channel of a stack. -/
def stackParts (s : State) (t : Nat) : List Nat := idx 8 fun p => (List.range 64).any fun c => ownsChan s p (64 * t + c)

/-- A stack trips (R303, R304, R307, R462): it enters self-refresh, the steps in flight of its partitions complete with STACK_TRIP
but for collectives, and a TRIP word is sent. -/
def tripStack (s : State) (t : Nat) : State :=
  if stackTripped s t then s
  else
    let ps := stackParts s t
    let mask := ps.foldl (fun (m : BitVec 8) p => m ||| BitVec.ofNat 8 (2 ^ p)) 0
    let s := s.modStack t fun k => { k with tripped := true, selfRefresh := true }
    let ids := (s.stp.steps.filter fun x => x.phase == .live && ps.contains x.part && !collectiveStep s x).map (·.id)
    let s := s.each ids fun s i => s.endStep i .stackTrip
    (s.modRhl fun r => { r with trips := r.trips ++ [{ beat := s.beat, mask := mask }] }).sendUpdate
      (ownWord s 3 none (mask.toNat + 256 * t))

/-- The registers and histories of a stack after a valid sample, in beats and frames that have passed (R299, R300, R302, R306). -/
def Stack.sampled (k : Stack) (v : Int) (elapsed frames mult : Nat) : Stack :=
  { k with temp := v, tempMax := max k.tempMax v, tempValid := true, lastValidBeat := elapsed, tempLost := false, multNext := some mult,
           hotSince := if 90 ≤ v then some (k.hotSince.getD frames) else none,
           coolSince := if 90 ≤ v then some (frames + 1) else k.coolSince,
           below95Since := if v < 95 then some (k.below95Since.getD elapsed) else none }

/-- The warning of a stack (R301): a drop one slower than the grade in force, announced at the next consensus beat. -/
def warnStack (s : State) (t : Nat) : State :=
  if (stackSt s t).warn then s
  else (s.modStack t fun k => { k with warn := true, warnGrade := some (oneSlower s s.grade.now),
                                       lastDropEff := s.tmp.frames + 3 }).event .stackWarn

/-- A sample of the stack is due: one every 16 beats (R300). -/
def sampleDue (s : State) (t : Nat) : Bool := (stackSt s t).sampledAt.all fun b => decide (b + 16 ≤ s.tmp.elapsed)

/-- The stackHottest die of a sample; none where the sample is invalid or names no die (R300). -/
def stackHottest (temps : Option (List Int)) : Option Int := match temps with
  | some (v :: vs) => some (vs.foldl max v)
  | _ => none

/-- A sample of a stack (R299 to R304). -/
def stackSample (s : State) (t : Nat) (temp : Option Int) : State := match temp with
  | none => s.modStack t fun k => { k with tempValid := false }
  | some v =>
    let s := s.modStack t fun k => k.sampled v s.tmp.elapsed s.tmp.frames (refreshMult s v)
    let s := if 95 ≤ v then s.capChange fun s => warnStack s t else s
    if 105 ≤ v then tripStack s t else s

/-- STACK_TEMP_SAMPLE (R299 to R304). -/
def execStackTempSample (stack : Fin 8) (temps : Option (List Int)) (s : State) : Host.Outcome State Fault Refusal :=
  .next <|
    if sampleDue s stack then stackSample (s.modStack stack fun k => { k with sampledAt := some s.tmp.elapsed }) stack (stackHottest temps)
    else s

/-- STACK_TEMP_LOST (R307): no valid sample for 1,024 beats. -/
def execStackTempLost (stack : Fin 8) (s : State) : Host.Outcome State Fault Refusal :=
  .next <|
    if !(stackSt s stack).trained || (stackSt s stack).tempLost || decide (s.tmp.elapsed < (stackSt s stack).lastValidBeat + 1024) then s
    else tripStack ((s.modStack stack fun k => { k with tempLost := true, below95Since := none }).event .stackTempLost) stack

/-- STACK_TRIP_RETURN (R304, R306, R307): at a frame boundary, once the temperature has stayed below 95 °C for 1,024 beats; its write
buffers drain. -/
def execStackTripReturn (stack : Fin 8) (s : State) : Host.Outcome State Fault Refusal :=
  .next <|
    let k := stackSt s stack
    if k.tripped && !k.tempLost && bInF s.beat == 0 && k.below95Since.any fun b => decide (b + 1024 ≤ s.tmp.elapsed) then
      drainBuffers (s.modStack stack fun k => { k with tripped := false, selfRefresh := s.pwr.stage != .run && s.pwr.diesDown }) stack
    else s

end Sys2Proof.Machine
end

