-- ==== Sys2Proof/Machine/TempoCmds.lean ====
section
/-! DEFINITION. The commands of the tempo unit (02): the beat boundary with everything that happens at a frame boundary, the reference,
alignment and realignment, and the two reads of TMP_BEAT_NOW. -/

namespace Sys2Proof.Machine

/-! ## Reads of TMP_BEAT_NOW (R40) -/

/-- The high half of the current beat number. -/
def beatHigh (s : State) : W32 := BitVec.ofNat 32 (s.beat / 2 ^ 32)

/-- A low-half read latches the high half for the function (R40). -/
def readBeatLow (s : State) (fn : Nat) : State :=
  (s.modTmp fun t => { t with latch := vmodN t.latch fn fun _ => some (beatHigh s) }).emit
    (.readData fn (BitVec.ofNat 64 (s.beat % 2 ^ 32)))

/-- A high-half read returns the latched half, or the current one when the function has latched none (R40). -/
def readBeatHigh (s : State) (fn : Nat) : State :=
  (s.modTmp fun t => { t with latch := vmodN t.latch fn fun _ => none }).emit
    (.readData fn (((vat s.tmp.latch fn none).getD (beatHigh s)).setWidth 64))

/-- TMP_BEAT_NOW_LOW_READ (R40). -/
def execTmpBeatNowLowRead (fn : Fn) (s : State) : Host.Outcome State Fault Refusal := .next (hostAccess s fn fun s => readBeatLow s fn)

/-- TMP_BEAT_NOW_HIGH_READ (R40). -/
def execTmpBeatNowHighRead (fn : Fn) (s : State) : Host.Outcome State Fault Refusal := .next (hostAccess s fn fun s => readBeatHigh s fn)

/-! ## Standing thermal reasons at a frame boundary (R302, R498, Table 13-4) -/

/-- Sixty-four whole frames have passed since the later of two frames. -/
def frames64 (a b f : Nat) : Bool := decide (max a b + 64 ≤ f)

/-- The stack warning reason at a frame boundary (R302): a further drop, or its withdrawal. -/
def stackReason (s : State) (f t : Nat) : State :=
  let k := stackSt s t
  match k.warnGrade with
  | none => s
  | some g =>
    if k.hotSince.any (fun h => frames64 h k.lastDropEff f) && g != slowestPoint s then
      s.modStack t fun k => { k with warnGrade := some (oneSlower s g), lastDropEff := f + 2 }
    else if k.hotSince.isNone && k.coolSince.any (fun c => decide (c + 64 ≤ f)) then
      s.modStack t fun k => { k with warn := false, warnGrade := none }
    else s

/-- The tile warning reason at a frame boundary (Table 13-4). -/
def tileReason (s : State) (f : Nat) : State :=
  let p := s.pwr
  match p.tileGrade with
  | none => s
  | some g =>
    if p.tileHotSince.any (fun h => frames64 h p.tileDropEff f) && g != slowestPoint s then
      s.modPwr fun p => { p with tileGrade := some (oneSlower s g), tileDropEff := f + 2 }
    else if p.tileHotSince.isNone && p.tileCoolSince.any (fun c => decide (c + 64 ≤ f)) then
      s.modPwr fun p => { p with tileGrade := none, die := p.die.map fun d => { d with warn := p.tileCrit && d.warn } }
    else s

/-- The limiter persistence reason at a frame boundary (R498, Table 13-4): the frame that ended had 256 engaged beats on some die. -/
def limiterReason (s : State) (f : Nat) : State :=
  let p := s.pwr
  if p.die.toList.any fun d => decide (256 ≤ d.engagedBeats) then
    s.modPwr fun p => { p with limGrade := some (oneSlower s s.grade.now), limLastFrame := f }
  else if p.die.toList.any fun d => decide (0 < d.engagedBeats) then s.modPwr fun p => { p with limLastFrame := f }
  else if p.limGrade.isSome && decide (p.limLastFrame + 64 ≤ f) then s.modPwr fun p => { p with limGrade := none }
  else s

/-- All the reasons, with the effective cap that follows from them (R475, R482). -/
def standingReasons (s : State) (f : Nat) : State :=
  s.capChange fun s => limiterReason (tileReason (s.each (List.range 8) fun s t => stackReason s f t) f) f

/-- The ageing counts rise (R543); every 64 units they are logged (R545). -/
def ageTiles (s : State) : State :=
  if s.pwr.diesDown then s
  else
    let tiles := (List.range 1088).filter fun i => vat s.tile.spare (i / 17) 16 != i % 17 && diePowered s (i / 272)
    let age := tiles.foldl (fun (m : NMap Nat) i => mset 0 m i (mget 0 m i + 1)) s.gln.age
    let s := s.modGln fun g => { g with age := age, loggedAt := (g.loggedAt + 1) % 64 }
    if s.gln.loggedAt = 0 then writeWear s else s

/-! ## Loads of the beat number (R49, R50, R665) -/

/-- The index of the next foreground beat to run at a beat. -/
def nextIndex (b : Nat) : Nat := fgIndex (nextFg b)

/-- A foreground beat moved with a load (R50). -/
def shiftFg (old new b : Nat) : Nat := fgOfIndex (fgIndex b + nextIndex new - nextIndex old)

/-- Re-bases the steps in flight, their slots and their groups (R50); TMP_SLIP_LAST shows the beat loaded (log 105). -/
def rebase (s : State) (old new : Nat) : State :=
  let ids := (s.stp.steps.filter fun t => t.phase == .live).map (·.id)
  let s := s.each ids fun s i => s.modStep i fun t => { t with
    start := shiftFg old new t.start, running := t.running.map fun r => { r with last := shiftFg old new r.last } }
  let s := s.modTile fun t => { t with
    groups := t.groups.map fun e => (e.1, { e.2 with deadline := shiftFg old new e.2.deadline, slotEnd := shiftFg old new e.2.slotEnd }) }
  s.each ids fun s i => s.slip i causeRealign new 0

/-- A C0 slot start lies strictly between two beats (R665). -/
def slotPassed (s : State) (a b : Nat) : Bool := (List.range (min (b - a) 1025)).any fun i => decide (0 < i) && isC0Slot s (a + i)

/-- The load passes over the start of a frame whose number is a multiple of 1,024, at which the tiles age (R543, R665). -/
def agePassed (s : State) (new : Nat) : Bool := decide (frameOf s.tmp.reached / 1024 < frameOf new / 1024)

/-- Loads the master's count (R49, R50, R444, R665): collectives in flight end with COLL_TIME, and what a forward load passes over takes
place now. -/
def loadBeat (s : State) (m : Marker) : State :=
  let old := s.beat
  let delay : Int := ((vat s.tmp.linkDelay m.link none).elim 0 (·.toNat) : Nat)
  let ticks := ((m.beatNo : Int) * 1000 + delay + (s.tmp.nowTicks - m.atTicks)).toNat
  let new := ticks / 1000
  let due := slotPassed s (max old s.tmp.reached) new
  let s := if agePassed s new then ageTiles s else s
  let s := s.endColls 0xFF .collTime
  let s := s.modTmp fun t => { t with beat := new, reached := max t.reached new, again := decide (new ≤ t.reached), beatPhase := ticks % 1000, beatTicks := 1000 - ticks % 1000,
                                      realign := .none, realignArmed := false, realignCount := t.realignCount + 1, trimLeft := 0,
                                      frameStart := t.nowTicks - (bInF new * 1000 + ticks % 1000) }
  let s := (rebase s old new).modStp fun t => { t with c0Due := t.c0Due || due }
  takeEffect s (s.grade.announced.length + 1)

/-! ## What a frame boundary does -/

/-- Values written for the next frame boundary take effect (R357 to R359). -/
def nextValues (s : State) : State :=
  s.modStp fun t => { t with
    c0Phase := t.c0PhaseNext.getD t.c0Phase, c0PhaseNext := none,
    part := t.part.map fun q => { q with share := q.shareNext.getD q.share, shareNext := none,
                                         c0Sheaves := q.c0SheavesNext.getD q.c0Sheaves, c0SheavesNext := none,
                                         service := (q.frameCharge :: q.service).take 16, frameCharge := 0 } }

/-- Reloaded dies return to service, each no later than at the second frame boundary after its disagreement was found (R262);
the consensus beat of the frame after checks them again (Table 6-5). -/
def returnDies (s : State) : State :=
  s.modFab fun f => { f with die := f.die.map fun d => if d.reloading && (d.reloaded || decide (d.reloadAt + 2 ≤ s.tmp.frames)) then
      { d with reloading := false, reloaded := false, reportedAt := some s.tmp.frames } else d }

/-- A raise or a drop that falls due sets the voltages: raised at the start of the frame before (R473), lowered in the guard beat once
the clock has switched (R472). -/
def raiseVolts (s : State) (f : Nat) : State :=
  if announcedFor s (f + 1) && decide (gradeFor s (f + 1) < s.grade.now) then s.setVolts (gradeFor s (f + 1)) else s

/-- The counts of the frame that ended go to its telemetry records (R546); an engaged limiter is reported in each frame (R497). -/
def turnTelemetry (s : State) (f : Nat) : State :=
  s.modTel fun t => { t with last := { t.now with grade := s.grade.now }, due := true,
                             now := { frame := f, events := if limiterOn s then [.issueLimitEngaged] else [] } }

/-- After the consensus word of a restart, of PARK or of FENCED, the link groups leave UP (R436, R447, R491). -/
def leaveRing (s : State) : State :=
  if s.rhl.restart then s.ringDown
  else if s.rhl.rank.isSome && (ownState s == .leaving || ownState s == .fenced) then
    s.modRhl fun r => { r with link := r.link.map fun x => if x.state = .up then { x with state := .transit } else x }
  else s

/-- A frame boundary counts towards the domain of one while no peer shows MEMBER after IDENT (R445). -/
def countJoin (s : State) : State :=
  let seen := (List.range 8).any fun l => linkLive (linkSt s l).state && (linkSt s l).peer.any fun w => w.state == 1 && w.rankValid
  let past := (List.range 8).any fun l => (linkSt s l).state == .up || (linkSt s l).state == .transit
  s.modRhl fun r => { r with joinBeats := if r.state = .joining ∧ past = true ∧ seen = false then r.joinBeats + 1 else 0 }

/-- After a reshape every member announces its grade again (R666): one from which no announcement has come by the end of that frame is
a member no longer (log 40). -/
def callRoll (s : State) : State := match s.rhl.roll with
  | none => s
  | some (f, heard) =>
    if frameOf s.beat ≤ f then s
    else
      let near := ownRank s :: acceptedPeers s
      (s.modRhl fun r => { r with roll := none }).each
        (s.rhl.members.filter fun m => !heard.contains m && !near.contains m) fun s m => s.dropMember m

/-- The reshapes of a frame boundary (R444, R450, R452, R58): a package that joins loads its master's count first. -/
def reshapeBoundary (s : State) : State :=
  let due := dueReshapes s
  let s := callRoll s
  let s := if joinsNow s then s.tmp.marker.elim s (loadBeat s) else s
  let s := (s.applyDue due).remasterDue
  if due.isEmpty || ownState s != .member then s else s.modRhl fun r => { r with roll := some (frameOf s.beat, []) }

/-- The grade in force once the next frame boundary is past, as it stands now (R63, R68): the boundary is worked out ahead. -/
def boundaryGrade (s : State) : Nat :=
  let s := reshapeBoundary (s.modTmp fun t => { t with beat := (frameOf t.beat + 1) * 1024 })
  (takeEffect s (s.grade.announced.length + 1)).grade.now

/-- The consensus word with the announcement that is due; a boundary whose count was loaded is no consensus beat (R439, R49). -/
def consensusBeat (s : State) : State := if bInF s.beat = 0 then leaveRing (s.announceDue.sendConsensus) else s

/-- The frame boundary that opens frame F. -/
def frameBoundary (s : State) : State :=
  let f := frameOf s.beat
  let s := (turnTelemetry s f).modTmp fun t => { t with frames := t.frames + 1, frameStart := t.nowTicks }
  let s := if f % 1024 = 0 ∧ s.tmp.again = false then ageTiles s else s
  let s := reshapeBoundary s
  let s := takeEffect s (s.grade.announced.length + 1)
  let s := raiseVolts (returnDies (stageBoundary (nextValues s))) f
  let s := standingReasons s s.tmp.frames
  let s := placeAll (consensusBeat s)
  let s := s.modMem fun m => { m with exhaust := [] }
  let s := s.modPwr fun p => { p with die := p.die.map fun d => { d with engagedBeats := 0 } }
  countJoin (s.modRhl fun r => { r with link := r.link.map fun x => { x with replayFrame := 0, heard := false } })

/-- The guard beat begins: the clock switches for the grade that is in force from the next frame (R63, R472, R473). -/
def guardBeat (s : State) : State := s.switchClock (boundaryGrade s)

/-! ## The beat boundary (R38, R39, R41, R46, R48) -/

/-- What the beat that ends leaves in the tempo unit: ticks, the reference, holdover. -/
def Tempo.endBeat (t : Tempo) (refValid : Bool) : Tempo :=
  { t with nowTicks := t.nowTicks + t.beatTicks, elapsed := t.elapsed + 1, refPresent := refValid, validBeats := if refValid then t.validBeats + 1 else 0,
           holdoverLeft := if t.mode = .holdover then t.holdoverLeft - 1 else t.holdoverLeft, beatPhase := 0 }

/-- The next beat number: one more, or two or none at a guard beat that R48 skips or holds. -/
def Tempo.nextBeat (t : Tempo) : Nat :=
  if t.realignArmed ∧ t.realign = .skip then t.beat + 2 else if t.realignArmed ∧ t.realign = .hold then t.beat else t.beat + 1

/-- The beat that begins: its number, and its length under R46. -/
def Tempo.startBeat (t : Tempo) : Tempo :=
  let b := t.nextBeat
  let trim := isFg b && decide (1 < t.trimLeft.natAbs)
  let t := if t.realignArmed then { t with realign := .none, realignArmed := false } else t
  { t with beat := b, reached := max t.reached b, again := decide (b ≤ t.reached),
           beatTicks := if trim then (if 0 < t.trimLeft then 1001 else 999) else 1000,
           trimLeft := if trim then (if 0 < t.trimLeft then t.trimLeft - 1 else t.trimLeft + 1) else t.trimLeft }

/-- Dies' overcurrent sense and engagement over the beat that ends (R495, R498). -/
def senseBeat (s : State) (sense : BitVec 4) : State :=
  s.modPwr fun p => { p with
    die := p.die.mapIdx fun n d =>
      let on := sense.getLsbD n
      { d with sensing := on, clearBeats := if on then 0 else d.clearBeats + 1,
               engagedBeats := if d.limiter = 0 then d.engagedBeats else d.engagedBeats + 1 } }

/-- Counters of the power unit that run in beats: the PARK exit (R492) and the grace time (R487). -/
def powerBeat (s : State) : State :=
  s.modPwr fun p =>
    let tick := p.orders.offLeft.isSome && decide (p.offBeats + 1 = 1000)
    { p with exitBeats := if p.stage = .exiting then p.exitBeats + 1 else p.exitBeats,
             offBeats := if p.orders.offLeft.isNone || tick then 0 else p.offBeats + 1,
             orders := if tick then { p.orders with offLeft := p.orders.offLeft.map (· - 1) } else p.orders }

/-- Collectives whose flits wait for credits send what has become free, and go on (R433). -/
def collBeat (s : State) : State :=
  s.flushWaiting.each (s.rhl.colls.filter fun c => !c.waiting.isEmpty) fun s c => s.advanceColl c.step (c.phases.length + 1)

/-- What a beat boundary does once beats count (R38). -/
def beatBoundary (s : State) (refValid : Bool) (sense : BitVec 4) : State :=
  let s := powerBeat (senseBeat s sense)
  let s := s.modTmp fun t => (t.endBeat refValid).startBeat
  let s := collBeat ((bwrBoundary s).modMem fun m => { m with retryUsed := [] })
  if bInF s.beat = 1023 then guardBeat s
  else if bInF s.beat = 0 then frameBoundary s
  else s

/-- BEAT_BOUNDARY (R38): before the end of the wake no beat counts (R41). -/
def execBeatBoundary (refValid : Bool) (sense : BitVec 4) (s : State) : Host.Outcome State Fault Refusal :=
  settled (if s.tmp.counting then beatBoundary s refValid sense else s)

/-! ## The reference (R51 to R58) -/

/-- The reference is lost (R51, R52). -/
def refLost (s : State) : State :=
  let s := s.modTmp fun t => { t with refPresent := false, validBeats := 0 }
  if s.tmp.mode = .locked then (s.modTmp fun t => { t with mode := .holdover, holdoverLeft := 1000 }).event .tempoHoldover else s

/-- REF_EDGE_TIMEOUT (R51). -/
def execRefEdgeTimeout (s : State) : Host.Outcome State Fault Refusal := .next (refLost s)

/-- REF_FREQ_INTERVAL_END (R51): more than 200 ppm off loses the reference; else the measurement is the last of R52. -/
def execRefFreqIntervalEnd (ppm : Int) (s : State) : Host.Outcome State Fault Refusal :=
  .next (if 200 < ppm.natAbs then refLost s else s.modTmp fun t => { t with lastFreqPpm := ppm })

/-- HOLDOVER_EXPIRY (R55, R56, R449): after 1,000 beats; a member's entry to FENCED is a reshape event. -/
def execHoldoverExpiry (s : State) : Host.Outcome State Fault Refusal :=
  .next <|
    if s.tmp.mode = .holdover ∧ s.tmp.holdoverLeft = 0 then
      let was := ownState s
      let s := (s.modTmp fun t => { t with mode := .fenced, holdoverLeft := 1000 }).event .tempoFenced
      let s := if s.rhl.rank.isSome && was == .member then s.floodReshape none [] [ownRank s] else s
      s.modRhl fun r => { r with state := if r.state = .leaving then .leaving else .joining }
    else s

/-- HOLDOVER_EXIT (R58). -/
def execHoldoverExit (s : State) : Host.Outcome State Fault Refusal :=
  .next (if s.tmp.mode = .holdover ∧ 16 ≤ s.tmp.validBeats then s.modTmp fun t => { t with mode := .locked, holdoverLeft := 1000 } else s)

/-- FENCED_EXIT (R58). -/
def execFencedExit (s : State) : Host.Outcome State Fault Refusal :=
  .next (if s.tmp.counting = true ∧ s.tmp.mode = .fenced ∧ 1024 ≤ s.tmp.validBeats then s.modTmp fun t => { t with mode := .locked } else s)

/-! ## Alignment (R43 to R49, R78) -/

/-- The package aligns from a link group (R43): as a member, its alignment link while another package is master; as a joiner, the first
UP link group whose peer shows MEMBER and is accepted (R444). -/
def alignsOn (s : State) (l : Nat) : Bool :=
  s.rhl.rank.isSome && if s.rhl.state == .member then ownMaster s != ownRank s && s.tmp.alignLink.val == l
    else (List.range 8).find? (fun k => (linkSt s k).state == .up && (peerMember s k).isSome) == some l

/-- Nearest whole number of beats in some ticks. -/
def roundBeats (ticks : Int) : Int := (ticks + 500) / 1000

/-- The package's own beat number nearest to a phase from its nearest frame start. -/
def ownBeatAt (s : State) (phase : Int) : Int :=
  (if bInF s.beat < 512 then frameOf s.beat * 1024 else (frameOf s.beat + 1) * 1024 : Nat) + roundBeats phase

/-- What a marker asks for (R48, R49). -/
def realignFor (diff : Int) : Realign := if diff = 0 then .none else if diff = 1 then .hold else if diff = -1 then .skip else .load

/-- A marker on the alignment link (R45, R46, R48, R49). -/
def takeMarker (s : State) (l : Link) (beatNo : Nat) (arrival : Int) : State :=
  let delay : Int := ((vat s.tmp.linkDelay l none).elim 0 (·.toNat) : Nat)
  let phase := arrival - delay
  let start : Int := (if bInF s.beat < 512 then s.tmp.frameStart else s.tmp.frameStart + 1024000 : Nat)
  s.modTmp fun t => { t with
    phaseErr := phase, trimLeft := phase - 1000 * roundBeats phase, aligned := decide (phase.natAbs ≤ 1),
    marker := some { link := l, beatNo := beatNo, atTicks := start + arrival, atBeat := s.beat },
    realign := if s.rhl.state == .member then realignFor (ownBeatAt s phase - beatNo) else t.realign }

/-- MARKER_RECEIVED (R45). -/
def execMarkerReceived (link : Link) (beatNo : Nat) (arrival : Int) (s : State) : Host.Outcome State Fault Refusal :=
  .next (if s.tmp.counting && linkLive (linkSt s link).state && alignsOn s link then takeMarker s link beatNo arrival else s)

/-- CATCH_UP_REALIGN (R48, R78): the skip acts at the end of the beat before the guard beat, the hold at the end of the guard beat; a
skip of the guard beat before a grade's effective frame waits a frame. -/
def execCatchUpRealign (s : State) : Host.Outcome State Fault Refusal :=
  .next <|
    let skip := s.tmp.realign == .skip && bInF s.beat == 1022 && !announcedFor s (frameOf s.beat + 1)
    let hold := s.tmp.realign == .hold && bInF s.beat == 1023
    if s.tmp.counting && (skip || hold) then s.modTmp fun t => { t with realignArmed := true } else s

/-- The package still has to load its master's count (R49): it is a member that another package is master of. -/
def loadStands (s : State) (m : Marker) : Bool :=
  s.tmp.counting && s.tmp.realign == .load && ownState s == .member && ownMaster s != ownRank s && bInF s.beat == 0 && m.atBeat != s.beat

/-- BEAT_NUMBER_LOAD (R49): at the frame boundary after the marker. -/
def execBeatNumberLoad (s : State) : Host.Outcome State Fault Refusal :=
  .next <| match s.tmp.marker with
  | some m => if loadStands s m then loadBeat s m else s
  | none => s

end Sys2Proof.Machine
end

