-- ==== Sys2Proof/Machine/LoaderCheck.lean ====
section
/-! DEFINITION. The container of the structure bit-stream (03): its layout, the checks of Table 3-8 in their order, and the structure it
defines. A check is the byte offset of a field with its verdict; the first failure of a step is the lowest record, and in it the
lowest offset (R109). -/

namespace Sys2Proof.Machine

/-- A field's offset, and whether it passes. -/
abbrev Chk := Nat × Bool

/-- The lowest offset that fails. -/
def firstBad (cs : List Chk) : Option Nat := match (cs.filter fun c => !c.2).map (·.1) with
  | [] => none
  | x :: xs => some (xs.foldl min x)

/-- A record of a container: its index, the offset of its header, TYPE, FLAGS and LENGTH (R81). -/
structure Rec where
  idx : Nat
  off : Nat
  type : Nat
  flags : Nat
  len : Nat
  deriving DecidableEq, Repr

/-- Offset of the payload, and of the first byte after the padding. -/
def Rec.body (r : Rec) : Nat := r.off + 8
def Rec.stop (r : Rec) : Nat := r.off + 8 + (r.len + 7) / 8 * 8

/-- The record index that names the header (R110). -/
def headRec : Nat := 0xFFFF

/-- A failure of a step: the code, the record index and the offset (R110). -/
structure LoadFail where
  step : Nat
  code : Code
  record : Nat
  off : Nat
  deriving DecidableEq, Repr

/-- Bytes that are all zero. -/
def zeros (b : List Byte) (off len : Nat) : Bool := ((b.drop off).take len).all (· == 0)

/-- Checks over some indices. -/
def spread (n : Nat) (f : Nat → List Chk) : List Chk := (List.range n).flatMap f

/-! ## Steps 2 to 4: the header (Table 3-3) -/

/-- Step 2; the length a host source gives, or none for flash. -/
def headerChecks (b : List Byte) (srcLen : Option Nat) : List Chk :=
  let n := fieldAt b 8 4
  [(0, fieldAt b 0 4 == 0x594C4253), (4, fieldAt b 4 2 == 1), (6, fieldAt b 6 2 == 256),
   (8, match srcLen with
     | some l => n == l
     | none => decide (256 ≤ n) && decide (n ≤ 2 ^ 24)),
   (0xC, decide (2 ≤ fieldAt b 0xC 4) && decide (fieldAt b 0xC 4 ≤ 2048)), (0x12, zeros b 0x12 2), (0x14, fieldAt b 0x14 2 != 0),
   (0x30, zeros b 0x30 208)]

/-- Step 3: the target (R2). -/
def targetChecks (b : List Byte) (bin : Bin) : List Chk :=
  [(0x10, fieldAt b 0x10 1 == 0x11), (0x11, fieldAt b 0x11 1 == 0 || fieldAt b 0x11 1 == (match bin with
    | .yp4A => 1
    | .yp4L => 2))]

/-- Step 4: hub firmware 3.2 (R2). -/
def firmwareChecks (b : List Byte) : List Chk := [(0x18, decide (fieldAt b 0x18 4 ≤ 0x30002))]

/-! ## Step 5: framing (R81) -/

/-- Walks the records: the records, or the record index and offset of the first failure. -/
def frames (b : List Byte) (total count : Nat) : Nat → Nat → List Rec → List Rec ⊕ (Nat × Nat)
  | 0, off, acc => if off = total then .inl acc.reverse else .inr (headRec, 0xC)
  | k + 1, off, acc =>
    let i := count - (k + 1)
    let r : Rec := { idx := i, off := off, type := fieldAt b off 2, flags := fieldAt b (off + 2) 2, len := fieldAt b (off + 4) 4 }
    if total < off + 8 then .inr (i, off)
    else if k ≠ 0 ∧ r.type = 7 then .inr (i, off)
    else if k = 0 ∧ r.type ≠ 7 then .inr (headRec, 0xC)
    else if total < r.stop ∨ (k = 0 ∧ r.len ≠ 208) then .inr (i, off + 4)
    else
      match firstBad (spread (r.stop - (r.body + r.len)) fun j => [(r.body + r.len + j, zeros b (r.body + r.len + j) 1)]) with
      | some o => .inr (i, o)
      | none => frames b total count k r.stop (r :: acc)

/-- The records of a container. -/
def records (b : List Byte) : List Rec ⊕ (Nat × Nat) := frames b (fieldAt b 8 4) (fieldAt b 0xC 4) (fieldAt b 0xC 4) 0x100 []

/-! ## Step 6: the signature (R101 to R103) -/

/-- A 48-byte digest as a number. -/
def digestAt (b : List Byte) (off : Nat) : BitVec 384 := BitVec.ofNat 384 (beNat (slice b off 48))

/-- The slot is usable for bit-streams (R103). -/
def slotUsable (f : Fuses) (k : Nat) : Bool := if k = 0 then !f.rootOff else decide (k ≤ 4) && vat f.keyState (k - 1) .empty == .enrolled

/-- The signed digest of a container (R101). -/
def signedDigest (b : List Byte) (signOff : Nat) : BitVec 384 := sha384 (b.take signOff)

/-- Step 6 on the SIGN record. -/
def signChecks (f : Fuses) (b : List Byte) (r : Rec) : List Chk :=
  let p := r.body
  let key := slice b (p + 8) 97
  let k := fieldAt b p 1
  [(p, slotUsable f k), (p + 8, sha384 key == vat f.keyHash k 0),
   (p + 0xA0, ecdsaVerify key (signedDigest b r.off) (beNat (slice b (p + 0x70) 48)) (beNat (slice b (p + 0xA0) 48)))]

/-! ## Step 7: fields (R82 to R88, R96, R97, R203, R246, R247, R251, R321, R417, R443, R668, R675) -/

/-- A valid entry of a table. -/
def entryValid (b : List Byte) (e : Nat) : Bool := bitOf (fieldAt b (e + 2) 2) 0

/-- STRUCT. -/
def structFields (b : List Byte) (r : Rec) : List Chk :=
  let p := r.body
  let n := fieldAt b p 1
  [(r.off + 4, decide (16 ≤ r.len)), (p, decide (1 ≤ n) && decide (n ≤ 8) && r.len == 16 + 128 * n), (p + 1, zeros b (p + 1) 1),
   (p + 2, [16, 32, 64, 128, 256, 512, 1024].contains (fieldAt b (p + 2) 2)), (p + 4, zeros b (p + 4) 12)] ++
  spread (min n 8) fun i =>
    let d := p + 16 + 128 * i
    [(d, decide (fieldAt b d 1 ≤ 7)), (d + 1, decide (fieldAt b (d + 1) 1 < 16)), (d + 2, decide (fieldAt b (d + 2) 1 ≤ 8)),
     (d + 3, decide (1 ≤ fieldAt b (d + 3) 1) && decide (fieldAt b (d + 3) 1 ≤ 16)), (d + 4, fieldAt b (d + 4) 2 != 0),
     (d + 0xC, zeros b (d + 0xC) 4), (d + 0x18, zeros b (d + 0x18) 8), (d + 0x60, zeros b (d + 0x60) 32)]

/-- Entry size and most entries of a table kind (Table 3-6). -/
def kindSize (k : Nat) : Nat × Nat := match k with
  | 1 => (32, 64)
  | 2 => (32, 16)
  | 3 => (256, 256)
  | 4 => (16, 16)
  | 5 => (16, 1024)
  | 6 => (16, 256)
  | _ => (0, 0)

/-- WINDOW: checked in full, valid or not (R668). -/
def windowFields (b : List Byte) (e : Nat) : List Chk :=
  [(e + 0x18, decide (fieldAt b (e + 0x18) 1 ≤ 4)), (e + 0x19, decide (fieldAt b (e + 0x19) 1 ≤ 1)), (e + 0x1A, zeros b (e + 0x1A) 6)]

/-- DEGRADE (R417). -/
def degradeFields (b : List Byte) (e : Nat) (v : Bool) : List Chk :=
  [(e + 0x18, !v || decide (fieldAt b (e + 0x18) 1 ≤ 7)), (e + 0x19, !v || decide (fieldAt b (e + 0x19) 1 ≤ 7)),
   (e + 0x1A, zeros b (e + 0x1A) 6)]

/-- An OUT of a TREE entry that names a ring link group. -/
def outRing (o : Nat) : Bool := decide (0x10 ≤ o) && decide (o ≤ 0x17)

/-- The reserved bits of DEST for its OUT (R251). -/
def destReserved (o d : Nat) : Bool := if o = 0 then decide (d < 2 ^ 23) else if o = 1 then decide (d < 2 ^ 25) else true

/-- DEST of a TREE entry for its OUT (R251). -/
def destOk (o d : Nat) : Bool := if o ≤ 1 then destReserved o d && decide (d % 8192 ≤ 6143) else d == 0

/-- An input code that R675 allows. -/
def inputOk (c nodes : Nat) : Bool := decide (c < 0x48) || c == 0xFF || (decide (0x80 ≤ c) && decide (c < 0x80 + nodes))

/-- TREE (R675, R251); of an entry that is not valid only the reserved bits (R668). -/
def treeFields (b : List Byte) (e : Nat) (v : Bool) : List Chk :=
  let nc := fieldAt b (e + 9) 1
  let out := fieldAt b (e + 0xB) 1
  (if v then [(e + 8, decide (fieldAt b (e + 8) 1 ≤ 3)), (e + 9, decide (1 ≤ nc) && decide (nc ≤ 30)),
      (e + 0xA, decide (fieldAt b (e + 0xA) 1 < nc)), (e + 0xB, decide (out ≤ 1) || outRing out), (e + 0xC, destOk out (fieldAt b (e + 0xC) 4))]
    else [(e + 0xC, destReserved out (fieldAt b (e + 0xC) 4))]) ++
  spread 30 fun j =>
    let q := e + 0x10 + 8 * j
    let site := fieldAt b (q + 4) 1
    if nc ≤ j then [(q, zeros b q 8)]
    else if v then
      (spread 4 fun i => [(q + i, inputOk (fieldAt b (q + i) 1) nc)]) ++
        [(q + 4, decide (site ≤ 7) || outRing site), (q + 5, zeros b (q + 5) 3)]
    else [(q + 5, zeros b (q + 5) 3)]

/-- COMPAT (R443). -/
def compatFields (b : List Byte) (e : Nat) (v : Bool) : List Chk :=
  [(e + 1, !v || fieldAt b (e + 1) 1 == 0xFF), (e + 0xA, !v || decide (fieldAt b (e + 8) 2 ≤ fieldAt b (e + 0xA) 2)),
   (e + 0xC, zeros b (e + 0xC) 4)]

/-- BUDGET (R321). -/
def budgetFields (e i : Nat) (v : Bool) : List Chk := [(e + 2, !v || (decide (i < 736) && !(decide (720 ≤ i) && decide (i ≤ 727))))]

/-- PART = 0xFF is allowed by the rule of the kind (R668): not for TREE and MCAST, nor for a BUDGET entry of a sheaf or engine
(R320). -/
def anyPartOk (kind i : Nat) : Bool := kind != 3 && kind != 6 && (kind != 5 || decide (80 ≤ i / 8))

/-- One entry of a table. -/
def entryFields (b : List Byte) (kind e i : Nat) : List Chk :=
  let v := entryValid b e
  let part := fieldAt b (e + 1) 1
  [(e + 1, !(v || kind == 1) || decide (part ≤ 7) || (part == 0xFF && anyPartOk kind i)), (e + 2, decide (fieldAt b (e + 2) 2 ≤ 1)),
   (e + 4, zeros b (e + 4) 4)] ++
  match kind with
  | 1 => windowFields b e
  | 2 => degradeFields b e v
  | 3 => treeFields b e v
  | 4 => compatFields b e v
  | 5 => budgetFields e i v
  | 6 => [(e + 8, !v || fieldAt b (e + 8) 8 != 0)]
  | _ => []

/-- TABLE (R87). -/
def tableFields (b : List Byte) (r : Rec) : List Chk :=
  let p := r.body
  let kind := fieldAt b p 2
  let size := (kindSize kind).1
  let n := fieldAt b (p + 4) 4
  [(r.off + 4, decide (16 ≤ r.len)), (p, decide (1 ≤ kind) && decide (kind ≤ 6)), (p + 2, fieldAt b (p + 2) 2 == size),
   (p + 4, decide (n ≤ (kindSize kind).2) && r.len == 16 + size * n), (p + 8, zeros b (p + 8) 8)] ++
  spread (min n (kindSize kind).2) fun i => entryFields b kind (p + 16 + size * i) i

/-- Tiles that a tile map names. -/
def mapTiles (b : List Byte) (m : Nat) : List Nat :=
  (List.range 64).flatMap fun s => (List.range 16).filterMap fun i => if bitOf (fieldAt b (m + 2 * s) 2) i then some (16 * s + i) else none

/-- The word of a tile map at which its count of tiles can no longer be the given one (R109). -/
def mapBadAt (b : List Byte) (m tiles : Nat) : List Chk :=
  let upto := fun k => ((mapTiles b m).filter fun t => decide (t < 16 * (k + 1))).length
  spread 64 fun k => [(m + 2 * k, decide (upto k ≤ tiles) && decide (tiles ≤ upto k + 16 * (63 - k)))]

/-- A grade entry of a PLAN record and what it points to (R88). -/
def gradeFields (b : List Byte) (r : Rec) (k : Nat) : List Chk :=
  let p := r.body
  let g := p + 16 + 24 * k
  let ends := 16 + 24 * fieldAt b (p + 7) 1
  let fits := fun len => decide (ends + len ≤ r.len)
  let inside := fun off len => decide (ends ≤ off) && decide (off + len ≤ r.len)
  let bodyOff := fieldAt b (g + 0xC) 4
  let slots := fieldAt b (g + 2) 2
  let fg := fieldAt b (g + 4) 2
  let refs := fieldAt b (g + 6) 2
  let so := fieldAt b (g + 8) 4
  let tilesAt := fieldAt b (g + 0x14) 4
  let prev := fieldAt b (g - 24) 1
  [(g, decide (fieldAt b g 1 ≤ 7) && (k == 0 || decide (prev < fieldAt b g 1))), (g + 1, zeros b (g + 1) 1), (g + 2, fits (8 * slots)),
   (g + 4, decide (fg ≤ 1022) && (slots == 0 || decide (1 ≤ fg))), (g + 6, decide (refs ≤ 512) && fits (128 + 4 * refs)),
   (g + 8, inside so (8 * slots)), (g + 0xC, inside bodyOff 0), (g + 0x10, inside bodyOff (fieldAt b (g + 0x10) 4)), (g + 0x14, inside tilesAt (128 + 4 * refs))] ++
  (if inside so (8 * slots) then spread slots fun i =>
      let q := p + so + 8 * i
      [(q, decide (fieldAt b q 2 < fg)), (q + 2, decide (1 ≤ fieldAt b (q + 2) 2) && decide (fieldAt b q 2 + fieldAt b (q + 2) 2 ≤ fg))]
    else []) ++
  if inside tilesAt (128 + 4 * refs) then
    mapBadAt b (p + tilesAt) (fieldAt b (p + 4) 2) ++
      spread refs fun i => [(p + tilesAt + 128 + 4 * i, [3, 6].contains (fieldAt b (p + tilesAt + 128 + 4 * i) 2))]
  else []

/-- PLAN (R88). -/
def planFields (b : List Byte) (r : Rec) : List Chk :=
  let p := r.body
  let n := fieldAt b (p + 7) 1
  let part := fieldAt b (p + 6) 1
  [(r.off + 4, decide (16 ≤ r.len)), (p + 4, decide (fieldAt b (p + 4) 2 ≤ 1024)), (p + 6, decide (part ≤ 7) || part == 0xFF),
   (p + 7, decide (1 ≤ n) && decide (n ≤ 8) && decide (16 + 24 * n + 128 ≤ r.len)), (p + 8, decide (fieldAt b (p + 8) 1 ≤ 7)),
   (p + 9, decide (fieldAt b (p + 9) 1 ≤ 1)), (p + 0xA, zeros b (p + 0xA) 6)] ++
  if 16 + 24 * n ≤ r.len then spread (min n 8) (gradeFields b r) else []

/-- CODE. -/
def codeFields (b : List Byte) (r : Rec) : List Chk :=
  let p := r.body
  let n := fieldAt b (p + 4) 4
  [(r.off + 4, decide (16 ≤ r.len)), (p + 2, decide (fieldAt b (p + 2) 1 ≤ 7)), (p + 3, zeros b (p + 3) 1),
   (p + 4, decide (n ≤ 2 ^ 24) && r.len == 16 + n), (p + 8, fieldAt b (p + 8) 8 % 4096 == 0)]

/-- SEQ. -/
def seqFields (b : List Byte) (r : Rec) : List Chk :=
  let p := r.body
  let u := fieldAt b p 1
  let d := fieldAt b (p + 1) 1
  [(r.off + 4, decide (8 ≤ r.len)), (p, decide (1 ≤ u) && decide (u ≤ 32)),
   (p + 1, decide (1 ≤ d) && decide (d ≤ 32) && r.len == 8 + 8 * (u + d)), (p + 2, zeros b (p + 2) 6)] ++
  spread (min (u + d) 64) fun i =>
    let q := p + 8 + 8 * i
    [(q, decide (fieldAt b q 1 ≤ 7)), (q + 1, decide (fieldAt b (q + 1) 1 ≤ 7)), (q + 2, decide (fieldAt b (q + 2) 2 ≤ 10000)),
     (q + 4, zeros b (q + 4) 4)]

/-- CURVE (R96, R97). -/
def curveFields (b : List Byte) (r : Rec) : List Chk :=
  let p := r.body
  let kind := fieldAt b p 2
  let n := fieldAt b (p + 2) 2
  let temp := fun i => toSigned 16 (fieldAt b (p + 8 + 8 * i) 2)
  let mult := fun i => fieldAt b (p + 8 + 8 * i + 2) 2
  [(r.off + 4, decide (8 ≤ r.len)), (p, kind == 1 || kind == 2),
   (p + 2, r.len == 8 + 8 * n && (if kind = 1 then decide (2 ≤ n) && decide (n ≤ 16) else n == 8)), (p + 4, zeros b (p + 4) 4)] ++
  spread (min n 16) fun i =>
    let q := p + 8 + 8 * i
    if kind = 1 then
      [(q, i == 0 || decide (temp (i - 1) < temp i)),
       (q + 2, decide (256 ≤ mult i) && decide (mult i ≤ 512) && (i == 0 || decide (mult (i - 1) ≤ mult i))), (q + 4, zeros b (q + 4) 4)]
    else
      let en := fieldAt b q 1
      [(q, decide (en ≤ 1) && (i != 7 || en == 1)), (q + 1, zeros b (q + 1) 1),
       (q + 2, en != 1 || (decide (60 ≤ mult i) && decide (mult i ≤ 150))), (q + 4, zeros b (q + 4) 4)]

/-- What R83 counts: the type, and the kind of a TABLE or CURVE record. -/
def countKey (b : List Byte) (r : Rec) : Nat × Nat := (r.type, if r.type = 2 ∨ r.type = 6 then fieldAt b r.body 2 else 0)

/-- Most records of a type (Table 3-4). -/
def typeMost (t : Nat) : Nat := if t = 3 then 1024 else if t = 4 then 256 else 1

/-- Step 7 on one record: TYPE, FLAGS, its count, its fields; without a STRUCT record the container fails at its last record. -/
def recFields (b : List Byte) (rs : List Rec) (r : Rec) : List Chk :=
  let before := rs.filter fun q => decide (q.idx < r.idx) && countKey b q == countKey b r
  [(r.off, decide (1 ≤ r.type) && decide (r.type ≤ 7) && decide (before.length < typeMost r.type)),
   (r.off + 2, r.flags == 0 || (r.type == 2 && r.flags == 1))] ++
  match r.type with
  | 1 => structFields b r
  | 2 => tableFields b r
  | 3 => planFields b r
  | 4 => codeFields b r
  | 5 => seqFields b r
  | 6 => curveFields b r
  | 7 => [(r.body + 1, zeros b (r.body + 1) 7), (r.body + 0x69, zeros b (r.body + 0x69) 7)]
  | _ => []

/-! ## The structure a container defines -/

/-- Records of a type, in order. -/
def ofType (rs : List Rec) (t : Nat) : List Rec := rs.filter fun r => r.type == t

/-- Offsets of the entries of a table, in order. -/
def entriesAt (b : List Byte) (rs : List Rec) (kind : Nat) : List Nat :=
  (ofType rs 2).flatMap fun r => if fieldAt b r.body 2 = kind then
      (List.range (fieldAt b (r.body + 4) 4)).map fun i => r.body + 16 + (kindSize kind).1 * i
    else []

/-- The prefix of an entry. -/
def parseHead (b : List Byte) (e : Nat) : EntryHead := { prio := fieldAt b e 1, part := fieldAt b (e + 1) 1, valid := entryValid b e }

/-- A partition descriptor (Table 3-5). -/
def parsePart (b : List Byte) (d : Nat) : PartDesc :=
  let f := fieldAt b (d + 1) 1
  { part := fieldAt b d 1, enabled := bitOf f 0, deadreadFault := bitOf f 1, ring := bitOf f 2, c0 := bitOf f 3, vf := fieldAt b (d + 2) 1,
    grWays := fieldAt b (d + 3) 1, share := fieldAt b (d + 4) 2, ctxBase := fieldAt b (d + 6) 2, ctxCount := fieldAt b (d + 8) 2,
    dmaMask := BitVec.ofNat 16 (fieldAt b (d + 0xA) 2), sheafMask := BitVec.ofNat 64 (fieldAt b (d + 0x10) 8),
    channelMask := BitVec.ofNat 512 (fieldAt b (d + 0x20) 64) }

/-- A TREE entry (Table 6-4). -/
def parseTree (b : List Byte) (e : Nat) : TreeEntry :=
  { head := parseHead b e, format := fieldAt b (e + 8) 1, root := fieldAt b (e + 0xA) 1, outCode := fieldAt b (e + 0xB) 1,
    dest := BitVec.ofNat 32 (fieldAt b (e + 0xC) 4),
    nodes := (List.range (min (fieldAt b (e + 9) 1) 30)).map fun j =>
      { ins := (List.range 4).map fun i => fieldAt b (e + 0x10 + 8 * j + i) 1, site := fieldAt b (e + 0x10 + 8 * j + 4) 1 } }

/-- A grade entry with its slots, tiles and references. -/
def parseGrade (b : List Byte) (p k : Nat) : PlanGrade :=
  let g := p + 16 + 24 * k
  let m := p + fieldAt b (g + 0x14) 4
  { grade := fieldAt b g 1, fgBeats := fieldAt b (g + 4) 2, tiles := mapTiles b m,
    refs := (List.range (fieldAt b (g + 6) 2)).map fun i => (fieldAt b (m + 128 + 4 * i) 2, fieldAt b (m + 130 + 4 * i) 2),
    slots := (List.range (fieldAt b (g + 2) 2)).map fun i =>
      let q := p + fieldAt b (g + 8) 4 + 8 * i
      { off := fieldAt b q 2, beats := fieldAt b (q + 2) 2, cycles := fieldAt b (q + 4) 4 } }

/-- A PLAN record. -/
def parsePlan (b : List Byte) (r : Rec) : PlanRec :=
  let p := r.body
  { id := fieldAt b p 2, codeId := fieldAt b (p + 2) 2, tiles := fieldAt b (p + 4) 2, part := fieldAt b (p + 6) 1,
    variant := fieldAt b (p + 8) 1, collective := bitOf (fieldAt b (p + 9) 1) 0,
    grades := (List.range (fieldAt b (p + 7) 1)).map (parseGrade b p) }

/-- A CODE record. -/
def parseCode (b : List Byte) (r : Rec) : CodeRec :=
  let p := r.body
  { id := fieldAt b p 2, part := fieldAt b (p + 2) 1, addr := fieldAt b (p + 8) 8, image := slice b (p + 16) (fieldAt b (p + 4) 4) }

/-- A list of SEQ entries from an index. -/
def parseSeq (b : List Byte) (p from_ n : Nat) : List SeqOp :=
  (List.range n).map fun i =>
    let q := p + 8 + 8 * (from_ + i)
    { op := fieldAt b q 1, rail := fieldAt b (q + 1) 1, delayUs := fieldAt b (q + 2) 2 }

/-- The CURVE record of a kind. -/
def curveOf (b : List Byte) (rs : List Rec) (kind : Nat) : Option Rec := (ofType rs 6).find? fun r => fieldAt b r.body 2 == kind

/-- The points of a CURVE record. -/
def curvePoints {α : Type} (b : List Byte) (r : Rec) (f : Nat → α) : List α :=
  (List.range (fieldAt b (r.body + 2) 2)).map fun i => f (r.body + 8 + 8 * i)

/-- The die share (R672). -/
def dieShareOf (b : List Byte) (rs : List Rec) : List Byte :=
  (rs.filter fun r => r.type != 4 && r.type != 7 && !(r.type == 2 && fieldAt b r.body 2 == 1)).flatMap fun r => slice b r.off (r.stop - r.off)

/-- The descriptors of the STRUCT record. -/
def descOffs (b : List Byte) (rs : List Rec) : List Nat :=
  (ofType rs 1).flatMap fun r => (List.range (fieldAt b r.body 1)).map fun i => r.body + 16 + 128 * i

/-- The structure of a container (R79). -/
def parseStructure (b : List Byte) (rs : List Rec) : Structure :=
  let signOff := ((ofType rs 7).map (·.off)).headD 0
  { hash := signedDigest b signOff, compatClass := fieldAt b 0x14 2, minor := fieldAt b 0x16 2,
    c0Period := ((ofType rs 1).map fun r => fieldAt b (r.body + 2) 2).headD 1024,
    parts := (descOffs b rs).map (parsePart b),
    windows := (entriesAt b rs 1).map fun e =>
      { head := parseHead b e, base := fieldAt b (e + 8) 8, limit := fieldAt b (e + 16) 8, cls := fieldAt b (e + 0x18) 1,
        detoff := bitOf (fieldAt b (e + 0x19) 1) 0 },
    degrade := if (ofType rs 2).any (fun r => fieldAt b r.body 2 == 2) then
        some ((entriesAt b rs 2).map fun e =>
          { head := parseHead b e, value := BitVec.ofNat 64 (fieldAt b (e + 8) 8), mask := BitVec.ofNat 64 (fieldAt b (e + 16) 8),
            variant := fieldAt b (e + 0x18) 1, dstep := fieldAt b (e + 0x19) 1 })
      else none,
    trees := (entriesAt b rs 3).map (parseTree b),
    compat := (entriesAt b rs 4).map fun e => { head := parseHead b e, lo := fieldAt b (e + 8) 2, hi := fieldAt b (e + 10) 2 },
    budgets := (entriesAt b rs 5).map fun e => { head := parseHead b e, bytes := (List.range 8).map fun j => fieldAt b (e + 8 + j) 1 },
    mcasts := (entriesAt b rs 6).map fun e => { head := parseHead b e, mask := BitVec.ofNat 64 (fieldAt b (e + 8) 8) },
    plans := (ofType rs 3).map (parsePlan b), codes := (ofType rs 4).map (parseCode b),
    seq := ((ofType rs 5).map fun r =>
      (parseSeq b r.body 0 (fieldAt b r.body 1), parseSeq b r.body (fieldAt b r.body 1) (fieldAt b (r.body + 1) 1))).head?,
    refresh := (curveOf b rs 1).map fun r => curvePoints b r fun q => (toSigned 16 (fieldAt b q 2), fieldAt b (q + 2) 2),
    optable := (curveOf b rs 2).map fun r => curvePoints b r fun q => (fieldAt b q 1 == 1, fieldAt b (q + 2) 2),
    dieShare := dieShareOf b rs }

/-! ## Step 8: across records (R85, R86, R90, R91, R93, R247, R251, R252, R320, R322, R332, R420, R668, R669) -/

/-- The descriptor of an enabled partition. -/
def descOf (t : Structure) (p : Nat) : Option PartDesc := t.parts.find? fun d => d.part == p && d.enabled

/-- PART names an enabled partition, or is 0xFF. -/
def partNamed (t : Structure) (p : Nat) : Bool := p == 0xFF || (descOf t p).isSome

/-- STRUCT: the i-th descriptor against the enabled ones before it. -/
def descCross (s : State) (t : Structure) (off i : Nat) : List Chk :=
  match t.parts[i]? with
  | none => []
  | some d =>
    if !d.enabled then []
    else
      let before := (t.parts.take i).filter (·.enabled)
      let badSheaf := (List.range 64).any fun k => d.sheafMask.getLsbD k && (dieFailed s (k / 16) || vat s.tile.sheafFailed k false)
      let badChan := (List.range 512).any fun x => d.channelMask.getLsbD x && chanFailed s x
      let ctxEnd := d.ctxBase + d.ctxCount
      let ctxHit := before.any fun e => decide (0 < d.ctxCount) && decide (0 < e.ctxCount) && decide (d.ctxBase < e.ctxBase + e.ctxCount) &&
        decide (e.ctxBase < ctxEnd)
      [(off, before.all fun e => e.part != d.part), (off + 2, d.vf == 0 || before.all fun e => e.vf != d.vf),
       (off + 3, decide (sumN ((d :: before).map (·.grWays)) ≤ 16) && (!d.c0 || decide (2 ≤ d.grWays))),
       (off + 6, decide (d.ctxBase ≤ 16384)), (off + 8, decide (ctxEnd ≤ 16384) && !ctxHit), (off + 0xA, before.all fun e => e.dmaMask &&& d.dmaMask == 0),
       (off + 0x10, !badSheaf && before.all fun e => e.sheafMask &&& d.sheafMask == 0),
       (off + 0x20, !badChan && before.all fun e => e.channelMask &&& d.channelMask == 0)]

/-- Threshers of a site: four in each half, one at each ring port. -/
def siteThreshers (site : Nat) : Nat := if site < 8 then 4 else 1

/-- DEST of a TREE entry (R251). -/
def destCross (t : Structure) (d : PartDesc) (e : TreeEntry) : Bool :=
  let v := e.dest.toNat
  if e.outCode = 0 then d.sheafMask.getLsbD (bitsOf v 22 17)
  else if e.outCode = 1 then (t.mcasts[bitsOf v 24 17]?).any fun m => m.head.valid && m.head.part == e.head.part
  else true

/-- Outputs of nodes other than the root's that are no input up to an input of a node (R252). -/
def unusedUpTo (e : TreeEntry) (j i : Nat) : Nat :=
  let used := (e.nodes.take j).flatMap (·.ins) ++ ((e.nodes[j]?).elim [] fun n => n.ins.take (i + 1))
  ((List.range e.nodes.length).filter fun k => k != e.root && !used.contains (0x80 + k)).length

/-- Inputs that are left after an input of a node: none of the node once it has coded none. -/
def inputsLeft (e : TreeEntry) (j i : Nat) : Nat :=
  let ended := (e.nodes[j]?).any fun n => (n.ins.take (i + 1)).contains 0xFF
  (if ended then 0 else 3 - i) + 4 * (e.nodes.length - 1 - j)

/-- TREE (R252): what each node's inputs and site must satisfy, each at the first item at which it can no longer hold (R109). -/
def nodeCross (d : PartDesc) (e : TreeEntry) (off j : Nat) (n : TreeNode) : List Chk :=
  let q := off + 0x10 + 8 * j
  let earlier := (e.nodes.take j).flatMap (·.ins)
  let input := fun (i : Nat) =>
    let c := n.ins[i]?.getD 0xFF
    let sofar := earlier ++ n.ins.take i
    let known := if c < 0x40 then d.sheafMask.getLsbD c && !sofar.contains c
      else if c < 0x48 then d.ring && !earlier.contains c &&
        (n.ins.take i).all fun x => !(decide (0x40 ≤ x) && decide (x < 0x48)) || x == c
      else if c < 0xFF then decide (c < 0x80 + j) && !sofar.contains c
      else decide (2 ≤ i)
    (q + i, known && !(c != 0xFF && (n.ins.take i).contains 0xFF) && decide (unusedUpTo e j i ≤ inputsLeft e j i))
  (List.range 4).map input ++
    [(q + 4, n.ins.all (fun c => !(decide (0x40 ≤ c) && decide (c < 0x48)) || n.site == 0x10 + (c - 0x40)) &&
      decide (((e.nodes.take (j + 1)).filter fun m => m.site == n.site).length ≤ siteThreshers n.site) &&
      (!(outRing e.outCode && j == e.root) || outRing n.site))]

/-- TREE (R251, R252). -/
def treeCross (t : Structure) (off : Nat) (e : TreeEntry) : List Chk :=
  match descOf t e.head.part with
  | none => []
  | some d =>
    [(off + 0xA, e.root + 1 == e.nodes.length), (off + 0xB, !outRing e.outCode || d.ring), (off + 0xC, destCross t d e)] ++
      e.nodes.zipIdx.flatMap fun n => nodeCross d e off n.2 n.1

/-- The partition whose a BUDGET master is (R320): the owner of its sheaf or engine, 0xFF for the others. -/
def masterOwner (t : Structure) (m : Nat) : Option Nat :=
  if m < 64 then (t.parts.find? fun d => d.enabled && d.sheafMask.getLsbD m).map (·.part)
  else if m < 80 then (t.parts.find? fun d => d.enabled && d.dmaMask.getLsbD (m - 64)).map (·.part)
  else some 0xFF

/-- The group holds a pseudo-channel of the partition. -/
def groupIn (t : Structure) (p g : Nat) : Bool := (descOf t p).any fun d => (List.range 8).any fun c => d.channelMask.getLsbD (8 * g + c)

/-- Units that valid entries up to an index give a group (R322). -/
def groupSum (t : Structure) (i g : Nat) : Nat :=
  sumN (((t.budgets.zipIdx).filter fun e => e.1.head.valid && decide (e.2 ≤ i) && e.2 % 8 == g / 8).map fun e => 4 * (e.1.bytes[g % 8]?).getD 0)

/-- BUDGET (R320, R322). -/
def budgetCross (t : Structure) (off i : Nat) (e : BudgetEntry) : List Chk :=
  let m := i / 8
  (off + 1, masterOwner t m == some e.head.part) :: spread 8 fun j =>
    let g := 8 * (i % 8) + j
    [(off + 8 + j, ((e.bytes[j]?).getD 0 == 0 || decide (80 ≤ m) || groupIn t e.head.part g) && decide (groupSum t i g ≤ 2944))]

/-- The valid entries of a table of a kind. -/
def tableCross (t : Structure) (b : List Byte) (r : Rec) : List Chk :=
  let kind := fieldAt b r.body 2
  (List.range (fieldAt b (r.body + 4) 4)).flatMap fun i =>
    let e := r.body + 16 + (kindSize kind).1 * i
    if !entryValid b e then []
    else (e + 1, partNamed t (fieldAt b (e + 1) 1)) :: match kind with
      | 3 => (t.trees[i]?).elim [] (treeCross t e)
      | 5 => (t.budgets[i]?).elim [] (budgetCross t e i)
      | 6 => [(e + 8, (t.mcasts[i]?).all fun m => (descOf t m.head.part).all fun d => m.mask &&& ~~~d.sheafMask == 0)]
      | _ => []

/-- A reference of a plan (R669). -/
def refOk (t : Structure) (part : Nat) (ref : Nat × Nat) : Bool :=
  let ok := fun (h : EntryHead) => h.valid && (part == 0xFF || h.part == part)
  if ref.1 = 3 then (t.trees[ref.2]?).any fun e => ok e.head else (t.mcasts[ref.2]?).any fun e => ok e.head

/-- The variant-0 record of a variant record (R420). -/
def variantZero (t : Structure) (r : PlanRec) : Option PlanRec :=
  if r.variant ≤ r.id then t.plans.find? fun q => q.variant == 0 && q.part == r.part && q.id == r.id - r.variant else none

/-- PLAN (R90, R420, R668, R669). -/
def planCross (t : Structure) (b : List Byte) (r : Rec) (i : Nat) : List Chk :=
  match t.plans[i]? with
  | none => []
  | some x =>
    let p := r.body
    let zero := variantZero t x
    let base := fun (k : Nat) => zero.bind fun z => z.grades.find? fun g => g.grade == k
    [(p, (t.plans.take i).all fun q => q.id != x.id), (p + 2, t.codes.any fun c => c.id == x.codeId), (p + 6, partNamed t x.part),
     (p + 8, x.variant == 0 || zero.any fun z => decide (z.grades.length ≤ x.grades.length))] ++
    x.grades.zipIdx.flatMap fun e =>
      let q := p + 16 + 24 * e.2
      let m := p + fieldAt b (q + 0x14) 4
      let seen := (x.grades.take (e.2 + 1)).map (·.grade)
      (q, x.variant == 0 || zero.all fun z => (z.grades.all fun g => decide (e.1.grade < g.grade) || seen.contains g.grade) &&
        decide ((z.grades.filter fun g => decide (e.1.grade < g.grade)).length + e.2 + 1 ≤ x.grades.length)) ::
      (q + 4, x.variant == 0 || (base e.1.grade).all fun g => decide (e.1.fgBeats ≤ g.fgBeats)) ::
      (e.1.tiles.map fun tile => (m + 2 * (tile / 16),
        (x.part == 0xFF || (descOf t x.part).any fun d => d.sheafMask.getLsbD (tile / 16)) &&
          (x.variant == 0 || (base e.1.grade).all fun g => g.tiles.contains tile))) ++
      e.1.refs.zipIdx.map fun f => (m + 130 + 4 * f.2, refOk t x.part f.1)

/-- CODE (R91, R668). -/
def codeCross (t : Structure) (r : Rec) (i : Nat) : List Chk :=
  match t.codes[i]? with
  | none => []
  | some c =>
    let n := c.image.length
    let inside := decide (c.addr + n ≤ devTop) && (List.range (chanOf (c.addr + n - 1) + 1 - chanOf c.addr)).all fun k =>
      (descOf t c.part).any fun d => d.channelMask.getLsbD (chanOf c.addr + k)
    [(r.body + 2, (descOf t c.part).isSome), (r.body + 8, n == 0 || inside)]

/-- Where a power-up list stands after some entries (R93): the rail whose WAIT_PG is still to come, and whether a CLAMP_OFF has come
since the last WAIT_PG; none where a RAIL_ON finds a rail not yet waited for. -/
def seqWalk (up : List SeqOp) : Option (Option Nat × Bool) :=
  up.foldl (fun a o => a.bind fun p =>
    if o.op = 0 then if p.1.isSome then none else some (some o.rail, p.2)
    else if o.op = 2 then some (if p.1 = some o.rail then none else p.1, false)
    else if o.op = 4 then some (p.1, true)
    else some p) (some (none, false))

/-- Rails that a list turns on, each once, and those that a list turns off. -/
def railsOf (op : Nat) (l : List SeqOp) : List Nat := ((l.filter fun o => o.op == op).map (·.rail)).eraseDups

/-- SEQ (R93): each entry, with what the entries left must still hold (R109). -/
def seqCross (t : Structure) (r : Rec) : List Chk :=
  match t.seq with
  | none => []
  | some (up, down) =>
    let at_ := fun i => r.body + 8 + 8 * i
    let open_ := fun (l : List SeqOp) => (seqWalk l).map fun p => b2n p.1.isSome + b2n (p.1.isSome || !p.2)
    let still := fun j => ((railsOf 0 up).filter fun x => !(railsOf 1 (down.take j)).contains x).length
    (List.range up.length).map (fun i => (at_ i, (open_ (up.take (i + 1))).any (fun k => decide (k + i + 1 ≤ up.length)) &&
        decide ((railsOf 0 (up.take (i + 1))).length ≤ down.length))) ++
      (List.range down.length).map fun j => (at_ (up.length + j), decide (still (j + 1) + j + 1 ≤ down.length))

/-- The place of a record among those of its type. -/
def placeOf (rs : List Rec) (r : Rec) : Nat := (rs.filter fun q => q.type == r.type && decide (q.idx < r.idx)).length

/-- Step 8 on one record. -/
def recCross (s : State) (t : Structure) (b : List Byte) (rs : List Rec) (r : Rec) : List Chk :=
  match r.type with
  | 1 => (descOffs b rs).zipIdx.flatMap fun e => descCross s t e.1 e.2
  | 2 => tableCross t b r
  | 3 => planCross t b r (placeOf rs r)
  | 4 => codeCross t r (placeOf rs r)
  | 5 => seqCross t r
  | _ => []

/-! ## Steps 9 to 11 (R98, R89, R111) -/

/-- Step 9: OPTABLE against the fuses. -/
def fuseChecks (s : State) (b : List Byte) (r : Rec) : List Chk :=
  if r.type = 6 ∧ fieldAt b r.body 2 = 2 then
    spread 8 fun k =>
      let q := r.body + 8 + 8 * k
      let en := fieldAt b q 1 == 1
      let tooHigh := (List.range 4).any fun n => !dieFailed s n &&
        decide (vat s.fuses.vmax n 0 < vat (vat s.fuses.vmin n (Vector.replicate 8 0)) k 0 + fieldAt b (q + 2) 2)
      [(q, !en || vat s.fuses.opEnable k false), (q + 2, !en || !tooHigh)]
  else []

/-- Usable cycles per beat of a grade (Table 2-3). -/
def usableCycles : List Nat := [1764, 1666, 1568, 1421, 1274, 1078, 882, 686]

/-- Step 10: the budget of each slot (R89). -/
def budgetChecks (b : List Byte) (r : Rec) : List Chk :=
  if r.type = 3 then
    spread (fieldAt b (r.body + 7) 1) fun k =>
      let g := r.body + 16 + 24 * k
      spread (fieldAt b (g + 2) 2) fun i =>
        let q := r.body + fieldAt b (g + 8) 4 + 8 * i
        [(q + 4, decide (fieldAt b (q + 4) 4 ≤ fieldAt b (q + 2) 2 * usableCycles[fieldAt b g 1]?.getD 0))]
  else []

/-- Two valid entries compete at equal priority and overlap (R111). -/
def tied (b : List Byte) (kind e f : Nat) : Bool :=
  let h := parseHead b e
  let k := parseHead b f
  let x := fieldAt b (e + 8) 8
  let y := fieldAt b (e + 16) 8
  let u := fieldAt b (f + 8) 8
  let v := fieldAt b (f + 16) 8
  h.valid && k.valid && h.prio == k.prio && (h.part == k.part || h.part == 0xFF || k.part == 0xFF) &&
    (if kind = 1 then decide (x ≤ v) && decide (u ≤ y)
     else (BitVec.ofNat 64 x ^^^ BitVec.ofNat 64 u) &&& BitVec.ofNat 64 y &&& BitVec.ofNat 64 v == 0)

/-- Step 11: ties without OVERLAP_OK, at the later entry. -/
def tieChecks (b : List Byte) (r : Rec) : List Chk :=
  let kind := fieldAt b r.body 2
  if r.type = 2 ∧ r.flags = 0 ∧ (kind = 1 ∨ kind = 2) then
    spread (fieldAt b (r.body + 4) 4) fun j =>
      let f := r.body + 16 + 32 * j
      [(f + 16, (List.range j).all fun i => !tied b kind (r.body + 16 + 32 * i) f)]
  else []

/-! ## All the steps -/

/-- The first failure of a step over the records. -/
def firstOver (rs : List Rec) (f : Rec → List Chk) : Option (Nat × Nat) := rs.findSome? fun r => (firstBad (f r)).map fun o => (r.idx, o)

/-- A step over the header. -/
def headStep (step : Nat) (c : Code) (cs : List Chk) : Option LoadFail :=
  (firstBad cs).map fun o => { step := step, code := c, record := headRec, off := o }

/-- A step over the records. -/
def recStep (step : Nat) (c : Code) (rs : List Rec) (f : Rec → List Chk) : Option LoadFail :=
  (firstOver rs f).map fun e => { step := step, code := c, record := e.1, off := e.2 }

/-- Step 7 over the records; without a STRUCT record it fails at the header's count (R110), once the records before SIGN have passed. -/
def fieldStep (b : List Byte) (rs : List Rec) : Option LoadFail :=
  match recStep 7 .recBad (rs.filter fun r => r.type != 7) (recFields b rs) with
  | some e => some e
  | none =>
    if (ofType rs 1).isEmpty then some { step := 7, code := .recBad, record := headRec, off := 0xC }
    else recStep 7 .recBad (ofType rs 7) (recFields b rs)

/-- Steps 3 to 11 on a whole container: the structure, or the first failure (R109). -/
def validate (s : State) (b : List Byte) : Structure ⊕ LoadFail :=
  match headStep 3 .targetBad (targetChecks b s.fuses.bin) <|> headStep 4 .fwTooOld (firmwareChecks b) with
  | some e => .inr e
  | none =>
    match records b with
    | .inr e => .inr { step := 5, code := .recBad, record := e.1, off := e.2 }
    | .inl rs =>
      match recStep 6 .sigBad (ofType rs 7) (signChecks s.fuses b) <|> fieldStep b rs with
      | some e => .inr e
      | none =>
        let t := parseStructure b rs
        match recStep 8 .structBad rs (recCross s t b rs) <|> recStep 9 .fuseLimit rs (fuseChecks s b) <|>
            recStep 10 .planBudget rs (budgetChecks b) <|> recStep 11 .tableTie rs (tieChecks b) with
        | some e => .inr e
        | none => .inl t

end Sys2Proof.Machine
end

