-- ==== Sys2Proof/Machine/RingCmds.lean ====
section
/-! DEFINITION. The commands of the ring (12): link replays, training, consensus and update words, membership, ring flits. -/

namespace Sys2Proof.Machine

/-! ## Links (R431, R434 to R436, R449) -/

/-- LINK_REPLAY (R431): the seventeenth in one frame takes the link group down. -/
def execLinkReplay (link : Link) (s : State) : Host.Outcome State Fault Refusal :=
  .next <|
    if linkLive (linkSt s link).state then
      let s := s.modLink link fun x => { x with replay := x.replay + 1, fecUncorr := x.fecUncorr + 1, replayFrame := x.replayFrame + 1 }
      if (linkSt s link).replayFrame = 17 then s.linkDown link .linkDown else s
    else s

/-- Training can start at step 1 (R435): a tempo rank, a structure, and every link group down. -/
def canTrain (s : State) : Bool :=
  s.rst.done && s.rhl.rank.isSome && s.str.isSome && s.rhl.link.toList.all fun x => x.state == .down

/-- LINK_TRAIN_START (R435): every link group but those that TRAIN_FAIL keeps down (R434). -/
def execLinkTrainStart (s : State) : Host.Outcome State Fault Refusal :=
  .next <|
    if canTrain s then
      (s.modRhl fun r => { r with readySince := false,
                                  link := r.link.map fun x => if x.code = .trainFail then x else
                                    { x with state := .loc, tries := 0, passed1 := false, code := .ok } }).refreshGood
    else s

/-- Step 2 completes when every link group in training has passed step 1 (Table 12-2, R520). -/
def ringReady (s : State) : State :=
  let ls := s.rhl.link.toList.filter fun x => x.state == .loc
  if !ls.isEmpty && ls.all (·.passed1) then
    (s.modRhl fun r => { r with readySince := true,
                                link := r.link.map fun x => if x.state = .loc then { x with state := .ready, tries := 0 } else x }).refreshGood
  else s

/-- The package has found its own rank admitted on some link group: it is not admitted on any (R37). -/
def isDuplicate (s : State) : Bool :=
  s.rhl.state == .joining && s.rhl.link.toList.any fun x => linkLive x.state && x.code == .rankDuplicate &&
    x.peer.any fun w => w.state == 1 && w.rank == ownRank s

/-- The state a link group takes once its words are checked: UP, or TRANSIT while the package is fenced or leaving, or is itself
refused (R447). -/
def joinedState (s : State) (l : Nat) : LinkState :=
  let x := linkSt s l
  if ownState s == .fenced || ownState s == .leaving || isDuplicate s then .transit
  else if x.peerOk || x.bypassed then .up else .transit

/-- The measured delay of a link group (R44). -/
def setDelay (s : State) (l : Link) (ns : Nat) : State :=
  s.modTmp fun t => { t with linkDelay := vmod t.linkDelay l fun _ => some (BitVec.ofNat 16 ns) }

/-- TRAIN_STEP_DONE (R434, R44): the delay is measured at IDENT, and anew on a link group in service while a reshape is under way (R448);
RELOCK waits for the gate, which opens with PKG_GOOD. -/
def execTrainStepDone (link : Link) (delayNs : Nat) (s : State) : Host.Outcome State Fault Refusal :=
  .next <| match (linkSt s link).state with
  | .loc => ringReady (s.modLink link fun x => { x with passed1 := true, tries := 0 })
  | .ready => if s.rst.pkgGood then s.modLink link fun x => { x with state := .relock, tries := 0 } else s
  | .relock => s.modLink link fun x => { x with state := .ident, tries := 0 }
  | .ident =>
    if (linkSt s link).peer.isSome then
      let s := setDelay s link delayNs
      s.moveLink link (joinedState s link) fun x => { x with tries := 0 }
    else s
  | .up => if s.rhl.reshapes.isEmpty then s else setDelay s link delayNs
  | .transit => if s.rhl.reshapes.isEmpty then s else setDelay s link delayNs
  | .down => s

/-- TRAIN_STEP_TIMEOUT (R434): retried once, then TRAIN_FAIL. -/
def execTrainStepTimeout (link : Link) (s : State) : Host.Outcome State Fault Refusal :=
  .next <|
    let x := linkSt s link
    if x.state == .loc || x.state == .relock || x.state == .ident then
      if x.tries = 0 then s.modLink link fun x => { x with tries := 1 } else ringReady (s.linkDown link .trainFail)
    else s

/-- LINK_LOCK_LOST (R449, Table 12-5): the link group relocks, through the gate or with its neighbour. -/
def execLinkLockLost (link : Link) (s : State) : Host.Outcome State Fault Refusal :=
  .next <|
    let x := linkSt s link
    if x.state == .ident || x.state == .up || x.state == .transit then
      s.moveLink link .relock fun x => { x with tries := 0, silent := 0, peer := none, peerOk := false, bypassed := false, leases := [] }
    else s

/-! ## Consensus words (R438, R442 to R447) -/

/-- The frame whose low 24 bits a word carries: the first at or after the current one. -/
def frameOfLow (s : State) (low : Nat) : Nat :=
  let f := frameOf s.beat
  let g := f - f % 2 ^ 24 + low
  if g < f then g + 2 ^ 24 else g

/-- The rank that stands for a member not known by name: an announcement relayed in a consensus word (R439, R463). -/
def someRank : Nat := 1024

/-- Learns a pending grade that a consensus word relays, unless one as slow is known for that frame (R439, R463). -/
def learnPending (s : State) (w : CWord) : State :=
  let eff := frameOfLow s w.effFrame
  if w.pendingValid && decide (frameOf w.beat + 1 ≤ eff) && decide (frameOf s.beat < eff) &&
      s.grade.announced.all (fun a => !(a.eff == eff && decide (w.pendingGrade ≤ a.grade))) then
    s.modGrade fun g => { g with announced := g.announced ++ [{ rank := someRank, own := false, grade := w.pendingGrade, eff := eff }] }
  else s

/-- The outcomes of Table 12-4. -/
inductive PeerOutcome where
  | bypass
  | duplicate
  | fenced (c : Code)
  | accept
  deriving DecidableEq, Repr

/-- A minor version the own COMPAT entries accept (R443). -/
def minorOk (s : State) (v : Nat) : Bool :=
  let es := s.str.elim [] fun t => t.compat.filter (·.head.valid)
  es.isEmpty || es.any fun e => decide (e.lo ≤ v) && decide (v ≤ e.hi)

/-- The peer's rank is already admitted (R37): a joiner with the rank of a member or of this package, or a member with the rank of this
joiner. -/
def duplicateRank (s : State) (w : CWord) : Bool :=
  if w.state == 0 then w.rank == ownRank s || s.rhl.members.contains w.rank else w.rank == ownRank s && ownState s != .member

/-- The checks of Table 12-4 that decide whether a peer is accepted. -/
def checkPeer (s : State) (w : CWord) : PeerOutcome :=
  let own := ownWord s 0 none 0
  if !w.rankValid || w.state == 2 then .bypass
  else if duplicateRank s w then .duplicate
  else if w.compatClass != own.compatClass then .fenced .compatMismatch
  else if w.minor != own.minor then (if minorOk s w.minor then .accept else .fenced .compatMismatch)
  else if w.hash8 != own.hash8 then .fenced .hashMismatch
  else .accept

/-- The link group's code after the checks. -/
def peerCode (o : PeerOutcome) : Code := match o with
  | .duplicate => .rankDuplicate
  | .fenced c => c
  | _ => .ok

/-- A joiner that a MEMBER peer refuses: one with the rank of a member goes to TRANSIT on all its link groups (R37, R447), one that
differs in structure on the link group to that peer. -/
def refusedJoiner (s : State) (l : Nat) (w : CWord) (o : PeerOutcome) : State :=
  if s.rhl.state == .joining && w.state == 1 then
    match o with
    | .duplicate =>
      (s.modRhl fun r => { r with link := r.link.map fun x => if x.state = .up then { x with state := .transit } else x }).realignLink
    | .fenced _ => if (linkSt s l).state == .up then s.moveLink l .transit fun x => x else s
    | _ => s
  else s

/-- A peer that changes its STATE is a reshape event (R449); a member that leaves by it leaves the domain. -/
def peerChanged (s : State) (l : Nat) (w : CWord) : State :=
  match (linkSt s l).peer with
  | some old => if old.state != w.state && old.rank == w.rank then
      s.reshapeEvent (some l) [] (if old.state == 1 then [w.rank] else []) else s
  | none => s

/-- This package has a reshape of its own under way that admits a rank. -/
def joiningNow (s : State) (r : Nat) : Bool := s.rhl.reshapes.any fun e => e.rank == ownRank s && e.joins.contains r

/-- A joiner is admitted once every MEMBER peer on its UP link groups accepts it and is accepted (R444), and a marker says what count to
load. -/
def tryJoin (s : State) : State :=
  let ups := (List.range 8).filter fun l => (linkSt s l).state == .up && (linkSt s l).peer.any fun w => w.state == 1 && w.rankValid
  if s.rhl.rank.isSome && ownState s == .joining && !ups.isEmpty && ups.all (fun l => (linkSt s l).peerOk) &&
      !isDuplicate s && s.tmp.marker.isSome && !joiningNow s (ownRank s) then
    s.floodReshape none [ownRank s] []
  else s

/-- A member that hears an accepted MEMBER of another domain merges with it (R446). -/
def tryMerge (s : State) (l : Nat) (w : CWord) : State :=
  if s.rhl.rank.isSome && ownState s == .member && w.state == 1 && w.master != ownMaster s && !joiningNow s w.rank then
    s.floodReshape (some l) (if w.rank = w.master then [w.rank] else [w.rank, w.master]) []
  else s

/-- Row 8 of Table 12-4 on the alignment link group: the member's collectives end with COLL_TIME. -/
def beatApart (s : State) (l : Nat) (w : CWord) : State :=
  if ownState s == .member && alignsOn s l && decide (1 < ((w.beat : Int) - s.beat).natAbs) then s.endColls 0xFF .collTime else s

/-- What an accepted word brings. -/
def acceptedWord (s : State) (l : Nat) (w : CWord) : State :=
  let s := if w.state == 1 && (ownState s != .member || w.master == ownMaster s) then learnPending s w else s
  let s := if (linkSt s l).state == .transit then s.moveLink l (joinedState s l) fun x => x else s
  tryMerge (tryJoin (beatApart s l w)) l w

/-- Acts on a valid consensus word (R442). -/
def consensusWord (s : State) (l : Nat) (w : CWord) (bytes : List Byte) : State :=
  let o := checkPeer s w
  let s := peerChanged s l w
  let s := s.modLink l fun x => { x with peer := some w, peerBytes := bytes, heard := true, silent := 0, peerOk := o == .accept,
                                         bypassed := o == .bypass || (o == .duplicate && w.state == 0), code := peerCode o }
  let s := refusedJoiner s l w o
  if o == .accept then acceptedWord s l w else s

/-! ## Update words (R440, R449, R462) -/

/-- The link group opposite in TRANSIT (R447): XW to XE, YN to YS and back. -/
def opposite (l : Nat) : Nat := if l % 4 < 2 then l + 2 else l - 2

/-- Sends a received word on, unchanged: a member on every other link group, a package in TRANSIT on the opposite one. -/
def forwardWord (s : State) (l : Nat) (bytes : List Byte) : State :=
  s.sendWord bytes fun k => if ownState s == .member then k != l else k == opposite l

/-- The sender of an update word is a MEMBER whose structure the package accepts (Table 12-4), the package being MEMBER itself. -/
def fellowMember (s : State) (w : CWord) : Bool := ownState s == .member && w.state == 1 && checkPeer s w == .accept

/-- A GRADE word of a member of the own domain (R67, R68): its rank is heard in the roll of R666, and its announcement is kept. -/
def gradeWord (s : State) (w : CWord) : State :=
  if fellowMember s w && w.master == ownMaster s then
    let s := (s.addMember w.rank).modRhl fun r => { r with roll := r.roll.map fun e => (e.1, w.rank :: e.2) }
    let eff := frameOfLow s w.effFrame
    if w.pendingValid && decide (frameOf w.beat + 2 ≤ eff) then
      s.modGrade fun g => { g with announced := g.announced ++ [{ rank := w.rank, own := false, grade := w.pendingGrade, eff := eff }] }
    else s
  else s

/-- What a RESHAPE word tells of its sender (R444, R446, R449): a JOINING package joins, one that is FENCED or LEAVING leaves, and a
MEMBER with another master brings its domain. -/
def reshapeWord (s : State) (w : CWord) : State :=
  let merge := fellowMember s w && w.master != ownMaster s
  s.modRhl fun r => { r with reshapes := r.reshapes ++
    [{ d := w.beat, rank := w.rank, link := none, joins := if w.state = 0 then [w.rank] else if merge then [w.rank, w.master] else [],
       leaves := if w.state = 2 ∨ w.state = 3 then [w.rank] else [], aborted := false }] }

/-- Applies an update word of another package: GRADE, RESHAPE or TRIP. -/
def applyUpdate (s : State) (w : CWord) (bytes : List Byte) : State :=
  if w.kind = 1 then gradeWord s w
  else if w.kind = 2 then reshapeWord s w
  else if w.kind = 3 then
    s.modRhl fun r => { r with trips := r.trips ++ [{ beat := w.beat, mask := BitVec.ofNat 8 (fieldAt bytes 0x18 1) }] }
  else s

/-- An update word: applied and forwarded once (R440). -/
def updateWord (s : State) (l : Nat) (w : CWord) (bytes : List Byte) : State :=
  if s.rhl.seen.contains (w.kind, w.rank, w.beat) then s
  else
    let s := s.modRhl fun r => { r with seen := (w.kind, w.rank, w.beat) :: r.seen.filter fun e => decide (s.beat ≤ e.2.2 + 4096) }
    applyUpdate (forwardWord s l bytes) w bytes

/-- A word arrives on a link group: CHECK first (R438), then by its KIND. -/
def wordArrives (s : State) (l : Nat) (bytes : List Byte) : State :=
  if linkLive (linkSt s l).state then
    match parseWord bytes with
    | none => s.modRhl fun r => { r with wordBad := r.wordBad + 1 }
    | some w => if w.kind = 0 then consensusWord s l w bytes else updateWord s l w bytes
  else s

/-- CONSENSUS_WORD_RECEIVE (R438, R442). -/
def execConsensusWordReceive (link : Link) (bytes : List Byte) (s : State) : Host.Outcome State Fault Refusal :=
  .next (wordArrives s link bytes)

/-- UPDATE_WORD_RECEIVE (R440). -/
def execUpdateWordReceive (link : Link) (bytes : List Byte) (s : State) : Host.Outcome State Fault Refusal :=
  .next (wordArrives s link bytes)

/-- CONSENSUS_WORD_TIMEOUT (R438): the third consecutive silent consensus beat takes the link group down. -/
def execConsensusWordTimeout (link : Link) (s : State) : Host.Outcome State Fault Refusal :=
  .next <|
    let x := linkSt s link
    if linkLive x.state && !x.heard then
      if x.silent = 2 then s.linkDown link .linkDown else s.modLink link fun x => { x with silent := x.silent + 1 }
    else s

/-- DOMAIN_OF_ONE (R445): at the consensus beat, which opens a frame (R42). -/
def execDomainOfOne (s : State) : Host.Outcome State Fault Refusal :=
  .next <|
    if s.rhl.rank.isSome && ownState s == .joining && decide (2 ≤ s.rhl.joinBeats) && bInF s.beat == 0 then
      let s := s.modGrade fun g => { g with standing := [], ownStanding := g.now, ownAnnounced := none }
      let s := s.modRhl fun r => { r with state := .member, members := [], joinBeats := 0 }
      (s.addMember (ownRank s)).remasterDue
    else s

/-! ## Abort beats (R450, R462) -/

/-- RESHAPE_ABORT_BEAT (R450). -/
def execReshapeAbortBeat (s : State) : Host.Outcome State Fault Refusal :=
  .next <|
    let due := fun (e : Reshape) => !e.aborted && decide (e.d + 32 ≤ s.beat)
    if s.rhl.reshapes.any due then
      (s.endColls 0xFF .collReshape).modRhl fun r =>
        { r with reshapes := r.reshapes.map fun e => if due e then { e with aborted := true } else e }
    else s

/-- TRIP_WORD_ABORT (R462). -/
def execTripWordAbort (s : State) : Host.Outcome State Fault Refusal :=
  .next <|
    let due := s.rhl.trips.filter fun t => decide (t.beat + 32 ≤ s.beat)
    let s := s.modRhl fun r => { r with trips := r.trips.filter fun t => !decide (t.beat + 32 ≤ s.beat) }
    s.each due fun s t => s.endColls t.mask .collMemberTrip

/-! ## Ring flits (R447, R454) -/

/-- A flit for a collective in flight (R454): used now, kept for a later phase, or stray. -/
def takeRingFlit (s : State) (c : Coll) (y : Bool) (f : RingFlit) : State :=
  match c.phases with
  | [] => s.modRhl fun r => { r with stray := r.stray + 1 }
  | ph :: rest =>
    if inPhase ph y f && decide (f.vals.length ≤ c.left) then (s.collFlit c ph f).advanceColl c.step (c.phases.length + 1)
    else if rest.any fun q => inPhase q y f then s.modColl c.step fun x => { x with early := x.early ++ [(y, f)] }
    else s.modRhl fun r => { r with stray := r.stray + 1 }

/-- RING_FLIT_RECEIVE (R447, R454). -/
def execRingFlitReceive (link : Link) (flit : RingFlit) (s : State) : Host.Outcome State Fault Refusal :=
  .next <|
    match (linkSt s link).state with
    | .transit => match (List.finRange 8).find? fun k => k.val == opposite link with
      | some k => s.emit (.ringFlit k flit)
      | none => s
    | .up =>
      match s.rhl.colls.find? fun c => c.part == flit.part.val && c.planId == flit.planId && c.start == flit.start with
      | some c => takeRingFlit s c (decide (4 ≤ link.val)) flit
      | none => s.modRhl fun r => { r with stray := r.stray + 1 }
    | _ => s

end Sys2Proof.Machine
end

