-- ==== Sys2Proof/Machine/LoaderOps.lean ====
section
/-! DEFINITION. What loads share (03, 14): installing a structure, the end of a wake, and the loader's operations as they read and
check their source. -/

namespace Sys2Proof.Machine

/-! ## Commit (R92, R121, R122, R125, R210, R264, R357, R512, R560) -/

/-- Writes bytes straight into the stacks, with no line cached. -/
def stackWrite (s : State) (a : Nat) (bs : List Byte) : State :=
  s.each (linesOf a bs.length) fun s l =>
    let lo := max a (256 * l)
    let hi := min (a + bs.length) (256 * l + 256)
    let data := List.replicate (lo - 256 * l) (0 : Byte) ++ slice bs (lo - a) (hi - lo) ++ List.replicate (256 * l + 256 - hi) 0
    writeLine s l (maskRange (lo - 256 * l) (hi - lo)) data false 0

/-- A window as a WINDOW entry loads it (Tables 5-4, 5-8): bits [7:0] of the base read 0, of the limit 0xFF. -/
def loadWindow (e : WinEntry) : Window :=
  { base := e.base / 256 * 256, limit := e.limit / 256 * 256 + 255, valid := e.head.valid, prio := e.head.prio, part := e.head.part,
    detoff := e.detoff, cls := e.cls }

/-- The lowest pseudo-channel of a mask as a device address (R560). -/
def lowestChannel (d : PartDesc) : Nat := chanSize * ((List.range 512).find? fun x => d.channelMask.getLsbD x).getD 0

/-- The wake left an owned resource failed (R512). -/
def installBad (s : State) (p : Nat) : Bool :=
  (List.range 64).any (fun k => ownsSheaf s p k && (dieFailed s (k / 16) || vat s.tile.sheafFailed k false)) ||
    (List.range 512).any fun x => ownsChan s p x && chanFailed s x

/-- The state of a partition after a commit (Table 9-6, R512). -/
def commitPart (s : State) (p : Nat) : State :=
  match partDesc s p with
  | none => s.setPartState p .disabled
  | some d =>
    let bad := installBad s p
    let s := s.modPart p fun q => { q with share := BitVec.ofNat 16 d.share, shareNext := none, resFailed := bad }
    let s := if bad then s.partEvent p .partResFailed else s
    s.setPartState p (if bad then .faulted else .active)

/-- RST_LEASE_STATUS for the lowest partition that R512 leaves FAULTED. -/
def leaseBad (s : State) : State :=
  match idx 8 fun p => (partSt s p).resFailed with
  | [] => s
  | p :: _ => s.modRst fun r => { r with lease := { r.lease with code := .partResFailed, kind := 1, index := p } }

/-- A stack under the curve of a new structure (R100, R299): 512 without one, else what its last sample gives from the next slot on. -/
def Stack.withCurve (s : State) (k : Stack) : Stack :=
  if (s.str.bind (·.refresh)).isNone then { k with mult := 512, multNext := none }
  else if k.tempValid then { k with multNext := some (refreshMult s k.temp) }
  else k

/-- Installs a structure: everything that the bit-stream defines takes its value (R121). -/
def install (s : State) (t : Structure) : State :=
  let s := s.capChange fun s => s.modStr fun _ => some t
  let s := s.modGrn fun g => { g with win := Vector.ofFn fun (i : Fin 64) => (t.windows[i.val]?).elim {} loadWindow,
                                      quota := Vector.replicate 8 {}, stage := Vector.replicate 64 {}, armed := [] }
  let crc := crc64 t.dieShare
  let s := s.modFab fun f => { f with die := f.die.map fun d => { d with
    reloads := 0, fixedCrcRef := crc, badShare := none, badWindow := none, badBeat := none } }
  let dieHash := (sha384 (t.dieShare ++ windowImage s)).setWidth 64
  let s := s.modSld fun l => { l with hash := t.hash, dieHash := Vector.replicate 4 dieHash, locked := true, loadCount := l.loadCount + 1 }
  let s := s.modHif fun h => { h with
    fn := h.fn.mapIdx fun i x =>
      if i = 0 then { x with bar2Off := 0 }
      else match t.parts.find? fun d => d.enabled && d.vf == i with
        | some d => { x with bar2Off := BitVec.ofNat 64 (lowestChannel d) }
        | none => x }
  let s := s.modMem fun m => { m with stack := m.stack.map (Stack.withCurve s) }
  let s := s.each t.codes fun s c => stackWrite s c.addr c.image
  leaseBad (s.each (List.range 8) commitPart)

/-! ## The end of a wake (R41, R62, R520) -/

/-- A wake ends: after COLD, PKG and STANDBY the beat count starts in FENCED with the own grade in force. -/
def finishWake (s : State) : State :=
  let fresh := match s.rst.wake with
    | some (.warm _) => false
    | _ => true
  let s := s.modRst fun r => { r with done := true, wake := none, step := 0xFF, warm := none, next := .pkg }
  let s := if fresh then
      let s := s.modTmp fun t => { t with counting := true, beat := 0, reached := 0, again := false, nowTicks := 0, frameStart := 0, mode := .fenced }
      let g := ownGrade s
      s.modGrade fun x => { x with now := g, ownStanding := g }
    else s.modGrade fun x => { x with now := enabledFrom s x.now }
  let s := s.modGrade fun x => { x with clock := x.now }
  settlePower ((s.setVolts s.grade.now).refreshGood)

/-! ## Operations of the loader (R109, R110, R115, R116, R118 to R120, R670, R673) -/

/-- Flash offset of a bit-stream bank (R114), or the host address. -/
def srcBase (s : State) (src : Nat) : Nat := if src = 0 then 0x2000000 else if src = 1 then 0x3000000 else s.sld.srcAddr.toNat

/-- Bytes of the container that the job has read so far. -/
def State.readSource (s : State) (src off len : Nat) : State := s.emit (.loaderRead src (srcBase s src + off) len)

/-- A validation begins with the header of its source. -/
def startJob (s : State) (kind : JobKind) (src : Nat) : State :=
  (s.modSld fun l => { l with busy := true, phase := 1, lastSrc := BitVec.ofNat 2 src,
                              job := some { kind := kind, src := src, stage := .header, held := [], digest := 0, shadow := none } }).readSource
    src 0 256

/-- An operation of the host ends with a code and signals its vector (Table 16-4). -/
def endJob (s : State) (c : Code) (phase : Nat) : State :=
  (s.modSld fun l => { l with busy := false, code := c, phase := phase, job := none }).signal 0 12

/-- The boot load of step 14 starts with the bank that SLD_BOOT names (R115). -/
def bootLoad (s : State) : State :=
  startJob (s.modSld fun l => { l with fallback := false }) (.boot false) (b2n s.sld.bank)

/-- A validation fails (R110, R115, R116, R120). -/
def failJob (s : State) (j : Job) (e : LoadFail) : State :=
  let s := s.modSld fun l => { l with errOff := BitVec.ofNat 32 e.off, errRec := BitVec.ofNat 16 e.record }
  match j.kind with
  | .boot false => startJob (s.modSld fun l => { l with fallback := true, code := e.code, phase := e.step }) (.boot true) (1 - j.src)
  | .boot true => finishWake (s.modSld fun l => { l with busy := false, code := e.code, phase := e.step, job := none })
  | _ => endJob s e.code e.step

/-- A read fails at a step (R670). -/
def ioFail (s : State) (j : Job) (step : Nat) : State := failJob s j { step := step, code := .loadIo, record := headRec, off := 0 }

/-- Step 12 has passed: VALIDATE ends, LOAD commits by a WARM reset, the boot load installs (R118, R119, R115). -/
def passJob (s : State) (j : Job) : State :=
  match j.kind, j.shadow with
  | .load, some _ => warmStart s s.sld.keepMem true 3
  | .boot _, some t => finishWake ((install s t).modSld fun l => { l with busy := false, code := .ok, phase := 0, job := none })
  | _, _ => endJob s .ok 0

/-- The header has been read: steps 1 and 2, then the rest is read (R670). -/
def headerRead (s : State) (j : Job) (data : List Byte) : State :=
  match headStep 2 .hdrBad (headerChecks data (if j.src = 2 then some s.sld.srcLen.toNat else none)) with
  | some e => failJob s j e
  | none =>
    (s.modSld fun l => { l with phase := 3, job := some { j with stage := .body, held := data } }).readSource j.src 256
      (fieldAt data 8 4 - 256)

/-- The whole container has been read: steps 3 to 11, then the source is read again (step 12). -/
def bodyRead (s : State) (j : Job) (data : List Byte) : State :=
  let b := j.held ++ data
  match validate s b with
  | .inr e => failJob s j e
  | .inl t =>
    (s.modSld fun l => { l with phase := 12, job := some { j with stage := .reread, held := [], digest := t.hash, shadow := some t } }).readSource
      j.src 0 (fieldAt b 8 4)

/-- The re-read of step 12: its digest up to the SIGN record, the last 216 bytes. -/
def rereadDone (s : State) (j : Job) (data : List Byte) : State :=
  if signedDigest data (data.length - 216) = j.digest then passJob s j
  else failJob s j { step := 12, code := .loadChanged, record := headRec, off := 0 }

/-! ## Key operations (R104 to R108, R671) -/

/-- The operations of the key fuses. -/
def keyEffect (f : Fuses) (b : List Byte) : Option Fuses :=
  let kop := fieldAt b 4 1
  let slot := fieldAt b 5 1
  let i := slot - 1
  let st := vat f.keyState i .empty
  if kop = 1 then
    if 1 ≤ slot ∧ slot ≤ 4 ∧ st = .empty then
      some { f with keyState := vmodN f.keyState i fun _ => .enrolled, keyHash := vmodN f.keyHash slot fun _ => digestAt b 0x10 }
    else none
  else if kop = 2 then
    if 1 ≤ slot ∧ slot ≤ 4 ∧ st ≠ .revoked then some { f with keyState := vmodN f.keyState i fun _ => .revoked } else none
  else if kop = 3 then
    if slot = 0 ∧ f.rootOff = false ∧ f.keyState.toList.contains .enrolled then some { f with rootOff := true } else none
  else none

/-- The authority of a key operation (R105, R106). -/
def keyAuthorised (f : Fuses) (b : List Byte) : Bool :=
  let auth := fieldAt b 6 1
  let h := sha384 (slice b 0x40 97)
  let named := decide (1 ≤ auth) && decide (auth ≤ 4) && vat f.keyState (auth - 1) .empty == .enrolled && vat f.keyHash auth 0 == h
  let self := auth == 0xFF && fieldAt b 4 1 == 1 && f.keyState.toList.all (· == .empty) && h == digestAt b 0x10
  named || self

/-- The fuses after a key-operation block, none where it is refused (R105 to R107, R671). -/
def keyOperation (f : Fuses) (nonce : W64) (b : List Byte) : Option Fuses :=
  if b.length = 264 ∧ fieldAt b 0 4 = 0x594C4B4F ∧ zeros b 7 1 = true ∧ zeros b 0xA1 7 = true ∧ fieldAt b 8 8 = nonce.toNat ∧
      keyAuthorised f b = true ∧
      ecdsaVerify (slice b 0x40 97) (sha384 (b.take 0xA8)) (beNat (slice b 0xA8 48)) (beNat (slice b 0xD8 48)) = true then
    keyEffect f b
  else none

/-- A key-operation attempt ends (R108, R673): the nonce is replaced whatever the outcome. -/
def closeKeyop (s : State) (f : Option Fuses) : State :=
  let s := match f with
    | some f => s.modFuses fun _ => f
    | none => s.modSld fun l => { l with errOff := 0, errRec := BitVec.ofNat 16 headRec }
  (s.modSld fun l => { l with nonce := freeVal s, busy := false, code := if f.isSome then .ok else .keyopBad, phase := 0, job := none }).drawn

/-- A key-operation attempt ends by itself and signals its vector (Table 16-4). -/
def endKeyop (s : State) (f : Option Fuses) : State := (closeKeyop s f).signal 0 12

/-! ## Starting and ending operations (R127) -/

/-- A write of GO is turned away: BUSY, a reserved OP or SRC, or no wake completed (R127). -/
def rejectGo (s : State) : State := s.modSld fun l => { l with reject := true }

/-- A write of SLD_CTRL with GO (R117 to R119, R127, R671): OP 0 VALIDATE, 1 LOAD, 2 KEYOP. -/
def startSld (s : State) (op src : BitVec 2) (keep : Bool) : State :=
  if s.sld.busy ∨ s.rst.done = false then rejectGo s
  else
    let s := s.modSld fun l => { l with op := op, src := src, keepMem := keep }
    if op = 3 ∨ src = 3 then rejectGo s
    else if op = 2 then
      let s := s.modSld fun l => { l with busy := true, lastSrc := src }
      if src = 2 ∧ s.sld.srcLen.toNat = 264 ∧ s.sld.srcAddr.toNat % 4096 = 0 then
        (s.modSld fun l => { l with job := some { kind := .keyop, src := 2, stage := .keyBlock, held := [], digest := 0, shadow := none } }).readSource
          2 0 264
      else endKeyop s none
    else
      let kind : JobKind := if op = 0 then .validate else .load
      let n := s.sld.srcLen.toNat
      if src = 2 ∧ ¬(s.sld.srcAddr.toNat % 4096 = 0 ∧ 256 ≤ n ∧ n ≤ 2 ^ 28) then
        let s := s.modSld fun l => { l with lastSrc := src }
        ioFail s { kind := kind, src := 2, stage := .header, held := [], digest := 0, shadow := none } 1
      else startJob s kind src.toNat

/-- What a read of the source brings: from a flash bank that Larkspur has written, the image itself (R114, R617). -/
def sourceBytes (s : State) (j : Job) (data : List Byte) : List Byte :=
  match vat s.flash.structImage j.src none with
  | some img =>
    let got := (img.drop (if j.stage = .body then 256 else 0)).take data.length
    got ++ data.drop got.length
  | none => data

/-- A read of the loader's source ends (R670, R671). -/
def sourceRead (s : State) (good : Bool) (data : List Byte) : State :=
  match s.sld.job with
  | none => s
  | some j =>
    let data := sourceBytes s j data
    if s.rst.warm.isSome && j.kind != .keyop then s
    else match j.stage with
    | .header => if good && data.length == 256 then headerRead s j data else ioFail s j 1
    | .body => if good && data.length + 256 == fieldAt j.held 8 4 then bodyRead s j data else ioFail s j 3
    | .reread => if good && decide (216 ≤ data.length) then rereadDone s j data else ioFail s j 12
    | .keyBlock => endKeyop s (if good then keyOperation s.fuses s.sld.nonce data else none)

/-- An operation under way is abandoned (R674, R513 and its corner): CODE reads LOAD_IO; a commit goes on, and a KEYOP too but under an
FLR, which ends it as a read that fails (R108, R671). -/
def abandonJob (s : State) (flr : Bool) : State :=
  match s.sld.job with
  | none => s
  | some j => match j.kind with
    | .boot _ => s
    | .keyop => if flr then closeKeyop s none else s
    | _ => if s.rst.warm = some true then s else s.modSld fun l => { l with busy := false, code := .loadIo, job := none }

/-- SLD_VALIDATE (R117, R118). -/
def execSldValidate (src : BitVec 2) (keepMem : Bool) (s : State) : Host.Outcome State Fault Refusal :=
  .next (hostAccess s 0 fun s => startSld s 0 src keepMem)

/-- SLD_LOAD (R117, R119). -/
def execSldLoad (src : BitVec 2) (keepMem : Bool) (s : State) : Host.Outcome State Fault Refusal :=
  .next (hostAccess s 0 fun s => startSld s 1 src keepMem)

/-- SLD_KEYOP (R117, R671). -/
def execSldKeyop (src : BitVec 2) (keepMem : Bool) (s : State) : Host.Outcome State Fault Refusal :=
  .next (hostAccess s 0 fun s => startSld s 2 src keepMem)

/-- SLD_READ_DONE (R670). -/
def execSldReadDone (good : Bool) (data : List Byte) (s : State) : Host.Outcome State Fault Refusal := .next (sourceRead s good data)

end Sys2Proof.Machine
end

