-- ==== Sys2Proof/Machine/PowerCmds.lean ====
section
/-! DEFINITION. The commands of power, thermal and authority (13): orders of the four sources, PARK, the issue limiter, tile
temperatures, THERMTRIP. -/

namespace Sys2Proof.Machine

/-! ## Orders (R474 to R489) -/

/-- A host cap order (R476, R477): its code, and the state after it. -/
def hostCap (s : State) (w : Nat) : State × Code :=
  if !capOk s w then (s, .capRange)
  else match s.pwr.orders.capRack with
    | some r => if r < w then (s.rackHold false r w, .rackHold) else (s.order fun o => { o with capHost := w }, .ok)
    | none => (s.order fun o => { o with capHost := w }, .ok)

/-- A host state order (R484 to R486). -/
def hostState (s : State) (v : PState) : State × Code :=
  if pnum v < pnum s.pwr.orders.rack then (s.rackHold true (pnum s.pwr.orders.rack) (pnum v), .rackHold)
  else (s.order fun o => { o with host := v }, .ok)

/-- The power state that a field names (Table 13-6). -/
def pstateOf (n : Nat) : PState := match n % 4 with
  | 0 => .run
  | 1 => .park
  | 2 => .standby
  | _ => .off

/-- A write of PWR_CAP_HOST by a function: only the PF writes it (R474, R505). -/
def writeCapHost (s : State) (fn : Nat) (v : Nat) : State := if fn = 0 then (hostCap s (v % 65536)).1 else s

/-- A write of PWR_STATE_HOST by a function (R474, R505). -/
def writeStateHost (s : State) (fn : Nat) (v : Nat) : State := if fn = 0 then (hostState s (pstateOf v)).1 else s

/-- An order over the side-band is answered with a code (R592); no order arrives while AON is off. -/
def sideOrder (s : State) (f : State → State × Code) : State :=
  if s.rst.aon then
    let r := f s
    r.1.emit (.sideband r.2)
  else s

/-- A rack cap order (R475, R476, R478): none withdraws the cap. -/
def rackCap (s : State) (w : Option Nat) : State × Code := match w with
  | none => (s.order fun o => { o with capRack := none }, .ok)
  | some w => if capOk s w then (s.order fun o => { o with capRack := some w }, .ok) else (s, .capRange)

/-- A BOARD cap order (R475, R476, R478). -/
def boardCap (s : State) (w : Nat) : State × Code :=
  if capOk s w then (s.order fun o => { o with capBoard := w }, .ok) else (s, .capRange)

/-- The orders after a rack OFF order with a grace time in seconds (R487); with none it is effective at once. -/
def Orders.rackOff (o : Orders) (seconds : Nat) : Orders :=
  { o with rack := .off, rackBefore := if o.offLeft.isSome then o.rackBefore else o.rack,
           offLeft := if seconds = 0 then none else some (1000 * seconds) }

/-- The orders after any other rack order, which cancels a grace time (R488). -/
def Orders.rackPlain (o : Orders) (v : PState) : Orders := { o with rack := v, rackBefore := .run, offLeft := none }

/-- A rack state order (R485, R487, R488): OFF with its grace, FORCE-OFF, or another state. -/
def rackState (s : State) (v : PState) (grace : Option Nat) (force : Bool) : State × Code :=
  let s := s.modPwr fun p => { p with offBeats := 0 }
  if v = .off ∧ force = false then
    (((s.powerEvent evRackOff).signalPower).order fun o => o.rackOff (grace.getD 10), .ok)
  else (s.order fun o => o.rackPlain v, .ok)

/-- PWR_CAP_HOST_WRITE (R474, R477). -/
def execPwrCapHostWrite (fn : Fn) (value : W32) (s : State) : Host.Outcome State Fault Refusal :=
  .next (hostAccess s fn fun s => writeCapHost s fn value.toNat)

/-- PWR_STATE_HOST_WRITE (R484, R485). -/
def execPwrStateHostWrite (fn : Fn) (value : W32) (s : State) : Host.Outcome State Fault Refusal :=
  .next (hostAccess s fn fun s => writeStateHost s fn value.toNat)

/-- A host order over the side-band: a cap, a state, or both, each answered (R474, R592). -/
def sidebandHost (s : State) (cap : Option Nat) (state : Option PState) : State :=
  let s := match cap with
    | some w => sideOrder s fun s => hostCap s w
    | none => s
  match state with
  | some v => sideOrder s fun s => hostState s v
  | none => s

/-- SIDEBAND_HOST_ORDER (R474). -/
def execSidebandHostOrder (cap : Option Nat) (state : Option PState) (s : State) : Host.Outcome State Fault Refusal :=
  .next (sidebandHost s cap state)

/-- RACK_CAP_ORDER (R475, R478). -/
def execRackCapOrder (watts : Option Nat) (s : State) : Host.Outcome State Fault Refusal := .next (sideOrder s fun s => rackCap s watts)

/-- RACK_STATE_ORDER (R487, R488). -/
def execRackStateOrder (state : PState) (grace : Option Nat) (force : Bool) (s : State) : Host.Outcome State Fault Refusal :=
  .next (sideOrder s fun s => rackState s state grace force)

/-- BOARD_CAP_ORDER (R475). -/
def execBoardCapOrder (watts : Nat) (s : State) : Host.Outcome State Fault Refusal := .next (sideOrder s fun s => boardCap s watts)

/-- BOARD_STATE_ORDER (R486). -/
def execBoardStateOrder (state : PState) (s : State) : Host.Outcome State Fault Refusal :=
  .next (sideOrder s fun s => (s.order fun o => { o with board := state }, .ok))

/-- RACK_OFF_GRACE_EXPIRY (R487, R489): the count has reached 0; while no beat counts, AON counts it itself. -/
def execRackOffGraceExpiry (s : State) : Host.Outcome State Fault Refusal :=
  .next <| match s.pwr.orders.offLeft with
  | some n => if n = 0 ∨ s.tmp.counting = false then s.order fun o => { o with offLeft := none, rackBefore := .run } else s
  | none => s

/-! ## PARK (R490 to R492, R677) -/

/-- PARK_DRAIN_DONE (R490). -/
def execParkDrainDone (s : State) : Host.Outcome State Fault Refusal :=
  .next (if s.pwr.stage = .draining ∧ s.stp.steps.all (fun t => t.phase != .live) = true then (enterPark s).refreshGood else s)

/-- PARK_EXIT_RESUME (R492): at the first frame boundary after 50 ms placement resumes, and the package joins again. -/
def execParkExitResume (s : State) : Host.Outcome State Fault Refusal :=
  .next <|
    if s.pwr.stage = .exiting ∧ 50000 ≤ s.pwr.exitBeats ∧ bInF s.beat = 0 then
      let s := (s.modPwr fun p => { p with stage := .run, exitBeats := 0 }).modRhl fun r =>
        { r with state := if r.state = .leaving then .joining else r.state }
      placeAll (settlePower s)
    else s

/-! ## The issue limiter (R494 to R498) -/

/-- Power and thermal state of a die. -/
def diePwr (s : State) (n : Nat) : DiePwr := vat s.pwr.die n {}

/-- Changes the power state of a die. -/
def State.modDiePwr (s : State) (n : Nat) (f : DiePwr → DiePwr) : State := s.modPwr fun p => { p with die := vmodN p.die n f }

/-- The limiter of a die engages at a step or higher (R494, R497, R501): counted and reported where it was not engaged. -/
def engage (s : State) (n step : Nat) : State :=
  let was := (diePwr s n).limiter
  let s := markLimited (s.modDiePwr n fun d => { d with limiter := max d.limiter step })
  if was = 0 then ((s.modPwr fun p => { p with limitCount := p.limitCount + 1 }).powerEvent evLimiter).event .issueLimitEngaged else s

/-- OVERCURRENT_SENSE (R494). -/
def execOvercurrentSense (die : Die) (s : State) : Host.Outcome State Fault Refusal :=
  .next <|
    if diePowered s die then (engage s die 4).modDiePwr die fun d => { d with sensing := true, clearBeats := 0 } else s

/-- LIMITER_STEP_UP (R495): one step each 2 µs while the sense persists, up to 16. -/
def execLimiterStepUp (die : Die) (s : State) : Host.Outcome State Fault Refusal :=
  .next <|
    let d := diePwr s die
    if d.sensing ∧ 0 < d.limiter ∧ d.limiter < 16 then s.modDiePwr die fun d => { d with limiter := d.limiter + 1 } else s

/-- LIMITER_STEP_DOWN (R495, R501): after 64 clear beats, then one step every 16; not below step 8 while CRIT is set. -/
def execLimiterStepDown (die : Die) (s : State) : Host.Outcome State Fault Refusal :=
  .next <|
    let d := diePwr s die
    if !d.sensing ∧ 64 ≤ d.clearBeats ∧ (if d.crit then 8 else 0) < d.limiter then
      s.modDiePwr die fun d => { d with limiter := d.limiter - 1, clearBeats := 48 }
    else s

/-! ## Tile temperature (R499 to R503) -/

/-- The sample of one die (R499 to R501): its hottest tile, WARN and CRIT at their first sample, CRIT clear below 105 °C. -/
def sampleDie (s : State) (n : Nat) (t : Int) : State :=
  let d := diePwr s n
  let s := s.modDiePwr n fun d => { d with temp := t, tempMax := max d.tempMax t, warn := d.warn || decide (100 ≤ t),
                                           crit := decide (110 ≤ t) || (d.crit && decide (105 ≤ t)) }
  let s := if 100 ≤ t ∧ d.warn = false then (s.event .tileWarn).powerEvent evTileWarn else s
  if 110 ≤ t ∧ d.crit = false then engage ((s.event .tileCrit).powerEvent evTileCrit) n 8 else s

/-- The package's tile reasons after a sample with this hottest tile (Table 13-4). -/
def tileReasons (p : Power) (hot : Int) (f slower : Nat) : Power :=
  let p := { p with tileHotSince := if 95 ≤ hot then some (p.tileHotSince.getD f) else none,
                    tileCoolSince := if 95 ≤ hot then some (f + 1) else p.tileCoolSince,
                    tileCrit := p.die.toList.any (·.crit) }
  if 100 ≤ hot ∧ p.tileGrade.isNone then { p with tileGrade := some slower, tileDropEff := f + 3 } else p

/-- The hottest of some sensors. -/
def hottestTile (ts : List Int) : Option Int := match ts with
  | [] => none
  | t :: rest => some (rest.foldl max t)

/-- A sample of the tiles of every powered die (R499): each die's hottest. -/
def sampleTiles (s : State) (ts : List (List Int)) : State :=
  let live := (ts.zipIdx.filterMap fun e => (hottestTile e.1).map fun t => (t, e.2)).filter fun e => diePowered s e.2
  match live.map (·.1) with
  | [] => s
  | t :: rest =>
    let hot := rest.foldl max t
    s.capChange fun s =>
      let s := s.each live fun s e => sampleDie s e.2 e.1
      s.modPwr fun p => tileReasons p hot s.tmp.frames (oneSlower s s.grade.now)

/-- Four beats have passed since the last sample (R499). -/
def tilesDue (s : State) : Bool := s.pwr.tileSampledAt.all fun b => decide (b + 4 ≤ s.tmp.elapsed)

/-- TILE_TEMP_SAMPLE (R499). -/
def execTileTempSample (t0 t1 t2 t3 : List Int) (s : State) : Host.Outcome State Fault Refusal :=
  .next (if tilesDue s then sampleTiles (s.modPwr fun p => { p with tileSampledAt := some s.tmp.elapsed }) [t0, t1, t2, t3] else s)

/-- The 120 °C comparator fires (R502, R503): it latches, and every rail but AON goes. -/
def thermtripNow (s : State) : State :=
  if !s.rst.aon || s.rst.thermtrip || !((List.range 4).any fun n => diePowered s n) then s
  else
    let s := s.modRst fun r => { r with thermtrip := true, cause := { r.cause with code := .thermtrip } }
    (railsLost s false).refreshGood

/-- THERMTRIP (R502). -/
def execThermtrip (s : State) : Host.Outcome State Fault Refusal := .next (thermtripNow s)

end Sys2Proof.Machine
end

