-- ==== Sys2Proof/Machine/ResetCmds.lean ====
section
/-! DEFINITION. The commands of reset, wake and recovery (14), and the rail faults of 18: COLD and PKG resets, the wake steps, WARM, DIE
and function-level resets, the hub watchdog. -/

namespace Sys2Proof.Machine

/-! ## COLD and PKG resets (R507, R634, R648 to R650) -/

/-- The reset registers when AON itself goes or comes (column COLD of Table 14-4): the pins are what outside drives. -/
def aonReset (r : Reset) (on : Bool) : Reset := { aon := on, resetN := r.resetN, perst := r.perst }

/-- AON has come into tolerance: a COLD reset begins (R634). -/
def coldReset (s : State) : State :=
  if s.rst.aon then s else (railsLost s true).modRst fun _ => aonReset s.rst true

/-- AON falls (R634): every VR_EN falls at once. -/
def aonLoss (s : State) : State :=
  if s.rst.aon then (railsLost s true).modRst fun _ => aonReset s.rst false else s

/-- COLD_RESET (R634). -/
def execColdReset (s : State) : Host.Outcome State Fault Refusal := .next (coldReset s)

/-- AON_POWER_LOSS (R634). -/
def execAonPowerLoss (s : State) : Host.Outcome State Fault Refusal := .next (aonLoss s)

/-- RESET_N and PERST# act (R650). -/
def pinsLive (s : State) : Bool := s.rst.aon && !s.rst.lockout && !s.rst.thermtrip

/-- RESET_N or PERST# is asserted long enough (R507): every rail but AON goes, and RST_CAUSE names the reset. -/
def pkgResetNow (s : State) (perst : Bool) : State :=
  let r := s.rst
  let s := (railsLost s false).modRst fun q =>
    { q with resetN := r.resetN && perst, perst := r.perst && !perst, done := false, step := 0, next := .pkg, railFault := r.railFault,
             tries := if r.wake.isSome then min r.tries 1 else r.tries }
  s.setCause (if r.wdtExpired then .hubHang else .ok) 1 (if perst then 2 else 1) 0

/-- A low on a reset pin (R648): ignored when short, a reset when long, in between either of the two (log 2). -/
def pkgReset (s : State) (perst : Bool) (lowNs : Nat) : State :=
  if !pinsLive s || !(if perst then s.rst.perst else s.rst.resetN) || decide (lowNs < 500) then s
  else if 10000 ≤ lowNs then pkgResetNow s perst
  else if Config.freeBool s.free then pkgResetNow s.drawn perst else s.drawn

/-- PKG_RESET (R507, R648). -/
def execPkgReset (perst : Bool) (lowNs : Nat) (s : State) : Host.Outcome State Fault Refusal := .next (pkgReset s perst lowNs)

/-- Both pins are released (R507, R650): PKG_FAULT_N is released as Table 18-5 states, and the wake begins. -/
def releaseReset (s : State) : State :=
  if !pinsLive s || (s.rst.resetN && s.rst.perst) then s
  else
    let s := if s.rst.next = .cold then (s.modSld fun l => { l with nonce := freeVal s }).drawn else s
    let s := s.modRst fun r => { r with resetN := true, perst := true, faultN := true, wdtExpired := false, railFault := false }
    beginWake s s.rst.next 1

/-- RESET_RELEASE (R650). -/
def execResetRelease (s : State) : Host.Outcome State Fault Refusal := .next (releaseReset s)

/-! ## Stage 2 (R133, R236, R515, R544) -/

/-- The physical tile of a sheaf with the highest ageing count, the lowest index breaking a tie (R544). -/
def oldestTile (s : State) (sh : Nat) : Nat :=
  (List.range 17).foldl (fun b j => if mget 0 s.gln.age (17 * sh + b) < mget 0 s.gln.age (17 * sh + j) then j else b) 0

/-- The tile test of a sheaf, and the rotation of its spare (R133, R544). -/
def testSheaf (s : State) (sh : Nat) (fails : List Nat) : State :=
  let set := fun (spare failed : Nat) (bad : Bool) => s.modTile fun t =>
    { t with spare := vmodN t.spare sh fun _ => spare, failedTile := vmodN t.failedTile sh fun _ => failed,
             sheafFailed := vmodN t.sheafFailed sh fun _ => bad }
  match fails with
  | [] => set (oldestTile s sh) 0x1F false
  | j :: js => let k := js.foldl min j
    set k k (fails.any fun i => i != j)

/-- The wake tests the tiles: at COLD and WARM only (step 12). -/
def testsTiles (k : WakeKind) : Bool := match k with
  | .cold => true
  | .warm _ => true
  | _ => false

/-- Step 12 of a die: stack training, seam test, tile test and spare rotation. Failed marks are kept and new ones added (R512). -/
def testDie (s : State) (k : WakeKind) (n : Nat) (t : DieTests) : State :=
  let seamBad := decide (48 < t.seamEW) || decide (48 < t.seamWE)
  let s := s.modFabDie n fun d => { d with seamEW := t.seamEW, seamWE := t.seamWE }
  let trained := fun (bad : Bool) (ch : BitVec 64) (res : List (Nat × Nat)) (x : Stack) =>
    let f := x.failed || bad
    { x with failed := f, trained := !f, chFail := x.chFail ||| ch, selfRefresh := x.selfRefresh && x.tripped,
             hppr := res.foldl (fun m e => mset 0 m e.1 e.2) [] }
  let s := (s.modStack (2 * n) (trained t.stackFail0 t.chFail0 t.hppr0)).modStack (2 * n + 1) (trained t.stackFail1 t.chFail1 t.hppr1)
  let s := if testsTiles k then
      s.each (List.range 16) fun s i => testSheaf s (16 * n + i) ((t.tileFails.filter fun e => e.1.val == i).map fun e => e.2.val)
    else s
  let s := s.modDie n fun d => { d with step := 13, failed := d.failed || seamBad }
  settleStage2 (if seamBad then (failStacks (stepFailed s 12 ((dieWake s n).tries + 1) n) n).event .dieFailed else s)

/-- The condition that a die's step waits for is met. -/
def dieStepDone (s : State) (k : WakeKind) (n : Nat) (info : WakeInfo) : State :=
  let d := dieWake s n
  if d.failed || d.waiting then s
  else if d.step = 9 then
    seqResume s n
  else if d.step = 10 then
    let s := s.modDie n fun d => { d with step := 11 }
    if pgEarly s (stackRails n) then stageTwoFail s n else settleStage2 (s.railsOn (stackRails n))
  else if d.step = 11 then settleStage2 ((s.modDie n fun d => { d with step := 12 }).powerGood (stackRails n))
  else match d.step, info with
    | 12, .tests t => testDie s k n t
    | _, _ => s

/-! ## Stage 3 (R292 to R295, R545) -/

/-- The first remap entry of each bank in the order of creation: the ones hPPR is tried on (R293). -/
def hpprEntries (rs : List Remap) : List Remap :=
  rs.foldl (fun (acc : List Remap) e => if acc.any fun q => q.x == e.x && q.bank == e.bank then acc else acc ++ [e]) []

/-- Stack contents are not kept, so hPPR is applied (R293, R295). -/
def appliesHppr (k : WakeKind) : Bool := match k with
  | .warm keep => !keep
  | _ => true

/-- hPPR resources left in the bank of an entry (R294). -/
def hpprLeft (s : State) (e : Remap) : Nat := mget 0 (stackSt s (e.x / 64)).hppr (64 * (e.x % 64) + e.bank)

/-- A repair uses a resource of the entry's bank (R294). -/
def useHppr (s : State) (e : Remap) : State :=
  s.modStack (e.x / 64) fun k => { k with hppr := mset 0 k.hppr (64 * (e.x % 64) + e.bank) (hpprLeft s e - 1) }

/-- Step 13 (R292 to R295): the remap tables come from the repair log, but for a WARM reset that keeps the contents; hPPR is tried in
banks that have a resource left, and the entries whose repair succeeded go. -/
def repairStacks (s : State) (k : WakeKind) (done : List Nat) : State :=
  let s := if appliesHppr k then s.modMem fun m => { m with remap := s.flash.repairLog } else s
  let gone := if appliesHppr k then (hpprEntries s.mem.remap).filter fun e => decide (0 < hpprLeft s e) && done.contains e.order else []
  let keep := fun (e : Remap) => gone.all fun g => g.order != e.order
  let s := (s.each gone useHppr).modMem fun m =>
    { m with remap := m.remap.filter keep,
             stack := m.stack.mapIdx fun t x => { x with pprLast := (gone.filter fun e => e.x / 64 == t).length } }
  s.modFlash fun f => { f with repairLog := f.repairLog.filter keep }

/-- Step 14 begins (R115, R508). -/
def startStep14 (s : State) (k : WakeKind) : State :=
  let s := s.modRst fun r => { r with step := 14 }
  match k with
  | .warm _ => s
  | _ => bootLoad s

/-- The ageing counts that the wake loads (R545). -/
def loadWear (s : State) : State :=
  s.modGln fun g => { g with age := if s.flash.wearUnreadable then [] else s.flash.wearLog, wearBad := s.flash.wearUnreadable }

/-- The structure that a WARM reset installs is in place (R119, R508, R512). -/
def warmInstall (s : State) : State :=
  match s.rst.warm, s.sld.job with
  | some true, some j => match j.shadow with
    | some t => finishWake (endJob (install s t) .ok 0)
    | none => finishWake s
  | _, _ => match s.str with
    | some t => finishWake (install s t)
    | none => finishWake s

/-! ## Wake steps (R515 to R517) -/

/-- The condition a stage 1 step waits for is met (R515, R616). -/
def hubStepDone (s : State) (info : WakeInfo) : State :=
  let next := fun (s : State) =>
    let k := s.rst.step + 1
    let s := s.powerGood (hubRails s.rst.step)
    if k = 9 then startStage2 s else hubStep s k
  match s.rst.step, info with
  | 6, .firmware b => next (loadWear (s.modRst fun r => { r with fwBank := b }))
  | 6, _ => s
  | _, _ => next s

/-- The condition that a wake step waits for is met. -/
def wakeDone (s : State) (n : Nat) (info : WakeInfo) : State :=
  match s.rst.wake with
  | none => s
  | some k =>
    if s.rst.retryWait then s
    else if s.rst.step ≤ 8 then hubStepDone s info
    else if s.rst.step ≤ 12 then dieStepDone s k n info
    else if s.rst.step = 13 then
      match info with
      | .repaired es => startStep14 (repairStacks s k es) k
      | _ => s
    else match k with
      | .warm _ => warmInstall s
      | _ => s

/-- WAKE_STEP_DONE (R515). -/
def execWakeStepDone (die : Die) (info : WakeInfo) (s : State) : Host.Outcome State Fault Refusal := .next (wakeDone s die info)

/-- A die's step exceeds its limit: a retry, or at step 12 both stacks fail (Table 14-3). -/
def dieTimeout (s : State) (n : Nat) : State :=
  let d := dieWake s n
  if d.failed || d.waiting || decide (13 ≤ d.step) then s
  else if d.step = 12 then settleStage2 (failStacks (stepFailed (s.modDie n fun d => { d with step := 13 }) 12 (d.tries + 1) n) n)
  else stageTwoFail s n

/-- A wake step exceeds its limit (R515): step 14 has none of its own. -/
def wakeTimeout (s : State) (n : Nat) : State :=
  match s.rst.wake with
  | none => s
  | some k =>
    if s.rst.retryWait then s
    else if s.rst.step ≤ 8 then stageOneFail s
    else if s.rst.step ≤ 12 then dieTimeout s n
    else if s.rst.step = 13 then startStep14 (repairStacks (stepFailed s 13 1 0) k []) k
    else s

/-- WAKE_STEP_TIMEOUT (R515 to R518). -/
def execWakeStepTimeout (die : Die) (s : State) : Host.Outcome State Fault Refusal := .next (wakeTimeout s die)

/-- The 20 ms are over: stage 1 restarts at step 1, or stage 2 of the die (R516, R517). -/
def wakeRetry (s : State) (n : Nat) : State :=
  if s.rst.wake.isNone then s
  else if s.rst.retryWait then s.modRst fun r => { r with retryWait := false, step := 1 }
  else if (dieWake s n).waiting then startDie s n else s

/-- WAKE_RETRY_RESTART (R516, R517). -/
def execWakeRetryRestart (die : Die) (s : State) : Host.Outcome State Fault Refusal := .next (wakeRetry s die)

/-! ## Rail faults (R639 to R642) -/

/-- The wake step of a HUB, HOSTPHY or RINGPHY rail. -/
def railStep (d : Nat) : Nat := if d < 34 then 2 else if d < 36 then 3 else 4

/-- The die of a rail, its stack rails included; none for the hub's own rails (Table 18-3). -/
def railDie (d : Nat) : Option Nat := if d < 32 then some (d / 8) else if 40 ≤ d ∧ d < 52 then some ((d - 40) / 3) else none

/-- A rail fault on a die after the wake (R642). -/
def dieRailFault (s : State) (n : Nat) : State :=
  let off := fun (s : State) => (dieRailsOff (s.modDie n fun d => { d with powered := false }) n).railsOff (stackRails n)
  if (dieWake s n).failed then off s
  else
    let s := failStacks (s.modDie n fun d => { d with failed := true, powered := false }) n
    off ((dieDown (sliceLeaves s n) n .railFault).event .railFault)

/-- A rail fault on a HUB, HOSTPHY or RINGPHY rail after the wake (R641). -/
def hubRailFault (s : State) (d : Nat) : State :=
  (railsLost s false).modRst fun r =>
    { r with faultN := false, railFault := true, failedStep := railStep d, done := false, step := 0, next := .pkg }

/-- A complete rail fault (R640 to R642). -/
def railFaultNow (s : State) (d : Nat) : State :=
  if s.rst.done then
    match railDie d with
    | some n => dieRailFault s n
    | none => hubRailFault s d
  else if s.rst.wake.isNone then s
  else match railDie d with
    | some n => if (dieWake s n).failed || (dieWake s n).waiting then s else stageTwoFail s n
    | none => stageOneFail s

/-- A rail index of Table 18-3 (R630). -/
def railExists (d : Nat) : Bool := decide (d < 38) || (decide (40 ≤ d) && decide (d < 52))

/-- A rail is in service: raised, and its power-good has come (R638). -/
def inService (s : State) (d : Nat) : Bool := s.rst.aon && railExists d && s.rst.vrEn.getLsbD d && s.rst.vrPg.getLsbD d

/-- A low of VR_PG of a rail in service (R639). -/
def railFault (s : State) (d lowNs : Nat) : State :=
  if !inService s d || decide (lowNs < 1800) then s
  else if 2200 ≤ lowNs then railFaultNow s d
  else if Config.freeBool s.free then railFaultNow s.drawn d else s.drawn

/-- The level of VR_PG of a rail whose VR_EN is low (R637). -/
def pgLevel (s : State) (d : Nat) (high : Bool) : State :=
  if s.rst.vrEn.getLsbD d || !railExists d then s
  else s.modRst fun r => { r with vrPg := if high then r.vrPg ||| enBits [d] else r.vrPg &&& ~~~enBits [d] }

/-- RAIL_FAULT (R637, R639 to R642): a low of VR_PG, or its level while VR_EN is low. -/
def execRailFault (d : Fin 64) (pg : PgChange) (s : State) : Host.Outcome State Fault Refusal :=
  .next (match pg with
    | .low ns => railFault s d ns
    | .level high => pgLevel s d high)

/-! ## WARM and DIE resets of the host, and hangs (R508, R509, R526, R527, R530) -/

/-- A write of RST_CTRL (R508, R509, R530): only the PF. -/
def writeRstCtrl (s : State) (fn : Nat) (v : Nat) : State :=
  let n := bitsOf v 25 24
  if fn ≠ 0 ∨ (s.rst.done = false ∧ s.rst.warm = none) then s
  else if bitOf v 31 then
    if bitOf v 29 ∨ s.rst.warm.isSome then s else warmStart (abandonJob s false) (bitOf v 30) false 4
  else if bitOf v 29 then
    if dieFailed s n || (fabDie s n).reloading || !diePowered s n then s else dieReset s n .ok 4
  else s

/-- RST_CTRL_WARM (R508, R530): a write of RST_CTRL with WARM. -/
def execRstCtrlWarm (fn : Fn) (value : W32) (s : State) : Host.Outcome State Fault Refusal :=
  .next (hostAccess s fn fun s => writeRstCtrl s fn value.toNat)

/-- RST_CTRL_DIE (R509, R530): a write of RST_CTRL with DIE. -/
def execRstCtrlDie (fn : Fn) (value : W32) (s : State) : Host.Outcome State Fault Refusal :=
  .next (hostAccess s fn fun s => writeRstCtrl s fn value.toNat)

/-- DIE_HANG_TIMEOUT (R526). -/
def execDieHangTimeout (die : Die) (s : State) : Host.Outcome State Fault Refusal :=
  .next (if s.rst.done && diePowered s die && !dieFailed s die && !(fabDie s die).reloading then dieReload s die .dieHang 8 else s)

/-- HUB_WATCHDOG_KICK (R527): the watchdog's time starts anew; the time itself is the environment's, so no state changes (log 24). -/
def execHubWatchdogKick (s : State) : Host.Outcome State Fault Refusal := .next s

/-- The watchdog has run out (R527, Table 16-5). -/
def watchdogOut (s : State) : State :=
  if s.rst.aon && s.rst.vrEn != 0 && !s.rst.wdtExpired then
    let s := (s.modRst fun r => { r with wdtExpired := true, faultN := false }).refreshGood
    if s.hif.linkUp then s.emit (.aer 0 .internalError) else s
  else s

/-- HUB_WATCHDOG_EXPIRY (R527). -/
def execHubWatchdogExpiry (s : State) : Host.Outcome State Fault Refusal := .next (watchdogOut s)

/-! ## Function-level reset (R513, R556, R557, R577, R578) -/

/-- Partitions that a function serves. -/
def servedParts (s : State) (fn : Nat) : List Nat := idx 8 fun p => (partDesc s p).isSome && servingFn s p == fn

/-- Upstream requests of a function are abandoned (R577); a Trellis fill that waits for one ends as Table 16-3 has it. -/
def abandonUpstream (s : State) (fn : Nat) : State :=
  let mine := (s.hif.upstream.filter fun u => u.fn == fn && !u.abandoned).map (·.src) ++ (s.hif.upWait.filter fun u => u.fn == fn).map (·.src)
  let s := s.each mine fun s src => match src with
    | .trellis n => failFill s n
    | _ => s
  s.abandonUp fun f _ => f == fn

/-- The registers of a function at their reset values (R513, R551, Table 14-4 column FLR). -/
def resetFnRegs (s : State) (fn : Nat) : State :=
  let s := s.modSrv fun x => { x with fn := vmodN x.fn fn fun _ => {}, goWait := x.goWait.filter fun e => e.1 != fn }
  let clear := fun (x : TSlot) => if x.ownerValid && servingFn s x.owner == fn then { x with pushAddr := 0, pushStamp := 0 } else x
  let s := s.modTrl fun t => { t with slot := t.slot.map clear }
  let s := s.modTel fun t => { t with fn := vmodN t.fn fn fun x => { dropped := x.dropped } }
  let s := s.modTmp fun t => { t with latch := vmodN t.latch fn fun _ => none }
  s.modHif fun h => { h with fn := vmodN h.fn fn (fun _ => { bar2Log2 := if fn = 0 then 6 else 2 }),
                             msix := mdrop h.msix (65536 * fn) (65536 * (fn + 1)),
                             bar2Reads := h.bar2Reads.filter fun r => r.fn != fn }

/-- An FLR of a function (R513, R577). -/
def flr (s : State) (fn : Nat) : State :=
  if fnEnabled s fn then
    let s := abandonUpstream s fn
    let s := s.each (servedParts s fn) fun s p => partReset s p 6
    let s := s.abortDma fun e => dmaOwner s e == fn
    let s := if fn = 0 then abandonJob s true else s
    (resetFnRegs s fn).setCause .ok 5 6 fn
  else s

/-- FUNCTION_LEVEL_RESET (R513): the host port answers it after wake step 7. -/
def execFunctionLevelReset (fn : Fn) (s : State) : Host.Outcome State Fault Refusal :=
  .next (if s.hif.linkUp then flr s fn else s)

end Sys2Proof.Machine
end

