-- ==== Sys2Proof/Machine/BackgroundCmds.lean ====
section
/-! DEFINITION. The commands of background work (15): the two patrols, PHY retraining, telemetry records. -/

namespace Sys2Proof.Machine

/-! ## Stack patrol (R533 to R536) -/

/-- Lines of a pseudo-channel (R533). -/
def patrolLines : Nat := 3139584

/-- The Gleaner patrols a pseudo-channel: in service, not tripped, not in PARK (R533, R536). -/
def patrols (s : State) (x : Nat) : Bool :=
  !chanFailed s x && !stackTripped s (x / 64) && !s.pwr.diesDown && (stackSt s (x / 64)).trained && s.tmp.counting

/-- Writes the poison syndrome into the bursts of a line that the patrol found uncorrectable (R534). -/
def patrolPoison (s : State) (line : Nat) (found : List Burst) : State :=
  let places := writePlaces s (lineAddr line)
  s.modMem fun m => places.foldl (fun m k => (List.range 8).foldl (fun m b =>
    if found[b]? == some Burst.uncorrectable then m.setPoison (k + 32 * b) true else m) m) m

/-- The cursor of a stack moves on once every pseudo-channel it patrols has been visited; at the end of the pseudo-channel the pass is
complete. -/
def patrolAdvance (s : State) (t : Nat) : State :=
  if (List.range 64).all fun c => !patrols s (64 * t + c) || s.gln.visited.contains (64 * t + c) then
    let c := vat s.gln.cursor t 0 + 1
    s.modGln fun g => { g with visited := g.visited.filter (fun x => x / 64 != t),
                               cursor := vmodN g.cursor t fun _ => c % patrolLines,
                               stackPass := if c = patrolLines then g.stackPass + 1 else g.stackPass }
  else s

/-- The patrol of a stack has come to its line: all pseudo-channels visit it then, 16,384 beats after the line before (R533). -/
def lineDue (s : State) (t : Nat) : Bool :=
  s.gln.visited.any (fun x => x / 64 == t) || (vat s.gln.lineAt t none).all fun b => decide (b + 16384 ≤ s.tmp.elapsed)

/-- The patrol of the next line of a pseudo-channel (R533, R534). -/
def patrolVisit (s : State) (x : Nat) (found : List Burst) : State :=
  let s := if patrols s x then patrolAdvance s (x / 64) else s
  if patrols s x && !s.gln.visited.contains x && lineDue s (x / 64) then
    let s := if s.gln.visited.any fun y => y / 64 == x / 64 then s
      else s.modGln fun g => { g with lineAt := vmodN g.lineAt (x / 64) fun _ => some s.tmp.elapsed }
    let line := (chanSize * x) / 256 + vat s.gln.cursor (x / 64) 0
    let s := patrolPoison (eccCount s line found) line found
    let s := s.modGln fun g => { g with visited := g.visited ++ [x],
                                        patrolFix := if found.contains .corrected then g.patrolFix + 1 else g.patrolFix }
    patrolAdvance s (x / 64)
  else s

/-- STACK_PATROL (R533). -/
def execStackPatrol (x : Fin 512) (bursts : List Burst) (s : State) : Host.Outcome State Fault Refusal := .next (patrolVisit s x bursts)

/-! ## Granary patrol (R537 to R539) -/

/-- The patrol of one line of a set. -/
def patrolLine (finds : List (Nat × GrEcc)) (s : State) (l : GLine) : State :=
  let e := ((finds.find? fun f => f.1 == l.line).map (·.2)).getD .clean
  let s := countGr s e
  if e = .double then lineError s l else s

/-- The patrol of a slice has come to its set: 8,192 beats after the set before (R537). -/
def setDue (s : State) (n : Nat) : Bool := (sliceSt s n).patrolAt.all fun b => decide (b + 8192 ≤ s.tmp.elapsed)

/-- The next set of a slice (R537): it pauses while the slice is powered down (R539). -/
def patrolSetNow (s : State) (n : Nat) (finds : List (Nat × GrEcc)) : State :=
  if !sliceOut s n && s.tmp.counting && setDue s n then
    let k := (sliceSt s n).patrolSet
    let ls := s.grn.lines.filter fun l => (homeSlice (lineAddr l.line)).val == n && setIndex (lineAddr l.line) == k
    let s := s.each ls (patrolLine finds)
    let s := s.modSlice n fun x => { x with patrolSet := (k + 1) % 65536, patrolAt := some s.tmp.elapsed }
    if k = 65535 then s.modGln fun g => { g with grPass := g.grPass + 1 } else s
  else s

/-- GRANARY_PATROL (R537). -/
def execGranaryPatrol (slice : Die) (finds : List (Nat × GrEcc)) (s : State) : Host.Outcome State Fault Refusal :=
  .next (patrolSetNow s slice finds)

/-! ## Calibration (R540, R541) -/

/-- Stacks take refresh commands, so their PHYs can be retrained. -/
def retrains (s : State) : Bool := s.tmp.counting && !s.pwr.diesDown && (List.range 8).any (refreshed s)

/-- PHY_RETRAIN_PASS (R540): at a beat whose number is a multiple of 1,000,000. -/
def execPhyRetrainPass (s : State) : Host.Outcome State Fault Refusal :=
  .next (if retrains s && s.beat % 1000000 == 0 then startRetrain s else s)

/-- PHY_DRIFT_CHECK (R541): past the margin, a pass starts in the next refresh slots. -/
def execPhyDriftCheck (exceeds : Bool) (s : State) : Host.Outcome State Fault Refusal :=
  .next (if retrains s && exceeds && !s.gln.retrainActive then startRetrain s else s)

/-! ## Telemetry (R546 to R550) -/

/-- The number of a tempo state (Table 2-6). -/
def modeNum (m : TempoMode) : Nat := match m with
  | .locked => 0
  | .holdover => 1
  | .fenced => 2

/-- The first four codes of some events, OK where there are none. -/
def firstEvents (es : List Code) : List Code := (List.range 4).map fun i => (es[i]?).getD .ok

/-- The largest of some temperatures. -/
def hottest (ts : List Int) : Int := match ts with
  | [] => 0
  | t :: r => r.foldl max t

/-- The package record of the last frame (Table 15-3). -/
def pkgRecord (s : State) (watts : Nat) : TelRecord :=
  let f := s.tel.last
  let ps := f.part.toList
  { kind := 0, part := 0xFF, events := min 255 f.events.length, phase := false, mode := modeNum s.tmp.mode, grade := f.grade,
    frame := f.frame, event := firstEvents f.events, charge := sumN (ps.map (·.charge)), steps := sumN (ps.map (·.steps)),
    slips := sumN (ps.map (·.slips)), dlMiss := f.dlMiss, held := f.held, powerW := watts,
    tileC := hottest ((idx 4 (diePowered s)).map fun n => (diePwr s n).temp),
    stackC := hottest ((idx 8 fun t => (stackSt s t).tempValid).map fun t => (stackSt s t).temp) }

/-- The record of a partition. -/
def partRecord (s : State) (p : Nat) : TelRecord :=
  let q := vat s.tel.last.part p {}
  { kind := 1, part := p, events := min 255 q.events.length, phase := false, mode := modeNum s.tmp.mode, grade := s.tel.last.grade,
    frame := s.tel.last.frame, event := firstEvents q.events, charge := q.charge, steps := q.steps, slips := q.slips,
    dlMiss := q.dlMiss, held := q.held, powerW := 0, tileC := 0, stackC := 0 }

/-- The telemetry ring of a function. -/
def telFn (s : State) (fn : Nat) : TelFn := vat s.tel.fn fn {}

/-- Writes a record into the ring of a function (R548 to R550): discarded where no record is free, lost where the link is down. -/
def putRecord (s : State) (fn : Nat) (r : TelRecord) : State :=
  let t := telFn s fn
  let n := ringSize t.size
  let drop := fun (s : State) => s.modTel fun x => { x with fn := vmodN x.fn fn fun y => { y with dropped := y.dropped + 1 } }
  if !t.enable then s
  else if (t.tail + n - t.head % n) % n + 1 = n then drop s
  else
    let fire := t.irqEvery.toNat != 0 && decide (t.irqEvery.toNat ≤ t.since + 1)
    let s := if s.hif.linkUp then s.emit (.telemetry fn (t.base.toNat + 64 * t.tail) { r with phase := t.phase }) else drop s
    let s := s.modTel fun x => { x with fn := vmodN x.fn fn fun y =>
                                   { y with tail := (y.tail + 1) % n, phase := if y.tail + 1 = n then !y.phase else y.phase,
                                            since := if fire then 0 else y.since + 1 } }
    if fire then s.signal fn (if fn = 0 then 9 else 2) else s

/-- The records that a function's ring receives (R548). -/
def ringRecords (s : State) (fn watts : Nat) : List TelRecord :=
  let parts := idx 8 fun p => (partDesc s p).isSome && (servingFn s p == fn || (fn == 0 && (telFn s 0).all))
  (if fn = 0 then [pkgRecord s watts] else []) ++ parts.map (partRecord s)

/-- The records of the last frame are written (R546), and the frame-average power is shown (Table 13-6). -/
def writeTelemetry (s : State) (watts : Nat) : State :=
  if s.tel.due && s.tmp.counting then
    let s := s.modPwr fun p => { p with measuredLast := BitVec.ofNat 16 watts,
                                        measuredMax := BitVec.ofNat 16 (max p.measuredMax.toNat (watts % 65536)) }
    let s := s.each (List.range 9) fun s fn =>
      if fnEnabled s fn then s.each (ringRecords s fn watts) fun s r => putRecord s fn r else s
    s.modTel fun t => { t with due := false }
  else s

/-- TELEMETRY_WRITE (R546). -/
def execTelemetryWrite (watts : Nat) (s : State) : Host.Outcome State Fault Refusal := .next (writeTelemetry s watts)

end Sys2Proof.Machine
end

