-- ==== Sys2Proof/Machine/EngineCmds.lean ====
section
/-! DEFINITION. The commands after which the engines' jobs go on: those that start a job, and those that answer accesses. -/

namespace Sys2Proof.Machine

/-- SLOT_START (R59). -/
def execSlotStart (step slot : Nat) (actions : List SlotAction) (s : State) : Host.Outcome State Fault Refusal :=
  settled (slotStart s step slot actions)

/-- DESCRIPTOR_READ (R344 to R351). -/
def execDescriptorRead (q : Fin 32) (s : State) : Host.Outcome State Fault Refusal :=
  settled (if mayReadDesc s q then s.postOnce (.descriptor q) else s)

/-- BAR2_READ (R561 to R564, R576). -/
def execBar2Read (fn : Fn) (off len : Nat) (s : State) : Host.Outcome State Fault Refusal :=
  settled (hostAccess s fn fun s => if inBar2 s fn off len then bar2Load s fn off len else s)

/-- DMA_DONE (R571). -/
def execDmaDone (e : Fin 16) (data : List Byte) (hostErr : Bool) (s : State) : Host.Outcome State Fault Refusal :=
  settled (dmaFinish s e data hostErr)

/-- UPSTREAM_COMPLETION (R567). -/
def execUpstreamCompletion (tag : Nat) (data : List Byte) (s : State) : Host.Outcome State Fault Refusal := settled (upData s tag data)

/-- RTK_WALK_GO (R394). -/
def execRtkWalkGo (fn : Fn) (s : State) : Host.Outcome State Fault Refusal := settled (hostAccess s fn fun s => walkGo s fn)

/-- WALK_NODE_READ (R390). -/
def execWalkNodeRead (slot : Fin 64) (s : State) : Host.Outcome State Fault Refusal :=
  settled (if (walkIn s slot).any fun w => w.nodeAddr.isSome then s.postOnce (.walkNode slot) else s)

/-- ROOTSTOCK_WALK_DONE (R392, R395). -/
def execRootstockWalkDone (slot : Fin 64) (s : State) : Host.Outcome State Fault Refusal :=
  settled (if (walkIn s slot).any Walk.over then s.postOnce (.walkDone slot) else s)

/-- INGEST_SNAPSHOT (R413 to R419). -/
def execIngestSnapshot (step : Nat) (s : State) : Host.Outcome State Fault Refusal :=
  settled (match getStep s step with
    | none => s
    | some t => if snapshotDue s t then takeSnapshot s t else s)

/-- ICACHE_FILL (R141): the line a held fetch needs is asked of device memory. -/
def execIcacheFill (tile : Tile) (slot : GSlot) (words : Nat) (s : State) : Host.Outcome State Fault Refusal :=
  settled (match getGroup s tile slot with
    | none => s
    | some g => if (fetchWord s tile g).isSome then s else s.postOnce (.fetch tile slot words))

/-- GRANARY_READ (R192): the read reaches its home slice. -/
def execGranaryRead (req : Nat) (ecc : GrEcc) (s : State) : Host.Outcome State Fault Refusal := settled (granaryRead s req ecc)

/-- GRANARY_FILL (R197): the stack read of a line, issued and not held, returns its eight bursts. -/
def execGranaryFill (line : Nat) (bursts : List Burst) (s : State) : Host.Outcome State Fault Refusal := settled (granaryFill s line bursts)

/-- GRANARY_STORE (R199): the store reaches its home slice. -/
def execGranaryStore (req : Nat) (s : State) : Host.Outcome State Fault Refusal := settled (granaryStore s req)

/-- WB_ENTRY_GRANT (R241): the oldest write that waits for an entry of the pseudo-channel takes it. -/
def execWbEntryGrant (x : Fin 512) (found : List Burst) (s : State) : Host.Outcome State Fault Refusal := settled (wbGrant s x found)

/-- PARITY_RETRY (R273 to R276, R676). -/
def execParityRetry (x : Fin 512) (line : Nat) (kind : ParityKind) (pass : Bool) (s : State) : Host.Outcome State Fault Refusal :=
  settled (parityRetry s x line kind pass)

end Sys2Proof.Machine
end

