-- ==== Sys2Proof/Machine/FabricCmds.lean ====
section
/-! DEFINITION. The commands of the package fabric (06): flits, ING credits, Threshers, die consensus. -/

namespace Sys2Proof.Machine

/-- The flit comes from what attaches to the node, or it is the oldest on its way from the node that the port names (R234). -/
def comes (s : State) (node port : Nat) (x : FabFlit) : Bool :=
  decide (node ≤ hubNode) && !x.dests.isEmpty && x.dests.all (fun d => decide (d ≤ hubNode)) &&
    (port == node || (onLink s port node).head? == some x)

/-- FABRIC_FLIT_ARRIVAL (R234, R243, R244): a flit that comes takes a buffer at this input port, and every output port moves what R243
gives. One that finds no buffer stays where it is. -/
def execFabricFlitArrival (node port : Nat) (flit : FabFlit) (s : State) : Host.Outcome State Fault Refusal :=
  .next <|
    if comes s node port flit && (fabPort s node port).takes flit then
      let s := s.modFab fun f => { f with transit :=
        if port = node then f.transit else dropFirst (· == (port, node, flit)) f.transit }
      let s := takeBuffer s node port flit
      moveAll (moveFuel s) s
    else s

/-- ING_CREDIT_GRANT (R245): the credit of a slice sends a flit that waits for it, else the host port keeps it, at most 64. -/
def execIngCreditGrant (slice : Die) (s : State) : Host.Outcome State Fault Refusal :=
  .next <| match s.fab.ingWait.find? fun r => homeSlice (lineAddr r.line) == slice with
  | some r => (s.modFab fun f => { f with ingWait := dropFirst (fun q => q == r) f.ingWait }).modGrn fun g => { g with reqs := g.reqs ++ [r] }
  | none => s.modFab fun f => { f with ingCredit := vmod f.ingCredit slice fun c => min 64 (c + 1) }

/-- The leaf may send its partial: a ring port always, a sheaf that holds a tile of the step (R669). -/
def leafOk (s : State) (r : Red) (code : Nat) : Bool :=
  decide (0x40 ≤ code) || (getStep s r.step).any fun t => (runGrade s t).any fun g => g.tiles.any fun x => sheafOf x == code

/-- THRESHER_INPUT (R242, R256): a leaf's flit enters its reserved input slot. -/
def execThresherInput (red node : Nat) (input : Fin 4) (flit : RedFlit) (s : State) : Host.Outcome State Fault Refusal :=
  .next <| match s.fab.reds.find? fun r => r.id == red with
  | none => s
  | some r =>
    match redTree s r with
    | none => s
    | some t =>
      match (t.inputs node).find? fun e => e.1 == input.val with
      | none => s
      | some (i, code) =>
        if code < 0x48 ∧ r.received t node i < r.total t then
          if leafOk s r code then s.modRed red fun r =>
            r.setSlot node i (r.slot node i ++ (leafFlits t code flit).take (r.total t - r.received t node i))
          else s.redFault r .planBodyBad
        else s

/-- THRESHER_EMIT (R253 to R258). -/
def execThresherEmit (red node : Nat) (s : State) : Host.Outcome State Fault Refusal :=
  .next <| match s.fab.reds.find? fun r => r.id == red with
  | none => s
  | some r =>
    match redTree s r with
    | some t => emitNode s r t node
    | none => s

/-! ## Die consensus (R259 to R264) -/

/-- The hub acts on reports of the die: it is powered, in service and not reloading. -/
def dieChecked (s : State) (n : Nat) : Bool := diePowered s n && !dieFailed s n && !(fabDie s n).reloading

/-- Records a disagreement in FAB_CHECK_LAST and reloads or fails the die (R260, R261, R263). -/
def disagree (s : State) (n : Nat) (beatBad winBad fixedBad : Bool) : State :=
  dieReload (s.modFabDie n fun d => { d with lastFrame := BitVec.ofNat 32 (frameOf s.beat), lastBeatBad := beatBad, lastWinBad := winBad,
                                             lastFixedBad := fixedBad }) n .dieMismatch 7

/-- The die has reported, or its report has been missed, in this frame (R260). -/
def dieReported (s : State) (n : Nat) : Bool := (fabDie s n).reportedAt == some s.tmp.frames

/-- The die's report of this frame counts once. -/
def State.reported (s : State) (n : Nat) : State := s.modFabDie n fun d => { d with reportedAt := some s.tmp.frames }

/-- What a die reports (R259): FIXED_CRC over its share, WIN_CRC over its slice's window image, its beat number. -/
def dieReport (s : State) (n : Nat) : W64 × W64 × Nat :=
  let d := fabDie s n
  (d.badShare.getD (crc64 ((s.str.map (·.dieShare)).getD [])), d.badWindow.getD (crc64 (windowImage s)), d.badBeat.getD s.beat)

/-- The hub compares a die's report with its own copies (R260), and reloads a die that disagrees (R261). -/
def compareReport (s : State) (n : Nat) : State :=
  let (share, win, beat) := dieReport s n
  let s := (s.reported n).modFabDie n fun d => { d with fixedCrc := share }
  let b := beat != s.beat
  let w := win != crc64 (windowImage s)
  let f := share != (fabDie s n).fixedCrcRef
  if b || w || f then disagree s n b w f else s

/-- DIE_CONSENSUS_REPORT (R259 to R261): at the consensus beat, once a frame. A value given is what the die's own copy has become; where
none is given the copy stands as the hub wrote it, or as it was when the die last reported. -/
def execDieConsensusReport (die : Die) (fixedCrc winCrc : Option W64) (beatNo : Option Nat) (s : State) :
    Host.Outcome State Fault Refusal :=
  .next <|
    if dieChecked s die && bInF s.beat == 0 && !dieReported s die then
      compareReport (s.modFabDie die fun d =>
        { d with badShare := fixedCrc.orElse fun _ => d.badShare, badWindow := winCrc.orElse fun _ => d.badWindow,
                 badBeat := beatNo.orElse fun _ => d.badBeat }) die
    else s

/-- DIE_REPORT_TIMEOUT (R260): a report that has not come within the consensus beat is a disagreement on all three values. -/
def execDieReportTimeout (die : Die) (s : State) : Host.Outcome State Fault Refusal :=
  .next (if dieChecked s die && s.tmp.counting && !dieReported s die then disagree (s.reported die) die true true true else s)

/-- DIE_RELOAD_DONE (R509, R262): the die returns to service at the next frame boundary. -/
def execDieReloadDone (die : Die) (s : State) : Host.Outcome State Fault Refusal :=
  .next (if (fabDie s die).reloading then s.modFabDie die fun d => { d with reloaded := true } else s)

end Sys2Proof.Machine
end

