-- ==== Sys2Proof/Machine/HostCmds.lean ====
section
/-! DEFINITION. The commands of the host port (16) that leave device memory alone: BAR2 writes, DMA starts, completion timeouts,
SR-IOV, the link and its errors. -/

namespace Sys2Proof.Machine

/-! ## BAR2 (R560 to R564, R576) -/

/-- BAR2_WRITE (R561, R562, R564, R576). -/
def execBar2Write (fn : Fn) (off : Nat) (data : List Byte) (poisoned : Bool) (s : State) : Host.Outcome State Fault Refusal :=
  .next (hostAccess s fn fun s => if inBar2 s fn off data.length then bar2Store s fn off data poisoned else s)

/-- UNSUPPORTED_REQUEST (R554). -/
def execUnsupportedRequest (fn : Fn) (_kind : BadRequest) (s : State) : Host.Outcome State Fault Refusal :=
  .next (if s.hif.linkUp then s.unsupportedReq fn else s)

/-- Sizes that BAR2 of a function takes, as powers of two of GiB (R559). -/
def bar2SizeOk (fn log2GiB : Nat) : Bool := decide (log2GiB ≤ if fn = 0 then 9 else 6)

/-- BAR2_RESIZE (R559): only while Memory Space Enable is 0. -/
def execBar2Resize (fn : Fn) (log2GiB : Nat) (mse : Bool) (s : State) : Host.Outcome State Fault Refusal :=
  .next <|
    if s.hif.linkUp then
      s.modFn fn fun h => { h with mse := mse, bar2Log2 := if !mse && bar2SizeOk fn log2GiB then log2GiB else h.bar2Log2 }
    else s

/-! ## SR-IOV (R555, R556) -/

/-- VF Enable and NumVFs change: partitions whose serving function changes are PART reset (R556). Table 14-7 gives such a reset no
SOURCE, so the field is free (log 2). -/
def changeSriov (s : State) (enable : Bool) (n : Nat) : State :=
  let before := (List.range 8).map (servingFn s)
  let s := s.modHif fun h => { h with vfEnable := enable, numVfs := n }
  s.each (idx 8 fun p => before[p]? != some (servingFn s p)) fun s p => partReset s.drawn p ((freeVal s).toNat % 16)

/-- SRIOV_CONFIG_CHANGE (R556). -/
def execSriovConfigChange (vfEnable : Bool) (numVfs : Fin 9) (s : State) : Host.Outcome State Fault Refusal :=
  .next (if s.hif.linkUp then changeSriov s vfEnable numVfs else s)

/-! ## DMA engines (R569 to R572) -/

/-- A transfer starts (R569): one from host memory asks for its bytes. -/
def dmaGo (s : State) (e : Nat) : State :=
  let d := dmaSt s e
  if !dmaShape d then s.endDma e .dmaBad 0
  else
    let s := s.modDma e fun d => { d with busy := true, code := .ok, done := 0 }
    if d.dir then s else s.upstream (dmaOwner s e) (.dma e) d.host.toNat d.len.toNat

/-- A write of HIF_DMA_CTRL[e] (R571, R572): ignored through another function, and, but for REJECT, while BUSY. -/
def writeDmaCtrl (s : State) (fn e v : Nat) : State :=
  if dmaOwner s e != fn then s
  else if bitOf v 31 then
    if (dmaSt s e).busy then s.modDma e fun d => { d with reject := true }
    else dmaGo (s.modDma e fun d => { d with irq := bitOf v 1, dir := bitOf v 0 }) e
  else s.modDma e fun d => { d with irq := bitOf v 1, dir := bitOf v 0 }

/-- DMA_START (R569, R571, R572). -/
def execDmaStart (fn : Fn) (e : Fin 16) (value : W32) (s : State) : Host.Outcome State Fault Refusal :=
  .next (hostAccess s fn fun s => writeDmaCtrl s fn e value.toNat)

/-! ## Upstream requests (R567, R577, Table 16-3) -/

/-- A request ends in an error or a completion timeout (Table 16-3). -/
def upTimeout (s : State) (tag : Nat) : State :=
  match findUp s tag with
  | none => s
  | some u =>
    let s := s.dropUp tag
    if u.abandoned then s
    else
      let s := s.emit (.aer u.fn .completionTimeout)
      match u.src with
      | .dma e => s.endDma e .hostErr 0
      | .kv step _ _ _ => s.faultStep step .hostErr
      | .trellis n => failFill s n

/-- COMPLETION_TIMEOUT (R567). -/
def execCompletionTimeout (tag : Nat) (s : State) : Host.Outcome State Fault Refusal := .next (upTimeout s tag)

/-! ## The link (R553, R574, R575, R578) -/

/-- A Hot Reset, or a link-down without PERST# (R578): an FLR of the PF and of every enabled VF; the link retrains. -/
def hotReset (s : State) : State :=
  if s.hif.linkUp then
    let s := s.modHif fun h => { h with linkUp := false, rate := 0, width := 0, flit := false, tags := .bits8 }
    s.each ((List.range 9).filter (fnEnabled s)) flr
  else s

/-- HOT_RESET (R578). -/
def execHotReset (s : State) : Host.Outcome State Fault Refusal := .next (hotReset s)

/-- The PCIe PHY is ready: wake step 7 is past, and HOSTPHY is powered (Tables 14-3, 16-6). -/
def hostPhyReady (s : State) : Bool := s.rst.vrEn.getLsbD 34 && (s.rst.done || decide (7 < s.rst.step))

/-- A link that Table 16-2 supports: 2.5 to 64 GT/s, x4, x8 or x16, FLIT mode at 64 GT/s, and 14-bit tags in FLIT mode only. -/
def linkShape (rate width : Nat) (mode : LinkMode) : Bool :=
  decide (1 ≤ rate) && decide (rate ≤ 6) && (width == 4 || width == 8 || width == 16) && (mode.flit || rate != 6) &&
    (mode.flit || mode.tags != .bits14)

/-- PCIE_LINK_TRAINED (R553, R568, R575). -/
def execPcieLinkTrained (rate : Fin 8) (width : Nat) (mode : LinkMode) (s : State) : Host.Outcome State Fault Refusal :=
  .next <|
    if hostPhyReady s && linkShape rate width mode then
      (s.modHif fun h => { h with linkUp := true, rate := rate, width := width, flit := mode.flit, tags := mode.tags }).sendUp
    else s

/-- HOST_PORT_LINK_ERROR (R574). -/
def execHostPortLinkError (kind : LinkError) (s : State) : Host.Outcome State Fault Refusal :=
  .next (if s.hif.linkUp then s.emit (.aer 0 (.link kind)) else s)

/-- D3HOT_TRANSITION (R575): the standard's power state of the function, no power order. -/
def execD3hotTransition (fn : Fn) (toD3 : Bool) (s : State) : Host.Outcome State Fault Refusal :=
  .next (if s.hif.linkUp && fnEnabled s fn then s.modFn fn fun h => { h with d3hot := toD3 } else s)

end Sys2Proof.Machine
end

