-- ==== Sys2Proof/Machine/Registers.lean ====
section
/-! DEFINITION. The register map (19 and the register tables of the other files): which register lies at an offset of a function's
BAR0, and what each register reads as. -/

namespace Sys2Proof.Machine

/-- The registers of the package, with their indices; `d` is a compute die, `t` a stack, `h` a 64-bit piece of a wider register. -/
inductive Reg where
  | hifId | hifLink | hifSriov | hifErrLast | hifErrCount | hifDrop | hifBar2Off
  | dmaHost (e : Nat) | dmaDev (e : Nat) | dmaLen (e : Nat) | dmaCtrl (e : Nat) | dmaStatus (e : Nat) | dmaDone (e : Nat)
  | msixTable (off : Nat) | msixPba (off : Nat)
  | beatNow | frameLen | tmpStatus | phaseErr | holdoverLeft | realignCount | slipCount | slipLast | gradePending
  | slipPart (p : Nat) | linkDelay (l : Nat)
  | sldCtrl | sldStatus | sldSrcAddr | sldSrcLen | sldErr | sldBoot | sldKeyState | sldKeyNonce | sldHash (i : Nat)
  | sldDieHash (d : Nat) | sldLoadCount
  | capEffective | capHost | capRack | capBoard | capThermal | gradeNow | pwrState | stateHost | issueLimit | limitCount | holdLast
  | holdCount | rackOffLeft | pwrEvent | measured | opCeil (k : Nat) | tileTemp (d : Nat) | dieFuse (d : Nat) | opV (i : Nat)
  | rstCause | rstCtrl | wakeStep | leaseStatus | fenceCount | rstPins
  | c0Phase | inflight | doorbell (p : Nat) | share (p : Nat) | account (p : Nat) | c0Sheaves (p : Nat) | qBase (q : Nat)
  | qCtrl (q : Nat) | cqBase (p : Nat) | cqCtrl (p : Nat) | partStatus (p : Nat) | partCtrl (p : Nat)
  | bwrCapacity | bwrSelect | dlMiss | dlDemoted | dlMissLast | budget (m : Nat) | violation (m : Nat)
  | ctxSel | ctxCmd | ctxStatus | truncLen | cacheUse | ctxData (i : Nat)
  | oldestBeat | rtkActive | walkReq | walkGo | walkStatus | walkCount
  | wnwRecords | wnwDrafts | wnwAccepted | wnwErrors
  | trlStatus | trlDropped | trlNoMatch | slotOwner (n : Nat) | slotCfg (n h : Nat) | pushAddr (n : Nat) | pushStamp (n : Nat)
  | push (n : Nat) | slotState (n h : Nat) | superseded (n : Nat)
  | rhlStatus | reshapeCount | reshapeLast | collLast | stray | wordBad | linkState (l : Nat) | fecCorr (l : Nat)
  | fecUncorr (l : Nat) | replay (l : Nat) | consensusPeer (l h : Nat)
  | glnStatus | stackPass | stackCursor (t : Nat) | grPass | grCe | grUe | patrolFix | retrainLast | ageSel | ageData
  | telCtrl | telBase | telRingCtrl | telDropped
  | dieInfo (d : Nat)
  | grnStatus (d : Nat) | deadreadAddr (d : Nat) | matchTie (d : Nat) | mergeFull (d : Nat) | poolFull (d : Nat)
  | streamActive (d : Nat) | quota (d p : Nat) | winBase (d n : Nat) | winLimit (d n : Nat) | winCtrl (d n : Nat)
  | memStatus (t : Nat) | memTemp (t : Nat) | remapCount (t : Nat) | remapFull (t : Nat) | ceCount (t : Nat) | ueCount (t : Nat)
  | parityCount (t : Nat) | errAddr (t : Nat) | chFail (t : Nat) | refreshMult (t : Nat)
  | fabStatus (d : Nat) | checkLast (d : Nat) | fixedCrc (d : Nat) | fixedCrcRef (d : Nat) | seamSpare (d : Nat)
  | escapeUse (d c : Nat) | thrPoison (d : Nat)
  | tileMap (sh : Nat) | groupFault (sh : Nat) | fetchMiss (sh : Nat)
  deriving DecidableEq, Repr

/-! ## The map (R76, R126, R184, R229, R265, R309, R337, R367, R406, R428, R465, R504, R529, R552, R579, R654, R655) -/

/-- The index of an offset in an array of registers. -/
def arr (off base stride count : Nat) : Option Nat :=
  if base ≤ off ∧ (off - base) % stride = 0 ∧ (off - base) / stride < count then some ((off - base) / stride) else none

/-- A single register at an offset. -/
def one (off at_ : Nat) (r : Reg) : Option Reg := if off = at_ then some r else none

/-- The first register that some entries of a block name. -/
def firstReg (rs : List (Option Reg)) : Option Reg := rs.findSome? id

/-- HIF (Table 16-7); the MSI-X structures lie where the view has them. -/
def hifMap (o table pba vectors : Nat) : Option Reg :=
  firstReg [one o 0 .hifId, one o 4 .hifLink, one o 8 .hifSriov, one o 0x10 .hifErrLast, one o 0x18 .hifErrCount, one o 0x1C .hifDrop,
    one o 0x20 .hifBar2Off, (arr o 0x100 0x40 16).map .dmaHost, (arr o 0x108 0x40 16).map .dmaDev, (arr o 0x110 0x40 16).map .dmaLen,
    (arr o 0x114 0x40 16).map .dmaCtrl, (arr o 0x118 0x40 16).map .dmaStatus, (arr o 0x11C 0x40 16).map .dmaDone,
    (arr o table 4 (4 * vectors)).map fun i => .msixTable (4 * i), (arr o pba 4 (vectors / 32)).map fun i => .msixPba (4 * i)]

/-- TMP (Table 2-5). -/
def tmpMap (o : Nat) : Option Reg :=
  firstReg [one o 0 .beatNow, one o 8 .frameLen, one o 0x10 .tmpStatus, one o 0x18 .phaseErr, one o 0x1C .holdoverLeft,
    one o 0x20 .realignCount, one o 0x28 .slipCount, one o 0x30 .slipLast, one o 0x38 .gradePending, (arr o 0x40 4 8).map .slipPart,
    (arr o 0x80 4 8).map .linkDelay]

/-- SLD (Table 3-9). -/
def sldMap (o : Nat) : Option Reg :=
  firstReg [one o 0 .sldCtrl, one o 4 .sldStatus, one o 8 .sldSrcAddr, one o 0x10 .sldSrcLen, one o 0x18 .sldErr, one o 0x20 .sldBoot,
    one o 0x28 .sldKeyState, one o 0x30 .sldKeyNonce, (arr o 0x40 4 12).map .sldHash, (arr o 0x80 8 4).map .sldDieHash,
    one o 0xA0 .sldLoadCount]

/-- PWR (Table 13-6). -/
def pwrMap (o : Nat) : Option Reg :=
  firstReg [one o 0 .capEffective, one o 4 .capHost, one o 8 .capRack, one o 0xC .capBoard, one o 0x10 .capThermal, one o 0x14 .gradeNow,
    one o 0x18 .pwrState, one o 0x1C .stateHost, one o 0x20 .issueLimit, one o 0x24 .limitCount, one o 0x28 .holdLast,
    one o 0x30 .holdCount, one o 0x34 .rackOffLeft, one o 0x38 .pwrEvent, one o 0x3C .measured, (arr o 0x40 4 8).map .opCeil,
    (arr o 0x60 4 4).map .tileTemp, (arr o 0x80 4 4).map .dieFuse, (arr o 0x100 4 32).map .opV]

/-- RST (Table 14-6). -/
def rstMap (o : Nat) : Option Reg :=
  firstReg [one o 0 .rstCause, one o 4 .rstCtrl, one o 8 .wakeStep, one o 0x10 .leaseStatus, one o 0x18 .fenceCount, one o 0x1C .rstPins]

/-- STP (Table 9-7). -/
def stpMap (o : Nat) : Option Reg :=
  firstReg [one o 0 .c0Phase, one o 8 .inflight, (arr o 0x100 4 8).map .doorbell, (arr o 0x140 4 8).map .share,
    (arr o 0x180 8 8).map .account, (arr o 0x200 8 8).map .c0Sheaves, (arr o 0x400 8 32).map .qBase, (arr o 0x500 4 32).map .qCtrl,
    (arr o 0x600 8 8).map .cqBase, (arr o 0x640 4 8).map .cqCtrl, (arr o 0x680 4 8).map .partStatus, (arr o 0x6A0 4 8).map .partCtrl]

/-- STP in the view of a VF that serves p (Table 19-6). -/
def stpViewMap (p o : Nat) : Option Reg :=
  firstReg [one o 0 (.doorbell p), (arr o 0x10 8 4).map fun c => .qBase (4 * p + c), (arr o 0x40 4 4).map fun c => .qCtrl (4 * p + c),
    one o 0x60 (.cqBase p), one o 0x68 (.cqCtrl p), one o 0x70 (.account p), one o 0x78 (.partStatus p), one o 0x80 (.share p),
    one o 0x88 (.c0Sheaves p)]

/-- BWR (Table 8-6). -/
def bwrMap (o : Nat) : Option Reg :=
  firstReg [one o 0 .bwrCapacity, one o 4 .bwrSelect, one o 8 .dlMiss, one o 0xC .dlDemoted, one o 0x10 .dlMissLast,
    (arr o 0x100 4 92).map .budget, (arr o 0x300 4 92).map .violation]

/-- SRV, RTK and WNW (Table 10-6). -/
def srvMap (o : Nat) : Option Reg :=
  firstReg [one o 0 .ctxSel, one o 4 .ctxCmd, one o 8 .ctxStatus, one o 0x10 .truncLen, one o 0x18 .cacheUse, (arr o 0x100 4 32).map .ctxData]
def rtkMap (o : Nat) : Option Reg :=
  firstReg [one o 0 .oldestBeat, one o 8 .rtkActive, one o 0x10 .walkReq, one o 0x18 .walkGo, one o 0x1C .walkStatus, one o 0x20 .walkCount]
def wnwMap (o : Nat) : Option Reg := firstReg [one o 0 .wnwRecords, one o 4 .wnwDrafts, one o 8 .wnwAccepted, one o 0xC .wnwErrors]

/-- TRL (Table 11-4). -/
def trlMap (o : Nat) : Option Reg :=
  firstReg [one o 0 .trlStatus, one o 8 .trlDropped, one o 0xC .trlNoMatch, (arr o 0x100 4 64).map .slotOwner,
    (arr o 0x200 8 128).map fun i => .slotCfg (i / 2) (i % 2), (arr o 0x600 8 64).map .pushAddr, (arr o 0x800 8 64).map .pushStamp,
    (arr o 0xA00 4 64).map .push, (arr o 0xB00 8 128).map fun i => .slotState (i / 2) (i % 2), (arr o 0xF00 4 64).map .superseded]

/-- RHL (Table 12-8). -/
def rhlMap (o : Nat) : Option Reg :=
  firstReg [one o 0 .rhlStatus, one o 8 .reshapeCount, one o 0x10 .reshapeLast, one o 0x18 .collLast, one o 0x20 .stray, one o 0x24 .wordBad,
    (arr o 0x100 4 8).map .linkState, (arr o 0x140 4 8).map .fecCorr, (arr o 0x160 4 8).map .fecUncorr, (arr o 0x180 4 8).map .replay,
    (arr o 0x200 8 32).map fun i => .consensusPeer (i / 4) (i % 4)]

/-- GLN and TEL (Table 15-4). -/
def glnMap (o : Nat) : Option Reg :=
  firstReg [one o 0 .glnStatus, one o 8 .stackPass, (arr o 0x10 4 8).map .stackCursor, one o 0x30 .grPass, one o 0x34 .grCe, one o 0x38 .grUe,
    one o 0x3C .patrolFix, one o 0x40 .retrainLast, one o 0x48 .ageSel, one o 0x4C .ageData]
def telMap (o : Nat) : Option Reg := firstReg [one o 0 .telCtrl, one o 8 .telBase, one o 0x10 .telRingCtrl, one o 0x18 .telDropped]

/-- GRN of slice d (Table 5-4). -/
def grnMap (d o : Nat) : Option Reg :=
  firstReg [one o 0 (.grnStatus d), one o 8 (.deadreadAddr d), one o 0x10 (.matchTie d), one o 0x18 (.mergeFull d), one o 0x1C (.poolFull d),
    one o 0x20 (.streamActive d), (arr o 0x100 4 8).map (.quota d), (arr o 0x1000 8 64).map (.winBase d),
    (arr o 0x1200 8 64).map (.winLimit d), (arr o 0x1400 4 64).map (.winCtrl d)]

/-- MEM of stack t (Table 7-4). -/
def memMap (t o : Nat) : Option Reg :=
  firstReg [one o 0 (.memStatus t), one o 8 (.memTemp t), one o 0x10 (.remapCount t), one o 0x14 (.remapFull t), one o 0x18 (.ceCount t),
    one o 0x1C (.ueCount t), one o 0x20 (.parityCount t), one o 0x28 (.errAddr t), one o 0x30 (.chFail t), one o 0x38 (.refreshMult t)]

/-- FAB of die d (Table 6-6). -/
def fabMap (d o : Nat) : Option Reg :=
  firstReg [one o 0 (.fabStatus d), one o 8 (.checkLast d), one o 0x10 (.fixedCrc d), one o 0x18 (.fixedCrcRef d), one o 0x20 (.seamSpare d),
    (arr o 0x40 4 5).map (.escapeUse d), one o 0x60 (.thrPoison d)]

/-- SHF of die d (Table 4-11). -/
def shfMap (d o : Nat) : Option Reg :=
  firstReg [(arr o 0 8 16).map fun k => .tileMap (16 * d + k), (arr o 0x100 8 16).map fun k => .groupFault (16 * d + k),
    (arr o 0x200 4 16).map fun k => .fetchMiss (16 * d + k)]

/-- The range of a compute die (Table 19-3). -/
def dieMap (d o : Nat) : Option Reg :=
  if o < 0x100000 then one o 0 (.dieInfo d)
  else if o < 0x200000 then grnMap d (o - 0x100000)
  else if o < 0x300000 then
    let m := o - 0x200000
    if m < 0x20000 then memMap (2 * d + m / 0x10000) (m % 0x10000) else none
  else if o < 0x380000 then fabMap d (o - 0x300000)
  else if o < 0x400000 then shfMap d (o - 0x380000)
  else none

/-- The register at an offset of the PF's BAR0 (Table 19-2). -/
def pfMap (o : Nat) : Option Reg :=
  if 0x1000000 ≤ o then (if o < 0x2000000 then dieMap ((o - 0x1000000) / 0x400000) ((o - 0x1000000) % 0x400000) else none)
  else
    let b := o / 0x100000
    let r := o % 0x100000
    if b = 0 then hifMap r 0xF0000 0xF8000 256
    else if b = 1 then tmpMap r
    else if b = 2 then sldMap r
    else if b = 3 then pwrMap r
    else if b = 4 then rstMap r
    else if b = 5 then stpMap r
    else if b = 6 then bwrMap r
    else if b = 7 then (if r < 0x80000 then srvMap r else if r < 0xC0000 then rtkMap (r - 0x80000) else wnwMap (r - 0xC0000))
    else if b = 8 then trlMap r
    else if b = 9 then rhlMap r
    else if b = 10 then (if r < 0x80000 then glnMap r else telMap (r - 0x80000))
    else none

/-- The engines whose registers a view shows (R572), as for the registers of Trellis slots (R428). -/
def ownsReg (s : State) (fn : Nat) (r : Reg) : Bool :=
  let slot := fun n => fn == 0 || trlOwner s fn n
  match r with
  | .dmaHost e | .dmaDev e | .dmaLen e | .dmaCtrl e | .dmaStatus e | .dmaDone e => dmaOwner s e == fn
  | .slotOwner n | .slotCfg n _ | .pushAddr n | .pushStamp n | .push n | .slotState n _ | .superseded n => slot n
  | _ => true

/-- The registers that Table 19-5 lists for the view of a VF that serves p. -/
def inView (p : Nat) (r : Reg) : Bool := match r with
  | .hifLink | .hifSriov | .hifDrop => false
  | .phaseErr | .holdoverLeft | .realignCount | .slipCount | .slipLast | .linkDelay _ => false
  | .slipPart q => q == p
  | .capRack | .capBoard | .capThermal | .issueLimit | .limitCount | .holdLast | .holdCount | .measured | .opCeil _ | .tileTemp _
  | .dieFuse _ | .opV _ => false
  | .cacheUse | .rtkActive | .walkCount | .trlStatus | .trlDropped | .trlNoMatch => false
  | .reshapeCount | .reshapeLast | .collLast | .stray | .wordBad | .linkState _ | .fecCorr _ | .fecUncorr _ | .replay _
  | .consensusPeer _ _ => false
  | .grnStatus _ | .deadreadAddr _ | .matchTie _ | .mergeFull _ | .poolFull _ | .streamActive _ => false
  | .quota _ q => q == p
  | _ => true

/-- The register at an offset of a VF's BAR0 view (R558, R659, R660). -/
def vfMap (s : State) (fn o : Nat) : Option Reg :=
  match fnPart s fn with
  | none => one o 0 .hifId
  | some p =>
    let w := o / 0x10000
    let r := o % 0x10000
    let reg := if w = 0 then hifMap r 0xE000 0xF000 32
      else if w = 1 then tmpMap r
      else if w = 2 then pwrMap r
      else if w = 3 then stpViewMap p r
      else if w = 4 then srvMap r
      else if w = 5 then rtkMap r
      else if w = 6 then trlMap r
      else if w = 7 then rhlMap r
      else if w = 8 then grnMap 0 r
      else if w = 9 then telMap r
      else none
    reg.filter fun r => inView p r && ownsReg s fn r

/-- The register at an offset of a function's BAR0. -/
def regAt (s : State) (fn o : Nat) : Option Reg :=
  if fn = 0 then (pfMap o).filter (ownsReg s 0) else vfMap s fn o

/-- 64-bit registers and pieces. -/
def Reg.wide (r : Reg) : Bool := match r with
  | .hifErrLast | .hifBar2Off | .dmaHost _ | .dmaDev _ | .beatNow | .slipLast | .sldSrcAddr | .sldErr | .sldKeyNonce | .sldDieHash _
  | .holdLast | .leaseStatus | .account _ | .c0Sheaves _ | .qBase _ | .cqBase _ | .dlMissLast | .truncLen | .oldestBeat | .walkReq
  | .slotCfg _ _ | .pushAddr _ | .pushStamp _ | .slotState _ _ | .reshapeLast | .collLast | .consensusPeer _ _ | .retrainLast | .telBase
  | .deadreadAddr _ | .winBase _ _ | .winLimit _ _ | .errAddr _ | .chFail _ | .checkLast _ | .fixedCrc _ | .fixedCrcRef _
  | .groupFault _ => true
  | _ => false

/-- The die whose range holds a register that R656 silences: all but DIE_INFO, the window set and the quotas. -/
def Reg.die (r : Reg) : Option Nat := match r with
  | .grnStatus d | .deadreadAddr d | .matchTie d | .mergeFull d | .poolFull d | .streamActive d => some d
  | .memStatus t | .memTemp t | .remapCount t | .remapFull t | .ceCount t | .ueCount t | .parityCount t | .errAddr t | .chFail t
  | .refreshMult t => some (t / 2)
  | .fabStatus d | .checkLast d | .fixedCrc d | .fixedCrcRef d | .seamSpare d | .escapeUse d _ | .thrPoison d => some d
  | .tileMap k | .groupFault k | .fetchMiss k => some (k / 16)
  | _ => none

/-- The register is silent while its die is powered down or failed (R656). -/
def silent (s : State) (r : Reg) : Bool := r.die.any fun d => !diePowered s d || dieFailed s d

/-! ## What registers read as -/

/-- A field placed at a bit. -/
def fieldBit (b : Bool) (at_ : Nat) : Nat := if b then 2 ^ at_ else 0

/-- A signed value in eight bits. -/
def sbyte (v : Int) : Nat := ofSigned 8 v

/-- Power states of the four fields of PWR_STATE (Table 13-6). -/
def pwrStateWord (s : State) : Nat :=
  let o := s.pwr.orders
  pnum (effState s) * 2 ^ 30 + pnum o.rack * 2 ^ 22 + pnum o.host * 2 ^ 20 + pnum o.board * 2 ^ 18

/-- TMP_STATUS (Table 2-6). -/
def tmpStatusWord (s : State) : Nat :=
  ownMaster s * 2 ^ 22 + ownRank s * 2 ^ 12 + fieldBit s.rhl.rank.isSome 11 + fieldBit (ownMaster s == ownRank s) 10 +
    s.tmp.alignLink.val * 2 ^ 7 + fieldBit s.tmp.aligned 6 + modeNum s.tmp.mode

/-- TMP_SLIP_LAST (Table 2-7). -/
def slipLastWord (x : SlipLast) : Nat :=
  x.beat.toNat * 2 ^ 40 + x.planId.toNat * 2 ^ 24 + x.part.toNat * 2 ^ 16 + x.cause.toNat * 2 ^ 14 + x.overrun.toNat

/-- TMP_GRADE_PENDING (Table 2-8). -/
def gradePendingWord (s : State) : Nat := match shownPending s with
  | none => 0
  | some (f, g, other) => 2 ^ 31 + fieldBit other 30 + g * 2 ^ 27 + f % 2 ^ 24

/-- SLD_KEY_STATE: a slot's state. -/
def keyNum (k : KeyState) : Nat := match k with
  | .empty => 0
  | .enrolled => 1
  | .revoked => 3

/-- RST_CAUSE (Table 14-7). -/
def causeWord (c : Cause) : Nat := c.code.num.toNat * 2 ^ 16 + c.type % 16 * 2 ^ 12 + c.source % 16 * 2 ^ 8 + c.target % 16 * 2 ^ 4

/-- RST_WAKE_STEP (Table 14-8). -/
def wakeWord (r : Reset) : Nat :=
  fieldBit r.lockout 31 + fieldBit r.done 30 + r.failedStep % 256 * 2 ^ 16 + r.tries % 16 * 2 ^ 12 + r.failDie % 4 * 2 ^ 10 + r.step % 256

/-- RST_LEASE_STATUS (Table 14-9). -/
def leaseWord (l : LeaseStatus) : Nat :=
  l.code.num.toNat * 2 ^ 48 + l.kind * 2 ^ 46 + l.index * 2 ^ 43 + l.waiters * 2 ^ 28 + l.tokens * 2 ^ 15 + l.thresher * 2 ^ 11 + l.contexts

/-- The number of a partition state (Table 9-7). -/
def partNum (p : PartState) : Nat := match p with
  | .disabled => 0
  | .active => 1
  | .faulted => 2
  | .resetting => 3

/-- The number of a link state (Table 12-9). -/
def linkNum (l : LinkState) : Nat := match l with
  | .down => 0
  | .loc => 1
  | .ready => 2
  | .relock => 3
  | .ident => 4
  | .up => 5
  | .transit => 6

/-- GRN_WIN_CTRL (Table 5-8). -/
def winCtrlWord (w : Window) : Nat :=
  fieldBit w.valid 31 + w.prio % 256 * 2 ^ 16 + w.part % 256 * 2 ^ 8 + fieldBit w.detoff 7 + w.cls % 8

/-- GRN_QUOTA (Table 5-7). -/
def quotaWordOf (q : Quota) : Nat := q.pin * 2 ^ 16 + q.persist * 2 ^ 8 + q.stream

/-- The window entry as a function's view shows it: none where R661 hides it. -/
def winShown (s : State) (fn n : Nat) : Option Window :=
  let w := vat s.grn.win n {}
  if fn = 0 ∨ w.part = 0xFF ∨ fnPart s fn = some w.part then some w else none

/-- The high or low 64 bits of TRL_SLOT_STATE (Table 11-4). -/
def slotStateWord (t : TSlot) (h : Nat) : Nat :=
  if h = 1 then (newestOf t).elim 0 fun e => e.2.stamp
  else
    let pinned := fun (b : Option TBuf) => b.any fun x => !x.pins.isEmpty
    t.code.num.toNat * 2 ^ 16 + fieldBit t.pending.isSome 5 + fieldBit t.fill.isSome 4 + fieldBit (pinned t.buf1) 3 +
      fieldBit (pinned t.buf0) 2 + fieldBit (newestOf t).isSome 1 + fieldBit (t.newest == some true) 0

/-- Registers of the hub blocks HIF, TMP, SLD. -/
def readHubA (s : State) (fn : Nat) (r : Reg) : Nat :=
  let f := hifFn s fn
  match r with
  | .hifId => (if fn = 0 then 0x0A04 else 0x0A05) * 2 ^ 16 + 0x11
  | .hifLink => fieldBit s.hif.flit 31 + s.hif.width * 2 ^ 8 + s.hif.rate
  | .hifSriov => fieldBit s.hif.vfEnable 4 + s.hif.numVfs
  | .hifErrLast => f.errCode.num.toNat * 2 ^ 48 + (if f.errCode = .ok then 0 else fn * 2 ^ 44) + f.errBar * 2 ^ 40 + f.errOff % 2 ^ 40
  | .hifErrCount => f.errCount.toNat
  | .hifDrop => s.hif.drop.toNat
  | .hifBar2Off => f.bar2Off.toNat
  | .dmaHost e => (dmaSt s e).host.toNat
  | .dmaDev e => (dmaSt s e).dev.toNat
  | .dmaLen e => (dmaSt s e).len.toNat
  | .dmaCtrl e => fieldBit (dmaSt s e).irq 1 + fieldBit (dmaSt s e).dir 0
  | .dmaStatus e => (dmaSt s e).code.num.toNat * 2 ^ 16 + fieldBit (dmaSt s e).busy 15 + fieldBit (dmaSt s e).reject 14
  | .dmaDone e => (dmaSt s e).done.toNat
  | .msixTable o =>
    let v := (mget 0 s.hif.msix (msixKey fn o)).toNat
    if o % 16 = 12 then (if v % 2 = 0 then v + 1 else v - 1) else v
  | .msixPba o => (mget 0 s.hif.msix (msixKey fn (0x8000 + o))).toNat
  | .beatNow => s.beat
  | .frameLen => 0x400
  | .tmpStatus => tmpStatusWord s
  | .phaseErr => ofSigned 32 s.tmp.phaseErr
  | .holdoverLeft => s.tmp.holdoverLeft
  | .realignCount => s.tmp.realignCount.toNat
  | .slipCount => s.tmp.slipCount.toNat
  | .slipLast => slipLastWord s.tmp.slipLast
  | .gradePending => gradePendingWord s
  | .slipPart p => (vat s.tmp.slipPart p 0).toNat
  | .linkDelay l => (vat s.tmp.linkDelay l none).elim 0 fun d => 2 ^ 31 + d.toNat
  | .sldCtrl => fieldBit s.sld.keepMem 9 + s.sld.src.toNat * 2 ^ 4 + s.sld.op.toNat
  | .sldStatus => s.sld.code.num.toNat * 2 ^ 16 + fieldBit s.sld.busy 15 + fieldBit s.sld.reject 14 + fieldBit s.sld.locked 13 +
      s.sld.phase % 16 * 2 ^ 4 + s.sld.lastSrc.toNat
  | .sldSrcAddr => s.sld.srcAddr.toNat
  | .sldSrcLen => s.sld.srcLen.toNat
  | .sldErr => s.sld.errOff.toNat * 2 ^ 16 + s.sld.errRec.toNat
  | .sldBoot => fieldBit s.sld.fallback 1 + fieldBit s.sld.bank 0
  | .sldKeyState => fieldBit s.fuses.rootOff 8 + sumN ((List.range 4).map fun i => keyNum (vat s.fuses.keyState i .empty) * 4 ^ i)
  | .sldKeyNonce => s.sld.nonce.toNat
  | .sldHash i => s.sld.hash.toNat / 2 ^ (352 - 32 * i) % 2 ^ 32
  | .sldDieHash d => (vat s.sld.dieHash d 0).toNat
  | .sldLoadCount => s.sld.loadCount.toNat
  | _ => 0

/-- Registers of PWR and RST. -/
def readHubB (s : State) (r : Reg) : Nat :=
  let o := s.pwr.orders
  let lim := fun n => (diePwr s n).limiter
  match r with
  | .capEffective => capBinding s * 2 ^ 30 + effCap s
  | .capHost => o.capHost
  | .capRack => o.capRack.elim 0 fun w => 2 ^ 31 + w
  | .capBoard => o.capBoard
  | .capThermal => capThermal s
  | .gradeNow => ownGrade s * 2 ^ 16 + capGrade s * 2 ^ 8 + s.grade.now
  | .pwrState => pwrStateWord s
  | .stateHost => pnum o.host
  | .issueLimit => lim 0 + lim 1 * 2 ^ 8 + lim 2 * 2 ^ 16 + lim 3 * 2 ^ 24
  | .limitCount => s.pwr.limitCount.toNat
  | .holdLast => s.pwr.holdLast.beat.toNat * 2 ^ 40 + fieldBit s.pwr.holdLast.kind 32 + s.pwr.holdLast.rack.toNat * 2 ^ 16 +
      s.pwr.holdLast.host.toNat
  | .holdCount => s.pwr.holdCount.toNat
  | .rackOffLeft => o.offLeft.getD 0xFFFFFFFF
  | .pwrEvent => s.pwr.event.toNat
  | .measured => s.pwr.measuredMax.toNat * 2 ^ 16 + s.pwr.measuredLast.toNat
  | .opCeil k => fieldBit (pointEnabled s k) 31 + vat s.fuses.ceil k 0
  | .tileTemp d => sbyte (diePwr s d).tempMax * 2 ^ 16 + fieldBit (diePwr s d).warn 15 + fieldBit (diePwr s d).crit 14 +
      sbyte (diePwr s d).temp
  | .dieFuse d => vat s.fuses.ocA d 0 * 2 ^ 16 + vat s.fuses.vmax d 0
  | .opV i => vat (vat s.fuses.vmin (i / 8) (Vector.replicate 8 0)) (i % 8) 0 * 2 ^ 16 + (diePwr s (i / 8)).mV
  | .rstCause => causeWord s.rst.cause
  | .wakeStep => wakeWord s.rst
  | .leaseStatus => leaseWord s.rst.lease
  | .fenceCount => s.rst.fenceCount.toNat
  | .rstPins => fieldBit s.rst.wdtExpired 3 + fieldBit s.rst.thermtrip 2 + fieldBit s.rst.faultN 1 + fieldBit s.rst.pkgGood 0
  | _ => 0

/-- Registers of STP and BWR; an RW field shows the last value that a write set, in force or not yet (R8). -/
def readHubC (s : State) (r : Reg) : Nat := match r with
  | .c0Phase => s.stp.c0PhaseNext.getD s.stp.c0Phase
  | .inflight => c0InFlight s * 2 ^ 16 + restInFlight s
  | .share p => ((partSt s p).shareNext.getD (partSt s p).share).toNat
  | .account p => (partSt s p).account.toNat
  | .c0Sheaves p => ((partSt s p).c0SheavesNext.getD (partSt s p).c0Sheaves).toNat
  | .qBase q => (queueSt s q).base.toNat
  | .qCtrl q => (queueSt s q).size.toNat * 2 ^ 28 + (queueSt s q).head * 2 ^ 16 + (queueSt s q).tail
  | .cqBase p => (partSt s p).cqBase.toNat
  | .cqCtrl p => (partSt s p).cqSize.toNat * 2 ^ 28 + (partSt s p).cqTail * 2 ^ 16 + (partSt s p).cqHead
  | .partStatus p => partNum (partSt s p).state * 2 ^ 30 + fieldBit (partSt s p).cfgErr 1 + fieldBit (partSt s p).dbErr 0
  | .bwrCapacity => 2944
  | .bwrSelect => s.bwr.select.toNat
  | .dlMiss => s.bwr.dlMiss.toNat
  | .dlDemoted => s.bwr.dlDemoted.toNat
  | .dlMissLast => s.bwr.dlMissLast.deadline.toNat * 2 ^ 40 + s.bwr.dlMissLast.doneBeat.toNat * 2 ^ 16 +
      s.bwr.dlMissLast.group.toNat * 2 ^ 8 + s.bwr.dlMissLast.master.toNat
  | .budget m => mget 0 s.bwr.last (64 * m + s.bwr.select.toNat) * 2 ^ 16 + budgetOf s m s.bwr.select.toNat
  | .violation m => (vat s.bwr.violation m 0).toNat
  | _ => 0

/-- Registers of SRV, RTK, WNW and TRL. -/
def readHubD (s : State) (fn : Nat) (r : Reg) : Nat := match r with
  | .ctxSel => (srvFn s fn).sel
  | .ctxStatus => (srvFn s fn).code.num.toNat * 2 ^ 16 + fieldBit (ctxOpen s (srvFn s fn).sel) 0
  | .truncLen => (srvFn s fn).truncLen.toNat
  | .cacheUse => (s.srv.opened.filter (·.c0)).length * 2 ^ 16 + s.srv.opened.length
  | .ctxData i => (vat (srvFn s fn).data i 0).toNat
  | .oldestBeat => oldestWalk s
  | .rtkActive => s.srv.walks.length
  | .walkReq => (srvFn s fn).walkReq.toNat
  | .walkStatus => (srvFn s fn).walkStatus.num.toNat * 2 ^ 16
  | .walkCount => s.srv.walkCount.toNat
  | .wnwRecords => s.srv.wnwRecords.toNat
  | .wnwDrafts => s.srv.wnwDrafts.toNat
  | .wnwAccepted => s.srv.wnwAccepted.toNat
  | .wnwErrors => s.srv.wnwErrors.toNat
  | .trlStatus => fieldBit s.trl.denied 0
  | .trlDropped => s.trl.dropped.toNat
  | .trlNoMatch => s.trl.noMatch.toNat
  | .slotOwner n => fieldBit (trlSlot s n).ownerValid 31 + (trlSlot s n).owner
  | .slotCfg n h => if h = 0 then bitsOf (trlSlot s n).cfgWord.toNat 36 0 else bitsOf (trlSlot s n).cfgWord.toNat 127 64
  | .pushAddr n => (trlSlot s n).pushAddr.toNat
  | .pushStamp n => (trlSlot s n).pushStamp.toNat
  | .slotState n h => slotStateWord (trlSlot s n) h
  | .superseded n => (trlSlot s n).superseded.toNat
  | _ => 0

/-- Registers of RHL, GLN and TEL. -/
def readHubE (s : State) (fn : Nat) (r : Reg) : Nat := match r with
  | .rhlStatus => memberCount s * 2 ^ 16 + ringNum (shownState s) * 2 ^ 13 + ownMaster s
  | .reshapeCount => s.rhl.reshapeCount.toNat
  | .reshapeLast => s.rhl.reshapeD.toNat * 2 ^ 40 + s.rhl.reshapeRank.toNat * 2 ^ 30 + s.rhl.reshapeLink.toNat
  | .collLast => s.rhl.collCode.num.toNat * 2 ^ 48 + s.rhl.collBeat.toNat * 2 ^ 24 + s.rhl.collPlan.toNat
  | .stray => s.rhl.stray.toNat
  | .wordBad => s.rhl.wordBad.toNat
  | .linkState l => (linkSt s l).code.num.toNat * 2 ^ 16 + linkNum (linkSt s l).state
  | .fecCorr l => (linkSt s l).fecCorr.toNat
  | .fecUncorr l => (linkSt s l).fecUncorr.toNat
  | .replay l => (linkSt s l).replay.toNat
  | .consensusPeer l h => fieldAt (linkSt s l).peerBytes (8 * h) 8
  | .glnStatus => fieldBit s.gln.wearBad 3 + fieldBit ((List.range 4).any fun d => !diePowered s d) 2 +
      fieldBit ((List.range 8).any fun t => stackTripped s t || s.pwr.diesDown) 1 + fieldBit s.gln.retrainActive 0
  | .stackPass => s.gln.stackPass.toNat
  | .stackCursor t => vat s.gln.cursor t 0
  | .grPass => s.gln.grPass.toNat
  | .grCe => s.gln.grCe.toNat
  | .grUe => s.gln.grUe.toNat
  | .patrolFix => s.gln.patrolFix.toNat
  | .retrainLast => s.gln.retrainLast
  | .ageSel => s.gln.ageSel
  | .ageData => mget 0 s.gln.age s.gln.ageSel
  | .telCtrl => fieldBit (telFn s fn).enable 31 + fieldBit (telFn s fn).all 30 + (telFn s fn).size.toNat * 2 ^ 24 +
      (telFn s fn).irqEvery.toNat
  | .telBase => (telFn s fn).base.toNat
  | .telRingCtrl => (telFn s fn).tail * 2 ^ 16 + (telFn s fn).head
  | .telDropped => (telFn s fn).dropped.toNat
  | _ => 0

/-- Registers of the compute dies. -/
def readDie (s : State) (fn : Nat) (r : Reg) : Nat := match r with
  | .dieInfo d => fieldBit (dieFailed s d) 31 + fieldBit (diePowered s d) 30 + d
  | .grnStatus d => fieldBit (sliceSt s d).quotaErr 2 + fieldBit (sliceSt s d).winErr 1 + fieldBit (sliceSt s d).deadread 0
  | .deadreadAddr d => fieldBit (sliceSt s d).drValid 63 + (sliceSt s d).drPart % 8 * 2 ^ 48 + (sliceSt s d).drAddr
  | .matchTie d => (sliceSt s d).matchTie.toNat
  | .mergeFull d => (sliceSt s d).mergeFull.toNat
  | .poolFull d => (sliceSt s d).poolFull.toNat
  | .streamActive d => sumN ((trackersOf (sliceSt s d)).zipIdx.map fun e => fieldBit (e.1.any (·.detected)) e.2)
  | .quota _ p => quotaWordOf (vat s.grn.quota p {})
  | .winBase _ n => (winShown s fn n).elim 0 (·.base)
  | .winLimit _ n => (winShown s fn n).elim 0 (·.limit)
  | .winCtrl _ n => (winShown s fn n).elim 0 winCtrlWord
  | .memStatus t =>
    let k := stackSt s t
    fieldBit (stackFailed s t) 31 + fieldBit k.trained 30 + fieldBit k.tempLost 3 + fieldBit k.tripped 2 + fieldBit k.warn 1 +
      fieldBit k.selfRefresh 0
  | .memTemp t => sbyte (stackSt s t).tempMax * 2 ^ 16 + fieldBit (stackSt s t).tempValid 15 + sbyte (stackSt s t).temp
  | .remapCount t => (stackSt s t).pprLast * 2 ^ 16 + (s.mem.remap.filter fun e => e.x / 64 == t && e.active).length
  | .remapFull t => (stackSt s t).remapFull.toNat
  | .ceCount t => (stackSt s t).ce.toNat
  | .ueCount t => (stackSt s t).ue.toNat
  | .parityCount t => (stackSt s t).parExhaust.toNat * 2 ^ 16 + (stackSt s t).parPass.toNat
  | .errAddr t => fieldBit (stackSt s t).errValid 63 + (stackSt s t).errCause * 2 ^ 60 + (stackSt s t).errAddr
  | .chFail t => if stackFailed s t then 2 ^ 64 - 1 else (stackSt s t).chFail.toNat
  | .refreshMult t => (stackSt s t).mult
  | .fabStatus d => fieldBit (dieFailed s d) 31 + fieldBit (fabDie s d).reloading 30 + (fabDie s d).reloads % 4 * 2 ^ 16
  | .checkLast d => (fabDie s d).lastFrame.toNat * 2 ^ 32 + fieldBit (fabDie s d).lastBeatBad 2 + fieldBit (fabDie s d).lastWinBad 1 +
      fieldBit (fabDie s d).lastFixedBad 0
  | .fixedCrc d => (fabDie s d).fixedCrc.toNat
  | .fixedCrcRef d => (fabDie s d).fixedCrcRef.toNat
  | .seamSpare d => (fabDie s d).seamEW * 2 ^ 8 + (fabDie s d).seamWE
  | .escapeUse d c => (vat (fabDie s d).escapeUse c 0).toNat
  | .thrPoison d => (fabDie s d).thrPoison.toNat
  | .tileMap k => fieldBit (vat s.tile.sheafFailed k false) 31 + vat s.tile.failedTile k 0x1F * 2 ^ 16 + vat s.tile.spare k 16
  | .groupFault k =>
    let g := vat s.tile.groupFault k {}
    g.code.toNat * 2 ^ 48 + g.tile.toNat * 2 ^ 44 + g.slot.toNat * 2 ^ 41 + fieldBit g.valid 40 + g.pc.toNat
  | .fetchMiss k => (vat s.tile.fetchMiss k 0).toNat
  | _ => 0

/-- What a register reads as (R11, R656): each of the readers answers 0 for the registers of the others. -/
def readReg (s : State) (fn : Nat) (r : Reg) : Nat :=
  if silent s r then 0 else readHubA s fn r + readHubB s r + readHubC s r + readHubD s fn r + readHubE s fn r + readDie s fn r

/-- What a 32-bit or 64-bit read at an aligned offset of a function's BAR0 returns (R657, R658); reserved locations read 0 (R11). The
effects of reading TMP_BEAT_NOW are those of its own commands (R40). -/
def readBar0 (s : State) (fn off size : Nat) : Nat :=
  let word := fun o => match (regAt s fn (o / 8 * 8)).filter Reg.wide with
    | some r => readReg s fn r / 2 ^ (32 * (o / 4 % 2)) % 2 ^ 32
    | none => (regAt s fn o).elim 0 (readReg s fn)
  if size = 8 then word off + 2 ^ 32 * word (off + 4) else word off

end Sys2Proof.Machine
end

