-- ==== Sys2Proof/Machine/RegisterCmds.lean ====
section
/-! DEFINITION. REGISTER_WRITE (R8 to R12, R657, R658): what a write of each register does. Registers with commands of their own act
through the same operations. -/

namespace Sys2Proof.Machine

/-- Bits that a write of 1 clears (W1C of Table 0-4). -/
def w1c (v i : Nat) (old : Bool) : Bool := old && !bitOf v i

/-- What the unmasking of a vector delivers: its pending message leaves (R573). -/
def deliver (s : State) (fn vec : Nat) : State :=
  let k := msixKey fn (0x8000 + 4 * (vec / 32))
  let w := mget 0 s.hif.msix k
  if !msixMasked s fn vec && w.getLsbD (vec % 32) then
    (s.modHif fun h => { h with msix := mset 0 h.msix k (w &&& ~~~(BitVec.ofNat 32 (2 ^ (vec % 32)))) }).signal fn vec
  else s

/-- A write of a word of the MSI-X table; of a vector control word only the mask bit is kept. -/
def writeMsix (s : State) (fn o v : Nat) : State :=
  let w : W32 := if o % 16 = 12 then BitVec.ofNat 32 (1 - v % 2) else BitVec.ofNat 32 v
  deliver (s.modHif fun h => { h with msix := mset 0 h.msix (msixKey fn o) w }) fn (o / 16)

/-- A write of STP_CQ_CTRL[p] (R351, R368): another SIZE_LOG2 is a change of the ring, else HEAD is taken. -/
def writeCqCtrl (s : State) (fn p v : Nat) : State :=
  if h : p < 8 then
    let size := BitVec.ofNat 4 (v / 2 ^ 28)
    if size ≠ (partSt s p).cqSize then writeQueueCfg s fn (.cqSize ⟨p, h⟩ size)
    else if mayPart s fn p then s.modPart p fun q => { q with cqHead := v % 4096 } else s
  else s

/-- A write of a queue register, by its number. -/
def writeQueueReg (s : State) (fn q : Nat) (f : Fin 32 → QueueCfg) : State :=
  if h : q < 32 then writeQueueCfg s fn (f ⟨q, h⟩) else s

/-- A write of STP_CQ_BASE[p]. -/
def writeCqBase (s : State) (fn p v : Nat) : State :=
  if h : p < 8 then writeQueueCfg s fn (.cqBase ⟨p, h⟩ (BitVec.ofNat 64 v)) else s

/-- A write of SLD_CTRL (Table 3-10): without GO it sets the RW fields. -/
def writeSldCtrl (s : State) (v : Nat) : State :=
  let op := BitVec.ofNat 2 v
  let src := BitVec.ofNat 2 (v / 16)
  if bitOf v 31 then startSld s op src (bitOf v 9) else s.modSld fun l => { l with op := op, src := src, keepMem := bitOf v 9 }

/-- A telemetry ring of another size starts at its first record; a SIZE_LOG2 outside 4 to 12 is not taken (R548, log 149). -/
def TelFn.resize (x : TelFn) (size : BitVec 4) : TelFn :=
  if ringSizeOk size && size != x.size then { x with size := size, tail := 0, head := 0, phase := true } else x

/-- A write of TEL_CTRL (Table 15-4): ALL is the PF's. -/
def writeTelCtrl (s : State) (fn v : Nat) : State :=
  s.modTel fun t => { t with fn := vmodN t.fn fn fun x =>
                                { x.resize (BitVec.ofNat 4 (v / 2 ^ 24)) with
                                  enable := bitOf v 31, all := bitOf v 30 && fn == 0, irqEvery := BitVec.ofNat 16 v } }

/-- Writes of HIF and SLD. -/
def writeHubA (s : State) (fn : Nat) (r : Reg) (v : Nat) : State := match r with
  | .hifBar2Off => s.modFn fn fun h => { h with bar2Off := BitVec.ofNat 64 (v / 4096 * 4096) }
  | .dmaHost e => s.modDma e fun d => { d with host := BitVec.ofNat 64 v }
  | .dmaDev e => s.modDma e fun d => { d with dev := BitVec.ofNat 64 v }
  | .dmaLen e => s.modDma e fun d => { d with len := BitVec.ofNat 32 v }
  | .dmaCtrl e => writeDmaCtrl s fn e v
  | .dmaStatus e => s.modDma e fun d => { d with reject := w1c v 14 d.reject }
  | .msixTable o => writeMsix s fn o v
  | .sldCtrl => writeSldCtrl s v
  | .sldStatus => s.modSld fun l => { l with reject := w1c v 14 l.reject }
  | .sldSrcAddr => s.modSld fun l => { l with srcAddr := BitVec.ofNat 64 v }
  | .sldSrcLen => s.modSld fun l => { l with srcLen := BitVec.ofNat 32 v }
  | .sldBoot => s.modSld fun l => { l with bank := bitOf v 0 }
  | _ => s

/-- Writes of PWR, RST, STP and BWR. -/
def writeHubB (s : State) (fn : Nat) (r : Reg) (v : Nat) : State := match r with
  | .capHost => writeCapHost s fn v
  | .stateHost => writeStateHost s fn v
  | .pwrEvent => if fn = 0 then s.modPwr fun p => { p with event := p.event &&& ~~~(BitVec.ofNat 7 v) } else s
  | .rstCtrl => writeRstCtrl s fn v
  | .c0Phase => writeC0Phase s fn v
  | .doorbell p => doorbellWrite s fn false p (BitVec.ofNat 32 v)
  | .share p => writeShare s fn p v
  | .c0Sheaves p => writeC0Sheaves s fn p (BitVec.ofNat 64 v)
  | .qBase q => writeQueueReg s fn q fun q => .qBase q (BitVec.ofNat 64 v)
  | .qCtrl q => writeQueueReg s fn q fun q => .qSize q (BitVec.ofNat 4 (v / 2 ^ 28))
  | .cqBase p => writeCqBase s fn p v
  | .cqCtrl p => writeCqCtrl s fn p v
  | .partStatus p => if mayPart s fn p then s.modPart p fun q => { q with cfgErr := w1c v 1 q.cfgErr, dbErr := w1c v 0 q.dbErr } else s
  | .partCtrl p => if fn = 0 ∧ bitOf v 31 = true then partReset s p 5 else s
  | .bwrSelect => s.modBwr fun b => { b with select := BitVec.ofNat 6 v }
  | _ => s

/-- Writes of SRV, RTK, TRL, GLN and TEL. -/
def writeHubC (s : State) (fn : Nat) (r : Reg) (v : Nat) : State := match r with
  | .ctxSel => s.modSrvFn fn fun x => { x with sel := v % 16384 }
  | .ctxCmd => match v % 4 with
    | 1 => ctxRead s fn
    | 2 => ctxWrite s fn
    | 3 => ctxTruncate s fn
    | _ => s
  | .truncLen => s.modSrvFn fn fun x => { x with truncLen := BitVec.ofNat 64 v }
  | .ctxData i => s.modSrvFn fn fun x => { x with data := vmodN x.data i fun _ => BitVec.ofNat 32 v }
  | .walkReq => s.modSrvFn fn fun x => { x with walkReq := BitVec.ofNat 64 v }
  | .walkGo => if bitOf v 0 then walkGo s fn else s
  | .trlStatus => s.modTrl fun t => { t with denied := w1c v 0 t.denied }
  | .slotOwner n => trlSetOwner s fn n (BitVec.ofNat 32 v)
  | .slotCfg n h =>
    let w := (trlSlot s n).cfgStage.toNat
    trlConfigure s fn n (BitVec.ofNat 128 (if h = 1 then v * 2 ^ 64 + w % 2 ^ 64 else w / 2 ^ 64 * 2 ^ 64 + v))
  | .pushAddr n => if trlOwner s fn n then s.modTrlSlot n fun t => { t with pushAddr := BitVec.ofNat 64 v } else trlDenied s
  | .pushStamp n => if trlOwner s fn n then s.modTrlSlot n fun t => { t with pushStamp := BitVec.ofNat 64 v } else trlDenied s
  | .push n => trlPushTo s fn n v
  | .ageSel => s.modGln fun g => { g with ageSel := v % 2048 }
  | .telCtrl => writeTelCtrl s fn v
  | .telBase => s.modTel fun t => { t with fn := vmodN t.fn fn fun x => { x with base := BitVec.ofNat 64 (v / 4096 * 4096) } }
  | .telRingCtrl => s.modTel fun t => { t with fn := vmodN t.fn fn fun x => { x with head := v % 4096 } }
  | _ => s

/-- Writes of the compute dies. -/
def writeDie (s : State) (fn : Nat) (r : Reg) (v : Nat) : State := match r with
  | .grnStatus d => s.modSlice d fun x => { x with quotaErr := w1c v 2 x.quotaErr, winErr := w1c v 1 x.winErr, deadread := w1c v 0 x.deadread }
  | .deadreadAddr d => s.modSlice d fun x => { x with drValid := w1c v 63 x.drValid }
  | .matchTie d => if bitOf v 31 then s.modSlice d fun x => { x with matchTie := 0 } else s
  | .quota d p => writeQuota s fn d p (BitVec.ofNat 32 v)
  | .winBase d n => stageWindow s fn d n false v
  | .winLimit d n => stageWindow s fn d n true v
  | .winCtrl d n => controlWindow s fn d n (BitVec.ofNat 32 v)
  | .errAddr t => s.modStack t fun k => { k with errValid := w1c v 63 k.errValid }
  | .groupFault k => s.modTile fun t => { t with groupFault := vmodN t.groupFault k fun g => { g with valid := w1c v 40 g.valid } }
  | _ => s

/-- A write of a register by a function: each of the writers acts on its own registers; a read-only one ignores it (R8), and so does
a register of a die that is powered down or failed (R656). -/
def writeReg (s : State) (fn : Nat) (r : Reg) (v : Nat) : State :=
  if silent s r then s else writeDie (writeHubC (writeHubB (writeHubA s fn r v) fn r v) fn r v) fn r v

/-- What the half of a 64-bit register that a 32-bit write leaves alone is written with: its RW content; no bit where it holds a
flag that a write of 1 clears. -/
def keptHalf (s : State) (fn : Nat) (r : Reg) : Nat := match r with
  | .deadreadAddr _ | .errAddr _ | .groupFault _ => 0
  | .winBase _ n => ((vat s.grn.stage n {}).base).getD (vat s.grn.win n {}).base
  | .winLimit _ n => ((vat s.grn.stage n {}).limit).getD (vat s.grn.win n {}).limit
  | .slotCfg n h => bitsOf (trlSlot s n).cfgStage.toNat (64 * h + 63) (64 * h)
  | r => readReg s fn r

/-- A 32-bit write at an aligned offset. -/
def writeWord (s : State) (fn off v : Nat) : State :=
  match (regAt s fn (off / 8 * 8)).filter Reg.wide with
  | some r =>
    let old := keptHalf s fn r
    writeReg s fn r (if off % 8 = 0 then old / 2 ^ 32 * 2 ^ 32 + v else v * 2 ^ 32 + old % 2 ^ 32)
  | none => match regAt s fn off with
    | some r => writeReg s fn r v
    | none => s

/-- A write of a register of BAR0 (R657): a size or alignment that BAR0 does not take is a BAR_RANGE access. -/
def writeBar0 (s : State) (fn off size : Nat) (v : W64) : State :=
  if (size = 4 ∧ off % 4 = 0) then writeWord s fn off (v.toNat % 2 ^ 32)
  else if size = 8 ∧ off % 8 = 0 then
    match (regAt s fn off).filter Reg.wide with
    | some r => writeReg s fn r v.toNat
    | none => writeWord (writeWord s fn off (v.toNat % 2 ^ 32)) fn (off + 4) (v.toNat / 2 ^ 32)
  else s.barRange fn 0 off

/-- REGISTER_WRITE (R8, R657). -/
def execRegisterWrite (fn : Fn) (off size : Nat) (value : W64) (s : State) : Host.Outcome State Fault Refusal :=
  settled (hostAccess s fn fun s => writeBar0 s fn off size value)

end Sys2Proof.Machine
end

