-- ==== Sys2Proof/Machine/TrayOps.lean ====
section
/-! DEFINITION. What Larkspur's commands share (17): the slots it sees, BOARD caps and states, slot power, gates, banks. The modelled
package sits in `tray.pkgSlot`: for that slot Larkspur's acts reach the package; for any other slot they leave as outputs. -/

namespace Sys2Proof.Machine

/-! ## Slots -/

/-- Larkspur's record of a slot. -/
def slotSt (s : State) (k : Nat) : Slot := vat s.tray.slot k {}

/-- Changes the record of a slot. -/
def State.modSlot (s : State) (k : Nat) (f : Slot → Slot) : State := s.modTray fun t => { t with slot := vmodN t.slot k f }

/-- The modelled package sits in this slot. -/
def isPkg (s : State) (k : Nat) : Bool := (s.tray.pkgSlot.map (·.val)) == some k

/-- The slot's rails are on: of the modelled package, AON. -/
def slotOn (s : State) (k : Nat) : Bool := if isPkg s k then s.rst.aon else (slotSt s k).powered

/-- The standing orders of a slot: those its package holds, or the record while it is unpowered (R593). -/
def slotOrders (s : State) (k : Nat) : Orders := if isPkg s k && s.rst.aon then s.pwr.orders else (slotSt s k).orders

/-- Levels of the pins of a slot's package. -/
def slotGood (s : State) (k : Nat) : Bool := if isPkg s k then s.rst.pkgGood else (slotSt s k).pkgGood
def slotFaultN (s : State) (k : Nat) : Bool := if isPkg s k then s.rst.faultN else (slotSt s k).faultN
def slotThermN (s : State) (k : Nat) : Bool := if isPkg s k then !s.rst.thermtrip else (slotSt s k).thermtripN

/-- The gate's fixed logic term (17, Bypass gates). -/
def gateOpen (s : State) (k : Nat) : Bool := slotGood s k && (slotSt s k).present && (slotSt s k).openEn

/-- MAX_COOL (R604). -/
def maxCool (s : State) : Bool := (List.range 8).any (fun k => !slotThermN s k) || s.tray.strapBad || s.tray.wdHold

/-- The eight slots, lowest first. -/
def slots : List Nat := List.range 8

/-- Acts of Larkspur firmware happen only while it runs. -/
def larkspur (s : State) (f : State → State) : State := if s.tray.started then f s else s

/-- The bin that matches COOL_CLASS (R583). -/
def classBin (s : State) : Bin := if s.tray.liquid then .yp4L else .yp4A

/-- The bin that the package in a slot shows on BIN_ID. -/
def slotBin (s : State) (k : Nat) : Bin := if isPkg s k then s.fuses.bin else (slotSt s k).bin

/-- A package of the tray's own bin is in the slot (R3, R583, R584). -/
def slotFits (s : State) (k : Nat) : Bool := (slotSt s k).present && slotBin s k == classBin s

/-! ## BOARD caps and states (R588 to R590, Table 17-2) -/

/-- The tray's rated input in watts (Table 17-1). -/
def ratedInput (s : State) : Nat := if s.tray.liquid then 15000 else 7800

/-- The tray input limit: the rated input until the operator sets it. -/
def inputLimit (s : State) : Nat := s.tray.inputLimit.getD (ratedInput s)

/-- The class limit of a slot (Table 17-2). -/
def classLimit (s : State) : Nat :=
  if s.tray.liquid then 1800
  else match (s.tray.fanFailed.toList.filter id).length with
    | 0 => 900
    | 1 => 600
    | _ => 300

/-- The slots that R588 counts: a package is in the slot and its effective state is above OFF. -/
def countsInput (s : State) (k : Nat) : Bool := slotFits s k && effStateOf (slotOrders s k) != .off

/-- The input share over n slots (R588). -/
def shareOf (s : State) (n : Nat) : Nat := (inputLimit s - 600) / n

/-- The BOARD cap that Larkspur gives every slot (R588). -/
def boardCapOf (s : State) : Nat :=
  match (slots.filter (countsInput s)).length with
  | 0 => classLimit s
  | n => min (classLimit s) (shareOf s n)

/-- Changes the orders of a slot; the package itself acts on them while it is powered. -/
def State.slotOrder (s : State) (k : Nat) (f : Orders → Orders) : State :=
  if isPkg s k && s.rst.aon then s.order f else s.modSlot k fun x => { x with orders := f x.orders }

/-- Tells the package of another slot of an order while it is powered (R591). -/
def State.tell (s : State) (k : Nat) (o : Relay) : State := if !isPkg s k && slotOn s k then s.emit (.relay k o) else s

/-- Sets a slot's BOARD state. -/
def State.setBoardState (s : State) (k : Nat) (v : PState) : State :=
  if (slotOrders s k).board = v then s else (s.slotOrder k fun o => { o with board := v }).tell k (.boardState v)

/-- Sets a slot's BOARD cap; the package refuses one outside its range (R476). -/
def State.setBoardCap (s : State) (k w : Nat) : State :=
  if (slotOrders s k).capBoard = w ∨ ¬(300 ≤ w ∧ w ≤ binMax (slotBin s k)) then s
  else (s.slotOrder k fun o => { o with capBoard := w }).tell k (.boardCap w)

/-- The state that BOARD orders for a slot (R589, R590). -/
def boardStateOf (s : State) (k : Nat) : PState := if s.tray.inputOk && !(slotSt s k).shed then .run else .off

/-- BOARD OFF for a slot by the input share. -/
def shedSlot (s : State) (k : Nat) : State :=
  let s := s.modSlot k fun x => { x with shed := true }
  s.setBoardState k (boardStateOf s k)

/-- Sheds powered slots in descending order while the share is below 300 W (R589). -/
def shedSlots (s : State) : Nat → State
  | 0 => s
  | n + 1 =>
    let on := slots.filter (countsInput s)
    if on.isEmpty || decide (300 ≤ shareOf s on.length) then s
    else match (on.filter (slotOn s)).getLast? with
      | none => s
      | some k => shedSlots (shedSlot s k) n

/-- Raises the BOARD order of shed slots in ascending order where the share allows (R589). -/
def unshedSlots (s : State) : State :=
  s.each slots fun s k =>
    if (slotSt s k).shed then
      let s' := s.modSlot k fun x => { x with shed := false }
      let up := s'.setBoardState k (boardStateOf s' k)
      let n := (slots.filter (countsInput up)).length
      if n = 0 ∨ 300 ≤ shareOf up n then up else s
    else s

/-- Recomputes the BOARD orders (R588 to R590). -/
def settleBoard (s : State) : State :=
  let s := s.each slots fun s k => if slotFits s k then s.setBoardState k (boardStateOf s k) else s
  let s := unshedSlots (shedSlots s 8)
  s.each slots fun s k => if slotFits s k then s.setBoardCap k (boardCapOf s) else s

/-! ## Slot power (R583, R586, R593, R594, R613) -/

/-- RESET_N of the modelled package is released; the wake begins once PERST# is high too (R650). -/
def releaseN (s : State) : State :=
  if s.rst.perst then releaseReset s else if pinsLive s then s.modRst fun r => { r with resetN := true } else s

/-- Orders restored after a COLD reset: a rack OFF order stands without a grace time (R586). -/
def Orders.restored (o : Orders) : Orders := { o with rackBefore := .run, offLeft := none }

/-- What Larkspur writes to a package after a COLD reset (R586): tray ID and slot, the standing orders, the boot selection. -/
def introduce (s : State) (k : Nat) : State :=
  let x := slotSt s k
  if isPkg s k then
    let s := s.tray.trayId.elim s fun id => s.writeRank id k
    let s := s.order fun _ => x.orders
    releaseN (s.modSld fun l => { l with bank := x.sldBank })
  else
    let o := x.orders
    let s := s.tray.trayId.elim s fun id => s.emit (.relay k (.trayId id))
    ((((s.emit (.relay k (.cap true o.capRack))).emit (.relay k (.state true o.rack none false))).emit
      (.relay k (.cap false (some o.capHost)))).emit (.relay k (.state false o.host none false))).each
      [.boardCap o.capBoard, .boardState o.board, .boot x.hubBank x.sldBank] fun s r => s.emit (.relay k r)

/-- Powers a slot with a COLD reset (R583, R586, R593); the bus starts as I3C. -/
def powerSlot (s : State) (k : Nat) : State :=
  let s := s.modSlot k fun x => { x with smbus := false }
  if isPkg s k then introduce (coldReset s) k
  else introduce ((s.modSlot k fun x => { x with powered := true, faultN := true }).emit (.slotPower k true)) k

/-- RST_PINS (Table 14-6). -/
def pinsWord (s : State) : Nat := readHubB s .rstPins

/-- The words Larkspur reads of a slot's package over the side-band (R529, R613); those of another package are free (log 2). -/
def resetWords (s : State) (k : Nat) : W32 × W32 × W32 :=
  if isPkg s k then (BitVec.ofNat 32 (causeWord s.rst.cause), BitVec.ofNat 32 (wakeWord s.rst), BitVec.ofNat 32 (pinsWord s))
  else ((freeVal s).setWidth 32, (Config.freeWord (s.free + 1)).setWidth 32, (Config.freeWord (s.free + 2)).setWidth 32)

/-- Keeps LAST_CAUSE of a powered slot before its rails go (R613). -/
def noteCause (s : State) (k nowMs : Nat) : State :=
  let w := resetWords s k
  (s.modSlot k fun x => { x with lastCause := some { cause := w.1, wakeStep := w.2.1, pins := w.2.2, atMs := nowMs } }).modFree (· + 3)

/-- Every rail of a slot goes, AON included. -/
def railsOut (s : State) (k : Nat) : State :=
  if isPkg s k then
    let o := s.pwr.orders.restored
    aonLoss (s.modSlot k fun x => { x with orders := o })
  else ((s.modSlot k fun x => { x with powered := false, orders := x.orders.restored })).emit (.slotPower k false)

/-- Larkspur removes every rail of a slot (R594, R613). -/
def removePower (s : State) (k nowMs : Nat) : State := if slotOn s k then railsOut (noteCause s k nowMs) k else s

/-- Larkspur may power the slot: the bin fits, the strap is good, the effective state is above OFF. -/
def mayPower (s : State) (k : Nat) : Bool :=
  s.tray.started && !s.tray.strapBad && slotFits s k && !slotOn s k && effStateOf (slotOrders s k) != .off

/-- Makes a change, recomputes the BOARD orders, and powers the slots whose effective state rose above OFF by it (R593). -/
def trayChange (s : State) (f : State → State) : State :=
  let s' := settleBoard (f s)
  s'.each slots fun s' k => if mayPower s' k && !mayPower s k then powerSlot s' k else s'

/-! ## Orders over Larkspur (R591 to R593) -/

/-- A status code Larkspur answers (R609). -/
def State.answer (s : State) (c : Code) : State := s.emit (.response c)

/-- An answer whose code the manual does not state (log 2). -/
def State.answerOpen (s : State) : State := (s.emit (.responseOpen ((freeVal s).setWidth 16))).drawn

/-- R475 to R477 on the orders of a slot, as Larkspur applies them (R593). -/
def capOrder (b : Bin) (rack : Bool) (w : Option Nat) (o : Orders) : Orders × Code := match w with
  | none => (if rack then { o with capRack := none } else o, .ok)
  | some w =>
    if w < 300 ∨ binMax b < w then (o, .capRange)
    else if rack then ({ o with capRack := some w }, .ok)
    else if o.capRack.any (· < w) then (o, .rackHold) else ({ o with capHost := w }, .ok)

/-- R483 to R488 on the orders of a slot; while the slot is unpowered no grace time applies (R593). -/
def stateOrder (on rack : Bool) (v : PState) (grace : Option Nat) (force : Bool) (o : Orders) : Orders × Code :=
  if rack then
    (if on && v == .off && !force then o.rackOff (grace.getD 10) else o.rackPlain v, .ok)
  else if pnum v < pnum o.rack then (o, .rackHold) else ({ o with host := v }, .ok)

/-- A cap order of the rack or the host for a slot (R591 to R593). -/
def slotCap (s : State) (k : Nat) (rack : Bool) (w : Option Nat) : State :=
  if isPkg s k && s.rst.aon then
    let r := if rack then rackCap s w else w.elim (s, .ok) fun w => hostCap s w
    r.1.answer r.2
  else
    let r := capOrder (slotBin s k) rack w (slotSt s k).orders
    ((s.modSlot k fun x => { x with orders := r.1 }).tell k (.cap rack w)).answer r.2

/-- A state order of the rack or the host for a slot (R591 to R593). -/
def slotState (s : State) (k : Nat) (rack : Bool) (v : PState) (grace : Option Nat) (force : Bool) : State :=
  if isPkg s k && s.rst.aon then
    let r := if rack then rackState s v grace force else hostState s v
    r.1.answer r.2
  else
    let r := stateOrder (slotOn s k) rack v grace force (slotSt s k).orders
    ((s.modSlot k fun x => { x with orders := r.1 }).tell k (.state rack v grace force)).answer r.2

/-! ## Resets of a slot (R609, R611) -/

/-- RESET_N asserted for 10 ms (Table 17-3): a PKG reset, after which the bus starts as I3C. -/
def resetSlot (s : State) (k : Nat) : State :=
  if !slotOn s k then s
  else
    let s := s.modSlot k fun x => { x with smbus := false, faultN := true }
    if isPkg s k then releaseN (pkgReset s false 10000000) else s.emit (.relay k .reset)

/-- Larkspur leaves a slot in reset (R611): RESET_N stays asserted. -/
def holdSlot (s : State) (k : Nat) : State := if isPkg s k then pkgReset s false 10000000 else s.tell k .hold

/-- Every slot rail off for 1 s, then a COLD reset (Table 17-3). -/
def coldSlot (s : State) (k nowMs : Nat) : State :=
  let s := removePower s k nowMs
  if slotFits s k && !s.tray.strapBad then powerSlot s k else s

/-! ## Gates (R595 to R598) -/

/-- Larkspur sets OPEN_EN where PKG_GOOD is high and the gate is neither forced nor held (R596). -/
def openGate (s : State) (k : Nat) : State :=
  let x := slotSt s k
  if slotGood s k && x.present && !x.forced && !x.held then s.modSlot k fun x => { x with openEn := true } else s

/-- Times of the last span up to now, this one first. -/
def recent (times : List Nat) (now span : Nat) : List Nat := now :: times.filter fun t => decide (now ≤ t + span)

/-! ## Banks (R616 to R620) -/

/-- The hub of the modelled package runs and answers over the side-band. -/
def hubRuns (s : State) : Bool := s.rst.aon && !s.rst.wdtExpired && (s.rst.done || (s.rst.wake.isSome && decide (6 < s.rst.step)))

/-- Larkspur reaches the flash of a slot: through the running hub, or through the SPI mux while RESET_N is held (R617). -/
def flashReach (s : State) (k : Nat) : Bool := if isPkg s k then hubRuns s || (s.rst.aon && !s.rst.resetN) else slotOn s k

/-- The bank selections of a slot: HUB_BANK and the SLD_BOOT.BANK that Larkspur selected. -/
def hubBankOf (s : State) (k : Nat) : Bool := if isPkg s k then s.flash.hubBank else (slotSt s k).hubBank

/-- Writes HUB_BANK and SLD_BOOT.BANK of a slot (R617). -/
def selectBanks (s : State) (k : Nat) (hub sld : Bool) : State :=
  let s := s.modSlot k fun x => { x with hubBank := hub, sldBank := sld }
  if isPkg s k then
    let s := s.modFlash fun f => { f with hubBank := hub }
    if s.rst.aon then s.modSld fun l => { l with bank := sld } else s
  else s.tell k (.boot hub sld)

/-- The bank selected for a component. -/
def selectedBank (s : State) (c : Component) : Bool := match c with
  | .larkspur => s.tray.lkBank
  | .hub k => hubBankOf s k
  | .bitstream k => (slotSt s k).sldBank

/-- Selects a bank of a component. -/
def selectBank (s : State) (c : Component) (b : Bool) : State := match c with
  | .larkspur => s.modTray fun t => { t with lkBank := b }
  | .hub k => selectBanks s k b (slotSt s k).sldBank
  | .bitstream k => selectBanks s k (hubBankOf s k) b

/-- The slot of a component. -/
def compSlot (c : Component) : Option Nat := match c with
  | .larkspur => none
  | .hub k => some k
  | .bitstream k => some k

/-- Starts a component from the bank selected for it: a Larkspur restart, or RESET_PKG (Table 17-6). -/
def restartComp (s : State) (c : Component) : State := match compSlot c with
  | none => s.modTray fun t => { t with started := false }
  | some k => resetSlot s k

/-- The bank that a component runs from; updates write the other one. -/
def runningBank (s : State) (c : Component) : Bool := match c with
  | .larkspur => s.tray.lkBank
  | .hub k => if isPkg s k then s.rst.fwBank else (slotSt s k).hubBank
  | .bitstream k => (slotSt s k).sldBank != (isPkg s k && s.sld.fallback)

/-- Writes an image to the inactive bank of a component (17, Firmware update). -/
def writeImage (s : State) (c : Component) (image : List Byte) : State :=
  let b := !runningBank s c
  match c with
  | .larkspur => s.modTray fun t => { t with lkImage := vmodN t.lkImage (b2n b) fun _ => some image }
  | .hub k => if isPkg s k then s.modFlash fun f => { f with hubImage := vmodN f.hubImage (b2n b) fun _ => some image }
    else s.tell k (.image true b image)
  | .bitstream k => if isPkg s k then s.modFlash fun f => { f with structImage := vmodN f.structImage (b2n b) fun _ => some image }
    else s.tell k (.image false b image)

/-- The checks Larkspur makes before it writes an image (R618). -/
def imageGood (c : Component) (image : List Byte) (sigOk : Bool) : Bool := match c with
  | .bitstream _ => (headStep 2 .hdrBad (headerChecks (image.take 256) none)).isNone
  | _ => sigOk

/-- Larkspur reaches the flash of a component. -/
def compReach (s : State) (c : Component) : Bool := (compSlot c).all (flashReach s)

/-- A component belongs to the last set it was put in. -/
def without (c : Component) (l : List (Component × Bool)) : List (Component × Bool) := l.filter fun e => e.1 != c

/-- Selects the banks of a set, which then stands under health check with the banks selected before. -/
def activate (s : State) (set : List (Component × Bool)) : State :=
  let was := set.map fun e => (e.1, selectedBank s e.1)
  (s.each set fun s e => selectBank s e.1 e.2).modTray fun t =>
    { t with active := (t.active.map fun l => set.foldl (fun l e => without e.1 l) l) ++ [was] }

/-- An update that is written whole (R619): IMMEDIATE selects the bank and starts it, STAGED joins the set. -/
def update (s : State) (c : Component) (image : List Byte) (staged : Bool) : State :=
  let b := !runningBank s c
  let s := writeImage s c image
  if staged then s.modTray fun t => { t with staged := without c t.staged ++ [(c, b)] }
  else restartComp (activate s [(c, b)]) c

/-- The staged set activates at a tray power cycle (R619): every bank is selected before any slot is powered. -/
def activateStaged (s : State) : State :=
  let set := s.tray.staged
  if set.isEmpty then s else activate (s.modTray fun t => { t with staged := [] }) set

/-- A component fails its health check: its whole set goes back to the banks before (R620, Table 17-6). -/
def rollBack (s : State) (c : Component) : State :=
  match s.tray.active.find? fun l => l.any fun e => e.1 == c with
  | none => s
  | some set =>
    let s := s.modTray fun t => { t with active := t.active.filter (· != set) }
    let s := s.each set fun s e => selectBank s e.1 e.2
    (s.each set fun s e => match e.1 with
      | .bitstream _ => s
      | c => restartComp s c).emit (.rollback c)

/-- Larkspur restarts with the staged set selected, after every slot has lost its rails (R619). -/
def cycleTray (s : State) : State := (activateStaged s).modTray fun t => { t with started := false }

/-! ## Cooling (R602, R603) -/

/-- The hottest tile and stack temperature that the modelled package holds. -/
def pkgHottest (s : State) : Option Int :=
  let tiles := (idx 4 (diePowered s)).map fun n => (diePwr s n).temp
  let stackTemps := s.mem.stack.toList.filterMap fun t => if t.tempValid then some t.temp else none
  match tiles ++ stackTemps with
  | [] => none
  | t :: ts => some (ts.foldl max t)

/-- The fraction of R602 in thirtieths for a temperature. -/
def coolFraction (t : Int) : Nat := (min 30 (max 0 (t - 60))).toNat

/-- The temperature that counts for a slot: 95 °C where none is valid for 1 s (R603), nothing where it is unpowered. -/
def coolTemp (s : State) (k : Nat) (read : Option Int) : Option Int :=
  if slotOn s k then some ((read.map fun t => if isPkg s k then (pkgHottest s).getD t else t).getD 95) else none

/-- The fraction for the hottest of some slots. -/
def coolOf (s : State) (temps : List (Option Int)) (ks : List Nat) : Nat :=
  maxN (ks.map fun k => ((coolTemp s k ((temps[k]?).getD none)).map coolFraction).getD 0)

end Sys2Proof.Machine
end

