-- ==== Sys2Proof/Machine/TrayCmds.lean ====
section
/-! DEFINITION. Larkspur's events (17): its start, slots and gates, power entry, the tempo reference, cooling, recovery, MCTP routing. -/

namespace Sys2Proof.Machine

/-! ## Start and slots (R581 to R587, R595 to R598) -/

/-- A package of the wrong bin is in a slot (R3, R584): it is reported, and nothing powers it. -/
def wrongBin (s : State) (k : Nat) : State :=
  let s := (s.modSlot k fun x => { x with binMismatch := true }).emit (.report (some k) .binMismatch)
  if slotOn s k then railsOut s k else s

/-- Larkspur holds the bins in the slots against COOL_CLASS as it has read it (R583, R584). -/
def checkBins (s : State) : State :=
  s.each slots fun s k => if (slotSt s k).present && !slotFits s k then wrongBin s k else s.modSlot k fun x => { x with binMismatch := false }

/-- Larkspur starts (R581, R582, R597): it reads the strap, sets OPEN_EN again where a gate may open, and powers the slots. -/
def startLarkspur (s : State) (strap : Nat) : State :=
  let s := s.modTray fun t => { t with started := true, strapBad := decide (1 < strap), liquid := strap == 1 }
  let s := if 1 < strap then s.emit (.report none .classStrapBad) else checkBins s
  let s := settleBoard (s.each slots openGate)
  s.each slots fun s k => if mayPower s k then powerSlot s k else s

/-- LARKSPUR_START (R581). -/
def execLarkspurStart (strap : Nat) (s : State) : Host.Outcome State Fault Refusal := .next (startLarkspur s strap)

/-- The bin can be the one read: the modelled package shows its own. -/
def binPossible (s : State) (k : Nat) (b : Bin) : Bool := !isPkg s k || b == s.fuses.bin

/-- BIN_ID has been read of a package newly in the slot (R583, R584). -/
def readBin (s : State) (k : Nat) (b : Bin) : State :=
  let fresh := (slotSt s k).bin != b
  let bad := b != classBin s
  let s := trayChange s fun s => s.modSlot k fun x =>
    { x with present := true, bin := b, binMismatch := bad,
             orders := if fresh then { x.orders with capHost := binHostCap b, capBoard := binMax b } else x.orders }
  if bad then s.emit (.report (some k) .binMismatch) else s

/-- BIN_ID_READ (R583, R584): the slot is unpowered, and Larkspur powers no slot while its strap is bad (R582). -/
def execBinIdRead (slot : Fin 8) (bin : Bin) (s : State) : Host.Outcome State Fault Refusal :=
  .next (larkspur s fun s =>
    if slotOn s slot || (slotSt s slot).present || s.tray.strapBad || !binPossible s slot bin then s else readBin s slot bin)

/-- A package leaves its slot (R584, R595): its rails are gone with it, the gate closes, BIN_MISMATCH ends. -/
def slotLeft (s : State) (k : Nat) : State :=
  let s := if slotOn s k then railsOut s k else s
  s.modSlot k fun x => { x with present := false, binMismatch := false, openEn := false, pkgGood := false, temp := none, faultN := true }

/-- SLOT_PRESENT_RISE (R595). -/
def execSlotPresentRise (slot : Fin 8) (s : State) : Host.Outcome State Fault Refusal :=
  .next <|
    if (slotSt s slot).present then
      let s' := slotLeft s slot
      if s'.tray.started then trayChange s' id else s'
    else s

/-- TRAY_ID_WRITE (R28): the write arrives at the modelled package. -/
def execTrayIdWrite (trayId : Fin 128) (slot : Fin 8) (s : State) : Host.Outcome State Fault Refusal := .next (s.writeRank trayId slot)

/-- PKG_GOOD_RISE (R596). -/
def execPkgGoodRise (slot : Fin 8) (s : State) : Host.Outcome State Fault Refusal :=
  .next <|
    if !(slotSt s slot).present || (isPkg s slot && !s.rst.pkgGood) then s
    else
      let s := s.modSlot slot fun x => { x with pkgGood := true }
      larkspur s fun s => openGate s slot

/-- PKG_GOOD falls (R595, R596, R598): the gate closes, the latch clears, and the fourth closing within 60 s holds it. -/
def goodFell (s : State) (k nowMs : Nat) : State :=
  let x := slotSt s k
  let open_ := x.present && x.openEn
  let times := if open_ then recent x.closings nowMs 60000 else x.closings
  let hold := open_ && decide (4 ≤ times.length) && s.tray.started
  let s := s.modSlot k fun x => { x with pkgGood := false, openEn := false, closings := times, held := x.held || hold }
  if hold && !x.held then s.emit (.report (some k) .gateHeld) else s

/-- PKG_GOOD_FALL (R595, R596). -/
def execPkgGoodFall (slot : Fin 8) (nowMs : Nat) (s : State) : Host.Outcome State Fault Refusal :=
  .next (if !(slotSt s slot).pkgGood || (isPkg s slot && s.rst.pkgGood) then s else goodFell s slot nowMs)

/-! ## Power entry (R588 to R590, R594) -/

/-- FAN_FAIL (R588, Table 17-2). -/
def execFanFail (fan : Fin 8) (s : State) : Host.Outcome State Fault Refusal :=
  .next (larkspur s fun s =>
    if vat s.tray.fanFailed fan false then s
    else trayChange (s.emit (.report none .fanFail)) fun s => s.modTray fun t => { t with fanFailed := vmodN t.fanFailed fan fun _ => true })

/-- INPUT_RANGE_LOSS (R590, R613): BOARD OFF everywhere, and the rails go without waiting for OFF_READY. -/
def execInputRangeLoss (nowMs : Nat) (s : State) : Host.Outcome State Fault Refusal :=
  .next (larkspur s fun s =>
    if s.tray.inputOk then
      let s := settleBoard ((s.modTray fun t => { t with inputOk := false }).emit (.report none .inputRange))
      s.each slots fun s k => removePower s k nowMs
    else s)

/-- INPUT_RANGE_RESTORE (R590): BOARD RUN again, and the slots whose effective state rises above OFF are powered (R593). -/
def execInputRangeRestore (s : State) : Host.Outcome State Fault Refusal :=
  .next (larkspur s fun s =>
    if s.tray.inputOk then s else trayChange s fun s => s.modTray fun t => { t with inputOk := true })

/-- OFF stands for a slot: it is effective in the modelled package, or ordered in another, which counts a grace time itself. -/
def offStands (s : State) (k : Nat) : Bool :=
  if isPkg s k then effState s == .off
  else
    let o := (slotSt s k).orders
    plower (plower o.rack o.host) o.board == .off

/-- The package reports OFF_READY (R594, R613). -/
def offReady (s : State) (k nowMs : Nat) : State :=
  if slotOn s k && offStands s k && (!isPkg s k || s.pwr.offReady) then trayChange (removePower s k nowMs) id else s

/-- OFF_READY (R594). -/
def execOffReady (slot : Fin 8) (nowMs : Nat) (s : State) : Host.Outcome State Fault Refusal :=
  .next (larkspur s fun s => offReady s slot nowMs)

/-- OFF_READY_TIMEOUT (R594). -/
def execOffReadyTimeout (slot : Fin 8) (nowMs : Nat) (s : State) : Host.Outcome State Fault Refusal :=
  .next (larkspur s fun s => if slotOn s slot && offStands s slot then trayChange (removePower s slot nowMs) id else s)

/-! ## Tempo reference and cooling (R600 to R607) -/

/-- REF_IN_CHANGE (R600): beyond ±20 ppm it counts as absent; TEMPO itself never misses an edge (R601). -/
def execRefInChange (ppm : Option Int) (s : State) : Host.Outcome State Fault Refusal :=
  .next (s.modTray fun t => { t with refIn := ppm.any fun p => decide (p.natAbs ≤ 20) })

/-- The readings and the outputs of R602; the watchdog's full cooling is not changed (R606). -/
def coolingUpdate (s : State) (temps : List (Option Int)) : State :=
  let c0 := coolOf s temps [0, 1, 2, 3]
  let c1 := coolOf s temps [4, 5, 6, 7]
  let s := s.each slots fun s k => if isPkg s k then s else s.modSlot k fun x =>
    { x with temp := if x.powered then (temps[k]?).getD none else none }
  if s.tray.wdHold then s else s.modTray fun t => { t with cool0 := c0, cool1 := c1, fans := max c0 c1 }

/-- COOLING_UPDATE (R602). -/
def execCoolingUpdate (temps : List (Option Int)) (s : State) : Host.Outcome State Fault Refusal :=
  .next (larkspur s fun s => coolingUpdate s temps)

/-- COOLING_WATCHDOG_KICK (R605, R606): the discrete circuit counts its own 2 s, and a kick never releases full cooling (log 24). -/
def execCoolingWatchdogKick (s : State) : Host.Outcome State Fault Refusal := .next s

/-- COOLING_WATCHDOG_EXPIRY (R605). -/
def execCoolingWatchdogExpiry (nowMs : Nat) (s : State) : Host.Outcome State Fault Refusal :=
  .next (s.modTray fun t => { t with wdHold := true, cool0 := 30, cool1 := 30, fans := 30,
                                     fullSince := if t.wdHold then t.fullSince else nowMs })

/-- COOLING_WATCHDOG_RELEASE (R606, R607). -/
def execCoolingWatchdogRelease (b1 b2 : Byte) (us : Nat) (imageOk tachsOk tempsOk : Bool) (nowMs : Nat) (s : State) :
    Host.Outcome State Fault Refusal :=
  .next (larkspur s fun s =>
    if b1 = 0x5A ∧ b2 = 0xA5 ∧ us ≤ 1000 ∧ (imageOk && tachsOk && tempsOk) = true ∧ s.tray.fullSince + 30000 ≤ nowMs then
      s.modTray fun t => { t with wdHold := false }
    else s)

/-! ## Recovery (R611, R612) -/

/-- Larkspur recovers a slot whose PKG_FAULT_N is asserted without WAKE_LOCKOUT (R611). -/
def recover (s : State) (k nowMs : Nat) : State :=
  let x := slotSt s k
  let times := recent x.resets nowMs 3600000
  if x.recoverAuto && decide (times.length ≤ 3) then resetSlot (s.modSlot k fun x => { x with resets := times }) k
  else (holdSlot s k).emit (.report (some k) .slotFault)

/-- PKG_FAULT_RECOVERY (R611, R612). -/
def execPkgFaultRecovery (slot : Fin 8) (lockout : Bool) (nowMs : Nat) (s : State) : Host.Outcome State Fault Refusal :=
  .next (larkspur s fun s =>
    if !slotOn s slot || (isPkg s slot && s.rst.faultN) then s
    else
      let s := s.modSlot slot fun x => { x with faultN := false }
      if (if isPkg s slot then s.rst.lockout else lockout) then s else recover s slot nowMs)

/-! ## Side-band (R608, R629) -/

/-- HOST_MCTP_MESSAGE (R608). -/
def execHostMctpMessage (port : Fin 8) (eid : Nat) (cmdSlot : Option (Fin 8)) (s : State) : Host.Outcome State Fault Refusal :=
  .next (larkspur s fun s =>
    if eid = 0x20 + port.val then s.emit (.mctpForward port eid)
    else if eid = 8 then (if cmdSlot.any (· != port) then s.answer .notPermitted else s.emit (.mctpForward port eid))
    else s)

/-- I3C_DYNAMIC_ADDRESS_TIMEOUT (R629 and 17, Side-band): the bus of a powered slot runs as SMBus. -/
def execI3cDynamicAddressTimeout (slot : Fin 8) (s : State) : Host.Outcome State Fault Refusal :=
  .next (larkspur s fun s => if slotOn s slot then s.modSlot slot fun x => { x with smbus := true } else s)

end Sys2Proof.Machine
end

