-- ==== Sys2Proof/Machine/TrayMgmt.lean ====
section
/-! DEFINITION. The commands that Larkspur answers (17): PLDM Type 63 and Type 2, SPDM, Redfish, firmware updates. -/

namespace Sys2Proof.Machine

/-! ## PLDM Type 63 (R608, R609, Table 17-3) -/

/-- A command for a slot is taken from the rack, and from the host port of that slot (R608, R609). -/
def mayCommand (src : CmdSrc) (slot : Fin 8) : Bool := match src with
  | .host p => p == slot
  | .rack => true

/-- A command that only the rack may give (Table 17-3). -/
def isRack (src : CmdSrc) : Bool := src == .rack

/-- Runs a command where its source may give it, else answers NOT_PERMITTED (R609). -/
def command (s : State) (ok : Bool) (f : State → State) : State :=
  larkspur s fun s => if ok then f s else s.answer .notPermitted

/-- SET_CAP (Table 17-3): a rack value of 0 withdraws. -/
def execSetCap (src : CmdSrc) (slot : Fin 8) (watts : Nat) (s : State) : Host.Outcome State Fault Refusal :=
  .next (command s (mayCommand src slot) fun s =>
    trayChange s fun s => slotCap s slot (isRack src) (if isRack src && watts == 0 then none else some watts))

/-- SET_STATE (Table 17-3): GRACE and FORCE are the rack's alone; a GRACE beyond 60 s is no command of the table. -/
def execSetState (src : CmdSrc) (slot : Fin 8) (state : PState) (grace : Option Nat) (force : Bool) (s : State) :
    Host.Outcome State Fault Refusal :=
  .next (command s (mayCommand src slot && (isRack src || (grace.isNone && !force))) fun s =>
    if grace.any fun g => decide (60 < g) then s.answerOpen else trayChange s fun s => slotState s slot (isRack src) state grace force)

/-- What GET_STATUS returns for a slot (Table 17-3, R613). -/
def slotStatus (s : State) (k : Nat) : SlotStatus :=
  let x := slotSt s k
  let w := resetWords s k
  { present := x.present, bin := x.bin, powered := slotOn s k, pkgGood := slotGood s k, faultN := slotFaultN s k,
    thermtripN := slotThermN s k, gateOpen := gateOpen s k, cause := if slotOn s k then some w.1 else none,
    wakeStep := if slotOn s k then some w.2.1 else none, lastCause := x.lastCause,
    temp := if isPkg s k then pkgHottest s else x.temp, orders := slotOrders s k }

/-- GET_STATUS (Table 17-3). -/
def execGetStatus (src : CmdSrc) (slot : Fin 8) (s : State) : Host.Outcome State Fault Refusal :=
  .next (command s (mayCommand src slot) fun s => ((s.emit (.status (slotStatus s slot))).modFree (· + 3)).answer .ok)

/-- RESET_PKG (Table 17-3). -/
def execResetPkg (src : CmdSrc) (slot : Fin 8) (s : State) : Host.Outcome State Fault Refusal :=
  .next (command s (mayCommand src slot) fun s => (resetSlot s slot).answer .ok)

/-- COLD_CYCLE (R612, R613). -/
def execColdCycle (src : CmdSrc) (slot : Fin 8) (nowMs : Nat) (s : State) : Host.Outcome State Fault Refusal :=
  .next (command s (isRack src) fun s => (coldSlot s slot nowMs).answer .ok)

/-- GATE_FORCE (Table 17-3). -/
def execGateForce (src : CmdSrc) (slot : Fin 8) (s : State) : Host.Outcome State Fault Refusal :=
  .next (command s (isRack src) fun s => (s.modSlot slot fun x => { x with openEn := false, forced := true }).answer .ok)

/-- GATE_RELEASE (R598, Table 17-3): the force or the hold ends, its closings are forgotten, and the gate may open again. -/
def execGateRelease (src : CmdSrc) (slot : Fin 8) (s : State) : Host.Outcome State Fault Refusal :=
  .next (command s (isRack src) fun s =>
    (openGate (s.modSlot slot fun x => { x with forced := false, held := false, closings := [] }) slot).answer .ok)

/-- Link groups of a slot's package retrain from step 1 (R436). -/
def retrainSlotLinks (s : State) (k : Nat) : State :=
  if isPkg s k then (if s.rst.done then s.restartTraining else s) else s.tell k .retrain

/-- RETRAIN (R434, R436). -/
def execRetrain (src : CmdSrc) (slot : Fin 8) (s : State) : Host.Outcome State Fault Refusal :=
  .next (command s (isRack src) fun s => (retrainSlotLinks s slot).answer .ok)

/-- Writes the tray ID to every powered package (R587). -/
def writeTrayId (s : State) (id : Nat) : State :=
  (s.modTray fun t => { t with trayId := some id }).each slots fun s k =>
    if slotOn s k then (if isPkg s k then s.writeRank id k else s.tell k (.trayId id)) else s

/-- SET_TRAY_ID (R585, R587). -/
def execSetTrayId (src : CmdSrc) (trayId : Fin 128) (s : State) : Host.Outcome State Fault Refusal :=
  .next (command s (isRack src) fun s => (writeTrayId s trayId).answer .ok)

/-- SET_TEMPO (R600): TRACK or FREE. -/
def execSetTempo (src : CmdSrc) (track : Bool) (s : State) : Host.Outcome State Fault Refusal :=
  .next (command s (isRack src) fun s => (s.modTray fun t => { t with track := track }).answer .ok)

/-- SET_BOOT (R617): written while Larkspur reaches the slot's flash. -/
def execSetBoot (src : CmdSrc) (slot : Fin 8) (hubBank sldBank : Bool) (s : State) : Host.Outcome State Fault Refusal :=
  .next (command s (isRack src) fun s =>
    if flashReach s slot then (selectBanks s slot hubBank sldBank).answer .ok else s.answerOpen)

/-- SET_INPUT (R588 and 17, Power entry): from 2.0 kW to the rated input. -/
def execSetInput (src : CmdSrc) (watts : Nat) (s : State) : Host.Outcome State Fault Refusal :=
  .next (command s (isRack src) fun s =>
    if 2000 ≤ watts ∧ watts ≤ ratedInput s then
      (trayChange s fun s => s.modTray fun t => { t with inputLimit := some watts }).answer .ok
    else s.answerOpen)

/-- SET_RECOVER (R611). -/
def execSetRecover (src : CmdSrc) (slot : Fin 8) (auto : Bool) (s : State) : Host.Outcome State Fault Refusal :=
  .next (command s (isRack src) fun s => (s.modSlot slot fun x => { x with recoverAuto := auto }).answer .ok)

/-! ## PLDM Type 2 (R610) -/

/-- A reading of the modelled package, or of another one as it was measured; none while the slot is unpowered. -/
def slotReading (s : State) (k : Nat) (own : Int) (measured : Int) : Option Int :=
  if slotOn s k then some (if isPkg s k then own else measured) else none

/-- The reading of a sensor (R610): watts, °C, the number of a state, and millivolts of the COOL_DEMAND outputs. -/
def sensorValue (s : State) (x : Sensor) (measured : Int) : Option Int := match x with
  | .tile k => slotReading s k (((idx 4 (diePowered s)).map fun n => (diePwr s n).temp).foldl max (-128)) measured
  | .stack k => slotReading s k ((s.mem.stack.toList.filterMap fun t => if t.tempValid then some t.temp else none).foldl max (-128)) measured
  | .power k => slotReading s k s.pwr.measuredLast.toNat measured
  | .cap k => slotReading s k (effCap s) measured
  | .state k => some (pnum (effStateOf (slotOrders s k)))
  | .inputVolt => some measured
  | .inputPower => some measured
  | .fan _ => some measured
  | .cool0 => some (2000 + 8000 * s.tray.cool0 / 30)
  | .cool1 => some (2000 + 8000 * s.tray.cool1 / 30)

/-- PLDM_SENSOR_READ (R610). -/
def execPldmSensorRead (sensor : Sensor) (measured : Int) (s : State) : Host.Outcome State Fault Refusal :=
  .next (larkspur s fun s => s.emit (.sensor (sensorValue s sensor measured)))

/-! ## SPDM (R614, Table 17-4) -/

/-- The responder runs: the package's hub, or Larkspur. -/
def responder (s : State) (lk : Bool) (f : State → State) : State := if (if lk then s.tray.started else hubRuns s) then f s else s

/-- The 48 bytes of a digest. -/
def digestBytes (d : BitVec 384) : List Byte := (List.range 48).map (digestByte d)

/-- The running firmware image of a responder, none for the one it was made with. -/
def runningImage (s : State) (lk : Bool) : Option (List Byte) :=
  if lk then vat s.tray.lkImage (b2n s.tray.lkBank) none else vat s.flash.hubImage (b2n s.rst.fwBank) none

/-- SHA-384 of the running firmware of a responder. -/
def firmwareHash (s : State) (lk : Bool) : BitVec 384 := match runningImage s lk with
  | some img => sha384 img
  | none => Config.firmwareDigest lk (if lk then s.tray.lkBank else s.rst.fwBank)

/-- SLD_KEY_STATE (Table 3-9). -/
def keyStateWord (f : Fuses) : Nat :=
  (List.range 4).foldl (fun n i => n + keyNum (vat f.keyState i .empty) * 4 ^ i) (fieldBit f.rootOff 8)

/-- A measurement block (Table 17-4); the layouts of blocks 4 and of Larkspur's 2 are the model's (log 25). -/
def measurement (s : State) (lk : Bool) (index : Nat) : Option (List Byte) :=
  if lk then
    match index with
    | 1 => some (digestBytes (firmwareHash s true))
    | 2 => some [BitVec.ofNat 8 (s.tray.trayId.getD 0xFF), if s.tray.liquid then 1 else 0, if s.tray.track then 1 else 0]
    | _ => none
  else
    match index with
    | 1 => some (digestBytes (firmwareHash s false))
    | 2 => some (digestBytes (s.str.elim 0 (·.hash)))
    | 3 => some (leBytes 4 (keyStateWord s.fuses))
    | 4 => some [if s.fuses.bin = .yp4L then 1 else 0, 0x11,
                 BitVec.ofNat 8 ((List.range 8).foldl (fun n k => n + fieldBit (vat s.fuses.opEnable k false) k) 0)]
    | _ => none

/-- SPDM_GET_VERSION (R614): version 1.2. -/
def execSpdmGetVersion (larkspur : Bool) (s : State) : Host.Outcome State Fault Refusal :=
  .next (responder s larkspur fun s => s.emit .spdmVersion)

/-- SPDM_GET_CAPABILITIES (R614). -/
def execSpdmGetCapabilities (larkspur : Bool) (s : State) : Host.Outcome State Fault Refusal :=
  .next (responder s larkspur fun s => s.emit (.spdmCapabilities (Config.spdmCapabilities larkspur)))

/-- SPDM_NEGOTIATE_ALGORITHMS (R614): ECDSA P-384 and SHA-384, or none. -/
def execSpdmNegotiateAlgorithms (larkspur ecdsaP384 sha384 : Bool) (s : State) : Host.Outcome State Fault Refusal :=
  .next (responder s larkspur fun s => s.emit (.spdmAlgorithms (ecdsaP384 && sha384)))

/-- SPDM_GET_DIGESTS (R614): SHA-384 of the certificate chain. -/
def execSpdmGetDigests (larkspur : Bool) (s : State) : Host.Outcome State Fault Refusal :=
  .next (responder s larkspur fun s => s.emit (.spdmDigest (sha384 (Config.certificateChain larkspur))))

/-- SPDM_GET_CERTIFICATE (R614): a portion of the chain. -/
def execSpdmGetCertificate (larkspur : Bool) (off len : Nat) (s : State) : Host.Outcome State Fault Refusal :=
  .next (responder s larkspur fun s => s.emit (.spdmCertificate (((Config.certificateChain larkspur).drop off).take len)))

/-- SPDM_CHALLENGE (R614): a signature of 96 bytes, whose value is free (log 2). -/
def execSpdmChallenge (larkspur : Bool) (nonce : BitVec 256) (s : State) : Host.Outcome State Fault Refusal :=
  .next (responder s larkspur fun s =>
    (s.emit (.spdmSignature nonce ((List.range 12).map fun i => Config.freeWord (s.free + i)))).modFree (· + 12))

/-- SPDM_GET_MEASUREMENTS (R614, Table 17-4): a block that the responder does not have is answered with an error. -/
def execSpdmGetMeasurements (larkspur : Bool) (index : Nat) (s : State) : Host.Outcome State Fault Refusal :=
  .next (responder s larkspur fun s => match measurement s larkspur index with
    | some b => s.emit (.spdmMeasurement index b)
    | none => s.emit .spdmError)

/-! ## Redfish (R615, Table 17-5) -/

/-- A RACK state order given over Redfish. -/
def redfishState (s : State) (k : Nat) (v : PState) (grace : Option Nat) (force : Bool) : State :=
  trayChange s fun s => slotState s k true v grace force

/-- A Processor Reset (Table 17-5); any other value is rejected with HTTP 400. -/
def processorReset (s : State) (k : Nat) (kind : RedfishReset) (nowMs : Nat) : State := match kind with
  | .on => redfishState s k .run none false
  | .resume => redfishState s k .run none false
  | .suspend => redfishState s k .park none false
  | .gracefulShutdown g => if g.any fun n => decide (60 < n) then s.emit .http400 else redfishState s k .off (some (g.getD 10)) false
  | .forceOff => redfishState s k .off none true
  | .forceRestart => (resetSlot s k).answer .ok
  | .powerCycle => (coldSlot s k nowMs).answer .ok
  | .other => s.emit .http400

/-- REDFISH_PROCESSOR_RESET (R615). -/
def execRedfishProcessorReset (slot : Fin 8) (kind : RedfishReset) (nowMs : Nat) (s : State) : Host.Outcome State Fault Refusal :=
  .next (larkspur s fun s => processorReset s slot kind nowMs)

/-- REDFISH_STANDBY (R615). -/
def execRedfishStandby (slot : Fin 8) (s : State) : Host.Outcome State Fault Refusal :=
  .next (larkspur s fun s => redfishState s slot .standby none false)

/-- REDFISH_POWER_LIMIT (R615): SET_CAP of the rack; null withdraws. -/
def execRedfishPowerLimit (slot : Fin 8) (watts : Option Nat) (s : State) : Host.Outcome State Fault Refusal :=
  .next (larkspur s fun s => trayChange s fun s => slotCap s slot true (watts.bind fun w => if w = 0 then none else some w))

/-- REDFISH_CHASSIS_RESET (R613, R615, R619): a tray power cycle made by Larkspur. -/
def execRedfishChassisReset (powerCycle : Bool) (nowMs : Nat) (s : State) : Host.Outcome State Fault Refusal :=
  .next (larkspur s fun s =>
    if powerCycle then cycleTray (s.each slots fun s k => removePower s k nowMs) else s.emit .http400)

/-- TRAY_POWER_CYCLE (R613, R619): the tray's input power goes and returns; LAST_CAUSE stays as it was. -/
def execTrayPowerCycle (s : State) : Host.Outcome State Fault Refusal :=
  .next (cycleTray (s.each slots fun s k => if slotOn s k then railsOut s k else s))

/-! ## Firmware updates (R616 to R621) -/

/-- FIRMWARE_UPDATE_REQUEST (R618, R619, R621). -/
def execFirmwareUpdateRequest (comp : Component) (image : List Byte) (sigOk staged complete : Bool) (s : State) :
    Host.Outcome State Fault Refusal :=
  .next (larkspur s fun s =>
    if !imageGood comp image sigOk then s.answer .updateBad
    else if !compReach s comp then s.answerOpen
    else if complete then (update s comp image staged).answer .ok
    else s)

/-- HEALTH_CHECK_FAIL (R620, Table 17-6). -/
def execHealthCheckFail (comp : Component) (s : State) : Host.Outcome State Fault Refusal := .next (rollBack s comp)

end Sys2Proof.Machine
end

