-- ==== Sys2Proof/Machine/Dispatch.lean ====
section
/-! DEFINITION. One arm per command: each is one direct call of its meaning. -/

namespace Sys2Proof.Machine

def exec (i : Instr) (s : State) : Host.Outcome State Fault Refusal :=
  match i with
  | .beatBoundary refValid sense => Sys2Proof.Machine.execBeatBoundary refValid sense s
  | .tmpBeatNowLowRead fn => Sys2Proof.Machine.execTmpBeatNowLowRead fn s
  | .markerReceived link beatNo arrival => Sys2Proof.Machine.execMarkerReceived link beatNo arrival s
  | .catchUpRealign => Sys2Proof.Machine.execCatchUpRealign s
  | .beatNumberLoad => Sys2Proof.Machine.execBeatNumberLoad s
  | .refEdgeTimeout => Sys2Proof.Machine.execRefEdgeTimeout s
  | .refFreqIntervalEnd ppm => Sys2Proof.Machine.execRefFreqIntervalEnd ppm s
  | .holdoverExpiry => Sys2Proof.Machine.execHoldoverExpiry s
  | .holdoverExit => Sys2Proof.Machine.execHoldoverExit s
  | .fencedExit => Sys2Proof.Machine.execFencedExit s
  | .slotStart step slot actions => Sys2Proof.Machine.execSlotStart step slot actions s
  | .slotEnd step slot overrun ringMissed => Sys2Proof.Machine.execSlotEnd step slot overrun ringMissed s
  | .sldValidate src keepMem => Sys2Proof.Machine.execSldValidate src keepMem s
  | .sldLoad src keepMem => Sys2Proof.Machine.execSldLoad src keepMem s
  | .sldKeyop src keepMem => Sys2Proof.Machine.execSldKeyop src keepMem s
  | .sldReadDone good data => Sys2Proof.Machine.execSldReadDone good data s
  | .matchTieClear slice => Sys2Proof.Machine.execMatchTieClear slice s
  | .aluInstr tile slot cycle legal => Sys2Proof.Machine.execAluInstr tile slot cycle legal s
  | .convertInstr tile slot cycle legal => Sys2Proof.Machine.execConvertInstr tile slot cycle legal s
  | .controlInstr tile slot cycle legal kind => Sys2Proof.Machine.execControlInstr tile slot cycle legal kind s
  | .mxeMma tile slot cycle legal => Sys2Proof.Machine.execMxeMma tile slot cycle legal s
  | .mxeSt tile slot cycle legal fp32 => Sys2Proof.Machine.execMxeSt tile slot cycle legal fp32 s
  | .localLoad tile slot cycle legal => Sys2Proof.Machine.execLocalLoad tile slot cycle legal s
  | .localStore tile slot cycle legal => Sys2Proof.Machine.execLocalStore tile slot cycle legal s
  | .deviceLoad tile slot cycle legal => Sys2Proof.Machine.execDeviceLoad tile slot cycle legal s
  | .deviceStore tile slot cycle legal => Sys2Proof.Machine.execDeviceStore tile slot cycle legal s
  | .fenceL tile slot cycle => Sys2Proof.Machine.execFenceL tile slot cycle s
  | .fenceD tile slot cycle => Sys2Proof.Machine.execFenceD tile slot cycle s
  | .tokenAcq tile slot cycle => Sys2Proof.Machine.execTokenAcq tile slot cycle s
  | .tokenWait tile slot cycle => Sys2Proof.Machine.execTokenWait tile slot cycle s
  | .tokenRel tile slot cycle => Sys2Proof.Machine.execTokenRel tile slot cycle s
  | .tokenWaitLimit tile slot cycle => Sys2Proof.Machine.execTokenWaitLimit tile slot cycle s
  | .groupExit tile slot => Sys2Proof.Machine.execGroupExit tile slot s
  | .icacheFill tile slot words => Sys2Proof.Machine.execIcacheFill tile slot words s
  | .storeDrainStart tile cycle => Sys2Proof.Machine.execStoreDrainStart tile cycle s
  | .storeAck tile entry cycle => Sys2Proof.Machine.execStoreAck tile entry cycle s
  | .loadResponse load cycle => Sys2Proof.Machine.execLoadResponse load cycle s
  | .granaryRead req ecc => Sys2Proof.Machine.execGranaryRead req ecc s
  | .granaryFill line bursts => Sys2Proof.Machine.execGranaryFill line bursts s
  | .granaryStore req => Sys2Proof.Machine.execGranaryStore req s
  | .wbEntryGrant x bad => Sys2Proof.Machine.execWbEntryGrant x bad s
  | .grnWinStageWrite fn via n isLimit value => Sys2Proof.Machine.execGrnWinStageWrite fn via n isLimit value s
  | .grnWinCtrlWrite fn via n value => Sys2Proof.Machine.execGrnWinCtrlWrite fn via n value s
  | .windowCommit => Sys2Proof.Machine.execWindowCommit s
  | .grnQuotaWrite fn via p value => Sys2Proof.Machine.execGrnQuotaWrite fn via p value s
  | .streamTrackerTimeout slice tracker => Sys2Proof.Machine.execStreamTrackerTimeout slice tracker s
  | .fabricFlitArrival node port flit => Sys2Proof.Machine.execFabricFlitArrival node port flit s
  | .ingCreditGrant slice => Sys2Proof.Machine.execIngCreditGrant slice s
  | .thresherInput red node input flit => Sys2Proof.Machine.execThresherInput red node input flit s
  | .thresherEmit red node => Sys2Proof.Machine.execThresherEmit red node s
  | .dieConsensusReport die fixedCrc winCrc beatNo => Sys2Proof.Machine.execDieConsensusReport die fixedCrc winCrc beatNo s
  | .dieReportTimeout die => Sys2Proof.Machine.execDieReportTimeout die s
  | .dieReloadDone die => Sys2Proof.Machine.execDieReloadDone die s
  | .parityRetry x line kind pass => Sys2Proof.Machine.execParityRetry x line kind pass s
  | .remapCopyDone entry bad => Sys2Proof.Machine.execRemapCopyDone entry bad s
  | .remapTakeEffect entry => Sys2Proof.Machine.execRemapTakeEffect entry s
  | .repairLogWrite entry => Sys2Proof.Machine.execRepairLogWrite entry s
  | .refreshSlot c n => Sys2Proof.Machine.execRefreshSlot c n s
  | .stackTempSample stack temp => Sys2Proof.Machine.execStackTempSample stack temp s
  | .stackTripReturn stack => Sys2Proof.Machine.execStackTripReturn stack s
  | .stackTempLost stack => Sys2Proof.Machine.execStackTempLost stack s
  | .stpDoorbell fn bar4 p value => Sys2Proof.Machine.execStpDoorbell fn bar4 p value s
  | .descriptorRead q => Sys2Proof.Machine.execDescriptorRead q s
  | .stepAdmit step => Sys2Proof.Machine.execStepAdmit step s
  | .c0SlotStart => Sys2Proof.Machine.execC0SlotStart s
  | .stepComplete step => Sys2Proof.Machine.execStepComplete step s
  | .stpShareWrite fn p value => Sys2Proof.Machine.execStpShareWrite fn p value s
  | .stpC0PhaseWrite fn value => Sys2Proof.Machine.execStpC0PhaseWrite fn value s
  | .stpC0SheavesWrite fn p value => Sys2Proof.Machine.execStpC0SheavesWrite fn p value s
  | .partReset fn p => Sys2Proof.Machine.execPartReset fn p s
  | .queueConfigWrite fn w => Sys2Proof.Machine.execQueueConfigWrite fn w s
  | .srvCtxRead fn => Sys2Proof.Machine.execSrvCtxRead fn s
  | .srvCtxWrite fn => Sys2Proof.Machine.execSrvCtxWrite fn s
  | .srvCtxTruncate fn => Sys2Proof.Machine.execSrvCtxTruncate fn s
  | .rtkWalkGo fn => Sys2Proof.Machine.execRtkWalkGo fn s
  | .walkNodeRead slot => Sys2Proof.Machine.execWalkNodeRead slot s
  | .rootstockWalkDone slot => Sys2Proof.Machine.execRootstockWalkDone slot s
  | .trlSlotOwnerWrite fn n value => Sys2Proof.Machine.execTrlSlotOwnerWrite fn n value s
  | .trlSlotCfgWrite fn n value => Sys2Proof.Machine.execTrlSlotCfgWrite fn n value s
  | .trlPush fn n len => Sys2Proof.Machine.execTrlPush fn n len s
  | .trellisFillData n data => Sys2Proof.Machine.execTrellisFillData n data s
  | .bufferComplete n => Sys2Proof.Machine.execBufferComplete n s
  | .ingestSnapshot step => Sys2Proof.Machine.execIngestSnapshot step s
  | .linkReplay link => Sys2Proof.Machine.execLinkReplay link s
  | .linkTrainStart => Sys2Proof.Machine.execLinkTrainStart s
  | .trainStepDone link delayNs => Sys2Proof.Machine.execTrainStepDone link delayNs s
  | .trainStepTimeout link => Sys2Proof.Machine.execTrainStepTimeout link s
  | .linkLockLost link => Sys2Proof.Machine.execLinkLockLost link s
  | .consensusWordReceive link bytes => Sys2Proof.Machine.execConsensusWordReceive link bytes s
  | .consensusWordTimeout link => Sys2Proof.Machine.execConsensusWordTimeout link s
  | .updateWordReceive link bytes => Sys2Proof.Machine.execUpdateWordReceive link bytes s
  | .domainOfOne => Sys2Proof.Machine.execDomainOfOne s
  | .reshapeAbortBeat => Sys2Proof.Machine.execReshapeAbortBeat s
  | .ringFlitReceive link flit => Sys2Proof.Machine.execRingFlitReceive link flit s
  | .tripWordAbort => Sys2Proof.Machine.execTripWordAbort s
  | .pwrCapHostWrite fn value => Sys2Proof.Machine.execPwrCapHostWrite fn value s
  | .pwrStateHostWrite fn value => Sys2Proof.Machine.execPwrStateHostWrite fn value s
  | .sidebandHostOrder cap state => Sys2Proof.Machine.execSidebandHostOrder cap state s
  | .rackCapOrder watts => Sys2Proof.Machine.execRackCapOrder watts s
  | .rackStateOrder state grace force => Sys2Proof.Machine.execRackStateOrder state grace force s
  | .boardCapOrder watts => Sys2Proof.Machine.execBoardCapOrder watts s
  | .boardStateOrder state => Sys2Proof.Machine.execBoardStateOrder state s
  | .rackOffGraceExpiry => Sys2Proof.Machine.execRackOffGraceExpiry s
  | .parkDrainDone => Sys2Proof.Machine.execParkDrainDone s
  | .parkExitResume => Sys2Proof.Machine.execParkExitResume s
  | .overcurrentSense die => Sys2Proof.Machine.execOvercurrentSense die s
  | .limiterStepUp die => Sys2Proof.Machine.execLimiterStepUp die s
  | .limiterStepDown die => Sys2Proof.Machine.execLimiterStepDown die s
  | .tileTempSample t0 t1 t2 t3 => Sys2Proof.Machine.execTileTempSample t0 t1 t2 t3 s
  | .thermtrip => Sys2Proof.Machine.execThermtrip s
  | .coldReset => Sys2Proof.Machine.execColdReset s
  | .aonPowerLoss => Sys2Proof.Machine.execAonPowerLoss s
  | .pkgReset perst lowNs => Sys2Proof.Machine.execPkgReset perst lowNs s
  | .resetRelease => Sys2Proof.Machine.execResetRelease s
  | .rstCtrlWarm fn value => Sys2Proof.Machine.execRstCtrlWarm fn value s
  | .rstCtrlDie fn value => Sys2Proof.Machine.execRstCtrlDie fn value s
  | .functionLevelReset fn => Sys2Proof.Machine.execFunctionLevelReset fn s
  | .wakeStepDone die info => Sys2Proof.Machine.execWakeStepDone die info s
  | .wakeStepTimeout die => Sys2Proof.Machine.execWakeStepTimeout die s
  | .wakeRetryRestart die => Sys2Proof.Machine.execWakeRetryRestart die s
  | .dieHangTimeout die => Sys2Proof.Machine.execDieHangTimeout die s
  | .hubWatchdogKick => Sys2Proof.Machine.execHubWatchdogKick s
  | .hubWatchdogExpiry => Sys2Proof.Machine.execHubWatchdogExpiry s
  | .stackPatrol x bursts => Sys2Proof.Machine.execStackPatrol x bursts s
  | .granaryPatrol slice finds => Sys2Proof.Machine.execGranaryPatrol slice finds s
  | .phyRetrainPass => Sys2Proof.Machine.execPhyRetrainPass s
  | .phyDriftCheck exceeds => Sys2Proof.Machine.execPhyDriftCheck exceeds s
  | .telemetryWrite watts => Sys2Proof.Machine.execTelemetryWrite watts s
  | .bar2Write fn off data poisoned => Sys2Proof.Machine.execBar2Write fn off data poisoned s
  | .bar2Read fn off len => Sys2Proof.Machine.execBar2Read fn off len s
  | .unsupportedRequest fn kind => Sys2Proof.Machine.execUnsupportedRequest fn kind s
  | .sriovConfigChange vfEnable numVfs => Sys2Proof.Machine.execSriovConfigChange vfEnable numVfs s
  | .bar2Resize fn log2GiB mse => Sys2Proof.Machine.execBar2Resize fn log2GiB mse s
  | .dmaStart fn e value => Sys2Proof.Machine.execDmaStart fn e value s
  | .dmaDone e data hostErr => Sys2Proof.Machine.execDmaDone e data hostErr s
  | .upstreamCompletion tag data => Sys2Proof.Machine.execUpstreamCompletion tag data s
  | .completionTimeout tag => Sys2Proof.Machine.execCompletionTimeout tag s
  | .hotReset => Sys2Proof.Machine.execHotReset s
  | .larkspurStart strap => Sys2Proof.Machine.execLarkspurStart strap s
  | .binIdRead slot bin => Sys2Proof.Machine.execBinIdRead slot bin s
  | .slotPresentRise slot => Sys2Proof.Machine.execSlotPresentRise slot s
  | .trayIdWrite trayId slot => Sys2Proof.Machine.execTrayIdWrite trayId slot s
  | .fanFail fan => Sys2Proof.Machine.execFanFail fan s
  | .inputRangeLoss nowMs => Sys2Proof.Machine.execInputRangeLoss nowMs s
  | .inputRangeRestore => Sys2Proof.Machine.execInputRangeRestore s
  | .offReady slot nowMs => Sys2Proof.Machine.execOffReady slot nowMs s
  | .offReadyTimeout slot nowMs => Sys2Proof.Machine.execOffReadyTimeout slot nowMs s
  | .pkgGoodRise slot => Sys2Proof.Machine.execPkgGoodRise slot s
  | .pkgGoodFall slot nowMs => Sys2Proof.Machine.execPkgGoodFall slot nowMs s
  | .refInChange ppm => Sys2Proof.Machine.execRefInChange ppm s
  | .coolingUpdate temps => Sys2Proof.Machine.execCoolingUpdate temps s
  | .coolingWatchdogKick => Sys2Proof.Machine.execCoolingWatchdogKick s
  | .coolingWatchdogExpiry nowMs => Sys2Proof.Machine.execCoolingWatchdogExpiry nowMs s
  | .coolingWatchdogRelease b1 b2 us imageOk tachsOk tempsOk nowMs => Sys2Proof.Machine.execCoolingWatchdogRelease b1 b2 us imageOk tachsOk tempsOk nowMs s
  | .pkgFaultRecovery slot lockout nowMs => Sys2Proof.Machine.execPkgFaultRecovery slot lockout nowMs s
  | .hostMctpMessage port eid cmdSlot => Sys2Proof.Machine.execHostMctpMessage port eid cmdSlot s
  | .setCap src slot watts => Sys2Proof.Machine.execSetCap src slot watts s
  | .setState src slot state grace force => Sys2Proof.Machine.execSetState src slot state grace force s
  | .getStatus src slot => Sys2Proof.Machine.execGetStatus src slot s
  | .resetPkg src slot => Sys2Proof.Machine.execResetPkg src slot s
  | .coldCycle src slot nowMs => Sys2Proof.Machine.execColdCycle src slot nowMs s
  | .gateForce src slot => Sys2Proof.Machine.execGateForce src slot s
  | .gateRelease src slot => Sys2Proof.Machine.execGateRelease src slot s
  | .retrain src slot => Sys2Proof.Machine.execRetrain src slot s
  | .setTrayId src trayId => Sys2Proof.Machine.execSetTrayId src trayId s
  | .setTempo src track => Sys2Proof.Machine.execSetTempo src track s
  | .setBoot src slot hubBank sldBank => Sys2Proof.Machine.execSetBoot src slot hubBank sldBank s
  | .setInput src watts => Sys2Proof.Machine.execSetInput src watts s
  | .setRecover src slot auto => Sys2Proof.Machine.execSetRecover src slot auto s
  | .pldmSensorRead sensor measured => Sys2Proof.Machine.execPldmSensorRead sensor measured s
  | .spdmGetVersion larkspur => Sys2Proof.Machine.execSpdmGetVersion larkspur s
  | .spdmGetCapabilities larkspur => Sys2Proof.Machine.execSpdmGetCapabilities larkspur s
  | .spdmNegotiateAlgorithms larkspur ecdsaP384 sha384 => Sys2Proof.Machine.execSpdmNegotiateAlgorithms larkspur ecdsaP384 sha384 s
  | .spdmGetDigests larkspur => Sys2Proof.Machine.execSpdmGetDigests larkspur s
  | .spdmGetCertificate larkspur off len => Sys2Proof.Machine.execSpdmGetCertificate larkspur off len s
  | .spdmChallenge larkspur nonce => Sys2Proof.Machine.execSpdmChallenge larkspur nonce s
  | .spdmGetMeasurements larkspur index => Sys2Proof.Machine.execSpdmGetMeasurements larkspur index s
  | .redfishProcessorReset slot kind nowMs => Sys2Proof.Machine.execRedfishProcessorReset slot kind nowMs s
  | .redfishStandby slot => Sys2Proof.Machine.execRedfishStandby slot s
  | .redfishPowerLimit slot watts => Sys2Proof.Machine.execRedfishPowerLimit slot watts s
  | .redfishChassisReset powerCycle nowMs => Sys2Proof.Machine.execRedfishChassisReset powerCycle nowMs s
  | .firmwareUpdateRequest comp image sigOk staged complete => Sys2Proof.Machine.execFirmwareUpdateRequest comp image sigOk staged complete s
  | .trayPowerCycle => Sys2Proof.Machine.execTrayPowerCycle s
  | .healthCheckFail comp => Sys2Proof.Machine.execHealthCheckFail comp s
  | .railFault d pg => Sys2Proof.Machine.execRailFault d pg s
  | .registerWrite fn off size value => Sys2Proof.Machine.execRegisterWrite fn off size value s
  | .tmpBeatNowHighRead fn => Sys2Proof.Machine.execTmpBeatNowHighRead fn s
  | .pcieLinkTrained rate width mode => Sys2Proof.Machine.execPcieLinkTrained rate width mode s
  | .hostPortLinkError kind => Sys2Proof.Machine.execHostPortLinkError kind s
  | .d3hotTransition fn toD3 => Sys2Proof.Machine.execD3hotTransition fn toD3 s
  | .i3cDynamicAddressTimeout slot => Sys2Proof.Machine.execI3cDynamicAddressTimeout slot s

end Sys2Proof.Machine
end

