-- ==== Sys2Proof/Safety.lean ====
section
/-! DEFINITION. What the claims about every step are stated in: the canonical form of device memory, and the promise of the cooling
watchdog. -/

namespace Sys2Proof.Machine

/-- The cooling outputs are full for as long as the cooling watchdog holds them (R605, R606). -/
def coolingHeld (t : Tray) : Bool := !t.wdHold || (t.cool0 == 30 && t.cool1 == 30 && t.fans == 30)

/-- What the slices hold of the line of an address, when they hold it. -/
def homeLine (s : State) (a : Nat) : Option GLine := findLine s (a / 256) (addrPart s a)

/-- A read of this line by an engine hits, whole, at its home slice (R189, R192): the slice is in service, and the line is valid in full, good
and not among the dead (R227). -/
def lineHeld (s : State) (line : Nat) : Bool :=
  let p := addrPart s (256 * line)
  !sliceOut s (homeSlice (256 * line)) && waysOf s p != 0 && !wasKilled s line p && !linePoisoned s line &&
    (homeLine s (256 * line)).any fun l => l.valid == BitVec.allOnes 256 && l.data.length == 256

/-- Every line of a range is held. -/
def rangeHeld (s : State) (a n : Nat) : Bool := (linesOf a n).all (lineHeld s)

/-- The bytes of a range as the slices hold them. -/
def heldBytes (s : State) (a n : Nat) : List Byte :=
  (List.range n).map fun i => ((homeLine s ((a + i) / 256 * 256)).bind fun l => l.data[(a + i) % 256]?).getD 0

/-- The engines have nothing under way, and the dies have power. -/
def enginesIdle (s : State) : Bool := s.grn.jobs.isEmpty && s.grn.recs.isEmpty && !s.pwr.diesDown

/-- What an ALU or CONVERT word leaves (R138, R140, R145, R147, R149): its result in the active lanes of the destination it names, or in a
predicate; what KEEP copies; the next pc; the tile's issue bookkeeping; and everything else as it was. -/
def wroteLanes (tile : Tile) (slot : GSlot) (cycle : Nat) (g : Group) (w : Nat) (res : Nat → W32) (pdst : Bool) (s t : State) (k : Group) : Prop :=
  getGroup t tile slot = some k ∧
  k.regs = (if pdst = false ∧ fDst w < 0x80 then
    (lanesOf (g.active w)).foldl (fun m l => mset 0 m (32 * fDst w + l) (res l)) g.regs else g.regs) ∧
  (∀ key, mget 0 k.rc key = mget 0 (
    if fKeep w = true ∧ key / 32 = fKslot w then (lanesOf (g.active w)).foldl (fun m l => mset 0 m (32 * fKslot w + l)
      (if fKsel w = 0 then res l else g.keepSource w tile slot s.tmp.beat l)) g.rc
    else if pdst = false ∧ 0x80 ≤ fDst w ∧ fDst w < 0x86 then
      (lanesOf (g.active w)).foldl (fun m l => mset 0 m (32 * (fDst w - 0x80) + l) (res l)) g.rc
    else g.rc) key) ∧
  (pdst = false → k.preds = g.preds ∧ k.predReady = g.predReady) ∧
  (pdst = true → k.preds = setPred g.preds (fDst w % 8) (g.active w) (aluLanePred g w tile slot s.tmp.beat) ∧
    k.predReady = mset 0 g.predReady (fDst w % 8) (cycle + 4)) ∧
  k = { g with
    pc := g.pc + 1, regs := k.regs, rc := k.rc, preds := k.preds, ready := k.ready, predReady := k.predReady, fetching := k.fetching } ∧
  (∀ a b, gKey a b ≠ gKey tile slot → getGroup t a b = getGroup s a b) ∧
  t = { s with tile := { s.tile with
    groups := t.tile.groups, lastSlot := t.tile.lastSlot, nextIssue := t.tile.nextIssue, fetchMiss := t.tile.fetchMiss } }

/-- What a grant of a token to the first of a word's active lanes leaves (R164, R165): the token held by it, GRANTED in its lane of the
destination and SELF_HELD in the others, the group past the word, and nothing changed outside the tiles. -/
def tokenGranted (tile : Tile) (slot : GSlot) (g : Group) (w tk l : Nat) (ls : List Nat) (s t : State) (k : Group) : Prop :=
  token t tk = .held g.part tile slot l ∧ getGroup t tile slot = some k ∧ k.pc = g.pc + 1 ∧
  (fDst w < 0x80 → k.regs = ls.foldl (fun m i => mset 0 m (32 * fDst w + i) 2) (mset 0 g.regs (32 * fDst w + l) 0)) ∧
  t = { s with tile := t.tile }

/-- The package as COLD reset and the loss of AON leave it (R507, R634): what Table 14-4 keeps is fuses and flash; the tray is another part. -/
def allLost (aon : Bool) (s t : State) : Prop :=
  t.rst = { aon := aon, resetN := s.rst.resetN, perst := s.rst.perst } ∧ t.mem.cells = [] ∧ t.stp.steps = [] ∧ t.str = none ∧
  t.pwr.orders = { capHost := binHostCap s.fuses.bin, capBoard := binMax s.fuses.bin } ∧ t.fuses = s.fuses ∧ t.flash = s.flash ∧ t.tray = s.tray

/-- A slot has lost its power at a time, which its record keeps (R613). -/
def slotDown (k : Fin 8) (now : Nat) (t : State) : Prop := slotOn t k = false ∧ ∃ c, t.tray.slot[k].lastCause = some c ∧ c.atMs = now

/-- A slot's record after GATE_RELEASE (R598): the force and the hold end, its closings are forgotten, a good gate opens. -/
def reopened (s : State) (k : Nat) (x : Slot) : Slot :=
  { x with openEn := x.openEn || (slotGood s k && x.present), forced := false, held := false, closings := [] }

end Sys2Proof.Machine
end

