-- ==== Sys2Proof/Certificates/Slice0/Obligations.lean ====
section
/-! DEFINITION. The statements for the provers, by family of commands. Every statement about a command has as its conclusion the next
state that exec answers, or what that state holds; its docstring names the rule it formalises. -/

open Sys2Proof Sys2Proof.Machine

/-! ## The queue, every step, device memory, the fuses -/

/-- Log 15 and the row's cut: a step executes the command at the front of the queue on the state with the queue's rest. -/
def Obligations.StepRunsFrontCommand : Prop :=
  ∀ (c : Instr) (rest : List Instr) (s : State), s.pending = c :: rest → step s = exec c { s with pending := rest }

/-- A step takes at most the front command off the queue, and no command adds to the queue or drops from it. -/
def Obligations.StepTakesOneCommand : Prop :=
  ∀ s t : State, step s = .next t → t.pending = s.pending.tail

/-- The model stops on no command: a step answers a next state from every state (log 1: the manual gives each command an effect). -/
def Obligations.StepAlwaysAnswersNext : Prop :=
  ∀ s : State, ∃ t, step s = .next t

/-- Device memory stays in its one canonical form, so that equal memories are equal data. -/
def Obligations.StepKeepsMemoryCanonical : Prop :=
  ∀ s t : State, s.mem.wf = true → step s = .next t → t.mem.wf = true

/-- R605, R606: while the cooling watchdog holds them, the three cooling outputs are full, whatever command comes. -/
def Obligations.StepKeepsCoolingFull : Prop :=
  ∀ s t : State, coolingHeld s.tray = true → step s = .next t → coolingHeld t.tray = true

/-- Device memory and cooling are in order at reset. -/
def Obligations.ResetInvariants : Prop :=
  State.reset.mem.wf = true ∧ coolingHeld State.reset.tray = true ∧ State.reset.pending = []

/-- R105: only a key operation of the loader writes a fuse (the data that ends it is SLD_READ_DONE). -/
def Obligations.FusesChangeOnlyByKeyop : Prop :=
  ∀ (c : Instr) (s t : State), (∀ good data, c ≠ .sldReadDone good data) → exec c s = .next t → t.fuses = s.fuses

/-- Only the cooling commands of Larkspur change the cooling outputs (R602, R605, R606). -/
def Obligations.CoolingChangesOnlyByCoolingCommands : Prop :=
  ∀ (c : Instr) (s t : State), exec c s = .next t → (t.tray.wdHold, t.tray.cool0, t.tray.cool1, t.tray.fans) ≠
      (s.tray.wdHold, s.tray.cool0, s.tray.cool1, s.tray.fans) →
    (∃ temps, c = .coolingUpdate temps) ∨ (∃ ms, c = .coolingWatchdogExpiry ms) ∨
      ∃ b1 b2 us i x y ms, c = .coolingWatchdogRelease b1 b2 us i x y ms

/-- R104: customer key slots move only from EMPTY to ENROLLED, from ENROLLED to REVOKED and from EMPTY to REVOKED, by any command. -/
def Obligations.KeySlotMoves : Prop :=
  ∀ (s t : State) (k : Fin 4), step s = .next t → t.fuses.keyState[k] = s.fuses.keyState[k] ∨
    (s.fuses.keyState[k] = .empty ∧ t.fuses.keyState[k] = .enrolled) ∨ (s.fuses.keyState[k] = .enrolled ∧ t.fuses.keyState[k] = .revoked) ∨
      (s.fuses.keyState[k] = .empty ∧ t.fuses.keyState[k] = .revoked)

/-! ## Tempo (02) -/

/-- R38, R48: at a beat boundary the beat number rises by one; by two when a skip of the guard beat is armed, by none when a hold is;
the ticks of the beat have passed, and a boundary that opens beat-in-frame 0 starts a frame. The exception is the frame boundary at which
a package that joins loads its master's count (R444). -/
def Obligations.BeatBoundaryCounts : Prop :=
  ∀ (refValid : Bool) (sense : BitVec 4) (next : Nat) (s : State), s.tmp.counting = true →
    next = (if s.tmp.realignArmed = true ∧ s.tmp.realign = .skip then s.tmp.beat + 2
      else if s.tmp.realignArmed = true ∧ s.tmp.realign = .hold then s.tmp.beat else s.tmp.beat + 1) →
    ∃ t, exec (.beatBoundary refValid sense) s = .next t ∧ t.tmp.counting = true ∧ t.tmp.nowTicks = s.tmp.nowTicks + s.tmp.beatTicks ∧
      (next % 1024 ≠ 0 ∨ (s.rhl.state = .joining → ∀ e ∈ s.rhl.reshapes, ownRank s ∉ e.joins) →
        t.tmp.beat = next ∧ (next % 1024 = 0 → t.tmp.frameStart = t.tmp.nowTicks))

/-- R40: a 32-bit read of the low half of TMP_BEAT_NOW latches the high half for its function; a read of the high half returns what
that function latched, or the current high half, and empties the latch. Nothing else changes. -/
def Obligations.BeatNowReads : Prop :=
  ∀ (fn : Fn) (s : State), s.hif.linkUp = true → decodes s fn = true →
    exec (.tmpBeatNowLowRead fn) s = .next { s with
      tmp := { s.tmp with latch := s.tmp.latch.set fn (some (BitVec.ofNat 32 (s.tmp.beat / 2 ^ 32))) },
      out := s.out ++ [.readData fn (BitVec.ofNat 64 (s.tmp.beat % 2 ^ 32))] } ∧
    exec (.tmpBeatNowHighRead fn) s = .next { s with
      tmp := { s.tmp with latch := s.tmp.latch.set fn none },
      out := s.out ++ [.readData fn ((s.tmp.latch[fn].getD (BitVec.ofNat 32 (s.tmp.beat / 2 ^ 32))).setWidth 64)] }

/-- R51, R52: a missing edge, or an interval more than 200 ppm off, takes the package from LOCKED to HOLDOVER for 1,000 beats and is
reported; an interval within 200 ppm becomes the last measured frequency. -/
def Obligations.ReferenceLoss : Prop :=
  ∀ (s : State) (ppm : Int), s.tmp.mode = .locked →
    (∃ t, exec .refEdgeTimeout s = .next t ∧ t.tmp = { s.tmp with refPresent := false, validBeats := 0, mode := .holdover, holdoverLeft := 1000 } ∧
      t.tel.now.events = s.tel.now.events ++ [.tempoHoldover] ∧ t.mem = s.mem ∧ t.stp = s.stp ∧ t.rhl = s.rhl ∧ t.grade = s.grade) ∧
    (200 < ppm.natAbs → exec (.refFreqIntervalEnd ppm) s = exec .refEdgeTimeout s) ∧
    (ppm.natAbs ≤ 200 → exec (.refFreqIntervalEnd ppm) s = .next { s with tmp := { s.tmp with lastFreqPpm := ppm } })

/-- R58: HOLDOVER is left for LOCKED when the reference has been valid for 16 consecutive beats, FENCED when for 1,024. -/
def Obligations.LeavingHoldoverAndFenced : Prop :=
  ∀ s : State,
    (s.tmp.mode = .holdover → 16 ≤ s.tmp.validBeats →
      exec .holdoverExit s = .next { s with tmp := { s.tmp with mode := .locked, holdoverLeft := 1000 } }) ∧
    (s.tmp.mode = .fenced → s.tmp.counting = true → 1024 ≤ s.tmp.validBeats →
      exec .fencedExit s = .next { s with tmp := { s.tmp with mode := .locked } })

/-- R55: after 1,000 beats of HOLDOVER the package enters FENCED and reports TEMPO_FENCED; the valid beats counted go on counting. -/
def Obligations.HoldoverEndsFenced : Prop :=
  ∀ s : State, s.tmp.mode = .holdover → s.tmp.holdoverLeft = 0 →
    ∃ t, exec .holdoverExpiry s = .next t ∧ t.tmp.mode = .fenced ∧ t.tmp.validBeats = s.tmp.validBeats ∧
      t.tmp.beat = s.tmp.beat ∧ t.tel.now.events = s.tel.now.events ++ [.tempoFenced] ∧ t.rhl.state ≠ .member ∧ t.mem = s.mem

/-- R45, R48, R49: a marker on the alignment link sets TMP_PHASE_ERR to its arrival less the link delay, and tells a member what to do
about its beat number: a hold when it is one ahead, a skip when one behind, a load when further off. -/
def Obligations.MarkerAligns : Prop :=
  ∀ (link : Link) (beatNo : Nat) (arrival : Int) (d : BitVec 16) (s : State), s.tmp.counting = true →
    linkLive (linkSt s link).state = true → alignsOn s link = true → s.tmp.linkDelay[link] = some d → s.rhl.state = .member →
    ∃ t, exec (.markerReceived link beatNo arrival) s = .next t ∧ t.tmp.phaseErr = arrival - d.toNat ∧
      t.tmp.aligned = decide ((arrival - d.toNat).natAbs ≤ 1) ∧
      (let diff := ownBeatAt s (arrival - d.toNat) - beatNo
       t.tmp.realign = if diff = 0 then .none else if diff = 1 then .hold else if diff = -1 then .skip else .load) ∧
      t.tmp.beat = s.tmp.beat ∧ t.mem = s.mem ∧ t.stp = s.stp ∧ t.rhl = s.rhl

/-- R48: a hold acts at the guard beat, a skip at the beat before it unless a grade takes effect at the next frame. -/
def Obligations.RealignArmsAtGuardBeat : Prop :=
  ∀ s : State, s.tmp.counting = true →
    (s.tmp.realign = .hold → bInF s.tmp.beat = 1023 → exec .catchUpRealign s = .next { s with tmp := { s.tmp with realignArmed := true } }) ∧
    (s.tmp.realign = .skip → bInF s.tmp.beat = 1022 → announcedFor s (frameOf s.tmp.beat + 1) = false →
      exec .catchUpRealign s = .next { s with tmp := { s.tmp with realignArmed := true } })

/-- R49: at the frame boundary after the marker that asked for it, a member that another package is master of loads the beat number that
the master has now: the marker's, with the link delay and the ticks since it arrived. It counts the realignment, and nothing is left to
realign. -/
def Obligations.BeatNumberLoadTakesMasterCount : Prop :=
  ∀ (m : Marker) (d : BitVec 16) (s : State), s.tmp.marker = some m → s.tmp.linkDelay[m.link] = some d → s.tmp.counting = true →
    s.tmp.realign = .load → ownState s = .member → ownMaster s ≠ ownRank s → s.tmp.beat % 1024 = 0 → m.atBeat ≠ s.tmp.beat →
    ∃ t, exec .beatNumberLoad s = .next t ∧
      t.tmp.beat = ((m.beatNo : Int) * 1000 + d.toNat + (s.tmp.nowTicks - m.atTicks)).toNat / 1000 ∧ t.tmp.counting = true ∧
      t.tmp.realign = .none ∧ t.tmp.realignCount = s.tmp.realignCount + 1

/-! ## Steps and partitions (09) -/

/-- R345, R347, R348: a doorbell of a function that may use the partition sets the TAIL of queue 4p + CLASS when the function has no posted
write outstanding, waits when it has, and sets DB_ERR when TAIL is beyond the ring or the partition is DISABLED or RESETTING. -/
def Obligations.DoorbellSetsTail : Prop :=
  ∀ (fn : Fn) (bar4 : Bool) (p : Part) (value : W32) (s : State), s.hif.linkUp = true → decodes s fn = true → mayPart s fn p = true →
    (bar4 = true → fn = 0 → servingFn s p = 0) →
    (let q := 4 * p.val + value.toNat / 2 ^ 30
     let tail := value.toNat % 4096
     let bad := 2 ^ (queueSt s q).size.toNat ≤ tail ∨ s.stp.part[p].state = .disabled ∨ s.stp.part[p].state = .resetting ∨ s.rst.warm = some true
     (bad → exec (.stpDoorbell fn bar4 p value) s =
        .next { s with stp := { s.stp with part := s.stp.part.set p { s.stp.part[p] with dbErr := true } } }) ∧
     (¬bad → (∀ e ∈ s.hif.posted, e.1 ≠ fn) → ∃ t, exec (.stpDoorbell fn bar4 p value) s = .next t ∧
        queueSt t q = { queueSt s q with tail := tail } ∧ (∀ r, r ≠ q → queueSt t r = queueSt s r) ∧ t.stp.steps = s.stp.steps ∧ t.mem = s.mem) ∧
     (¬bad → (∃ e ∈ s.hif.posted, e.1 = fn) → ∃ t, exec (.stpDoorbell fn bar4 p value) s = .next t ∧
        t.stp.queue = s.stp.queue ∧ t.stp.dbWait.length = s.stp.dbWait.length + 1))

/-- R344, R351: a descriptor whose bytes its slice holds and that passes the checks of Table 9-4 becomes a step of its partition and class
that waits to be placed, and the HEAD of its queue moves on by one entry. -/
def Obligations.DescriptorBecomesStep : Prop :=
  ∀ (q : Fin 32) (a : Nat) (b : List Byte) (s : State), (queueSt s q).head ≠ (queueSt s q).tail → cqFree s (q.val / 4) = true →
    s.pwr.stage = .run → s.rst.warm = none → a = (queueSt s q).base.toNat + 64 * (queueSt s q).head →
    rangeCode s (q.val / 4) a 64 = none → enginesIdle s = true → rangeHeld s a 64 = true → b = heldBytes s a 64 →
    descChecks s (q.val / 4) (q.val % 4) b = none →
    ∃ t x, exec (.descriptorRead q) s = .next t ∧ (queueSt t q).head = ((queueSt s q).head + 1) % 2 ^ (queueSt s q).size.toNat ∧
      (queueSt t q).tail = (queueSt s q).tail ∧ t.stp.steps = s.stp.steps ++ [x] ∧ x.part = q.val / 4 ∧ x.cls = q.val % 4 ∧
      x.phase = .read ∧ x.planId = fieldAt b 0 2 ∧ x.notBefore = fieldAt b 0x18 8 ∧ x.fault = none

/-- R64, R363: a placed step whose start beat has come, and whose ladder has a grade with free tiles, is admitted: it is in flight from this
beat, at that grade, charged TILES x FG_BEATS, no slot of it begun. An INGEST step needs its snapshot taken and its view written; a
COLLECTIVE step starts at its very start beat, in a member of the ring and a partition that may use it (R453, R455). -/
def Obligations.StepAdmitted : Prop :=
  ∀ (x : Step) (r : PlanRec) (g : PlanGrade) (s : State), getStep s x.id = some x → x.phase = .placed → x.start ≤ s.tmp.beat →
    isFg s.tmp.beat = true → admitting s = true → partTripped s x.part = false →
    (collectiveStep s x = true → collAllowed s x.part = true ∧ x.start = s.tmp.beat) →
    (x.ingest = true → x.snap.isSome = true ∧ viewPending s x.id = false) → x.snapCode = none →
    stepPlan s x = some r → chooseGrade s r s.tmp.beat = some g → g.tiles.any (tileHeld s) = false →
    ∃ t, exec (.stepAdmit x.id) s = .next t ∧
      getStep t x.id = some { x with
        phase := .live, start := s.tmp.beat, grade := g.grade, charge := r.tiles * g.fgBeats, begun := [], running := [], delays := [] } ∧
      t.mem = s.mem ∧ t.tmp = s.tmp

/-- R358, R360: at a C0 slot start, or at the first foreground beat after one that a load passed over (R665), the one C0 step that waits in
the one active partition is admitted, when its tiles and contexts are free and fewer than 32 C0 steps are in flight. -/
def Obligations.C0StepAdmittedAtSlotStart : Prop :=
  ∀ (p : Part) (x : Step) (r : PlanRec) (g : PlanGrade) (s : State),
    (isC0Slot s s.tmp.beat = true ∧ s.tmp.again = false ∨ s.stp.c0Due = true) → isFg s.tmp.beat = true →
    admitting s = true → (idx 8 fun k => (partSt s k).state == .active) = [p.val] → c0Waiting s p = [x] → getStep s x.id = some x →
    x.notBefore ≤ s.tmp.beat → (collectiveStep s x = true → collAllowed s x.part = true ∧ x.notBefore = s.tmp.beat) →
    partTripped s x.part = false → (x.ingest = true → x.snap.isSome = true ∧ viewPending s x.id = false) → x.snapCode = none →
    stepPlan s x = some r → chooseGrade s r s.tmp.beat = some g → g.tiles.any (tileHeld s) = false → ctxsFree s x = true →
    c0InFlight s < 32 →
    ∃ t, exec .c0SlotStart s = .next t ∧ t.stp.c0Due = false ∧
      getStep t x.id = some { x with
        phase := .live, start := s.tmp.beat, grade := g.grade, charge := r.tiles * g.fgBeats, begun := [], running := [], delays := [] } ∧
      t.mem = s.mem

/-- R59, R135: at its mapped beat a slot that launches a kernel starts a group on the named tile and group slot at the named instruction,
with every lane active, the arguments in v0 on and every later fault or completion charged to the step; the slot has begun and does not
begin again. A first instruction that is not in the tile's cache is a fetch that SHF_FETCH_MISS counts (R141). -/
def Obligations.SlotLaunchesGroup : Prop :=
  ∀ (x : Step) (n : Nat) (ps : PlanSlot) (tile : Tile) (slot : GSlot) (c : CodeRec) (pc : Nat) (args : List W32) (s : State),
    getStep s x.id = some x → slotOf s x n = some ps → x.phase = .live → slotFirst x ps = s.tmp.beat → n ∉ x.begun →
    namesTile s x tile = true → getGroup s tile slot = none →
    (s.str.bind fun y => y.codes.find? fun d => d.id == c.id && (d.part == x.part || d.part == 0xFF)) = some c →
    ∃ t k y, exec (.slotStart x.id n [.launch tile slot c.id pc 0 args]) s = .next (settle t) ∧ getGroup t tile slot = some k ∧
      k.pc = pc ∧ k.codeBase = c.addr ∧ k.exec = 0xFFFFFFFF ∧ k.step = x.id ∧ k.part = x.part ∧ k.cls = x.cls ∧ k.regs = argRegs args ∧
      k.hold = .none ∧ getStep t x.id = some y ∧ y.begun = n :: x.begun ∧ y.phase = .live ∧ y.fault = x.fault ∧ t.grn = s.grn ∧ t.mem = s.mem ∧
      (fetchWord s tile k = none → 8 * pc + 8 ≤ c.image.length →
        k.fetching = true ∧ vat t.tile.fetchMiss (tile.val / 16) 0 = vat s.tile.fetchMiss (tile.val / 16) 0 + 1)

/-- R70, R71, R74, R75: a slot that is under way ends at or after its last beat once its transfers are done. What it overran delays the
slots of the step that follow it and is counted; an overrun, or a limiter engaged on a die it ran on, is one tempo slip of the step with
the beat its run was to end at. -/
def Obligations.SlotOverrunDelays : Prop :=
  ∀ (x : Step) (n overrun : Nat) (ps : PlanSlot) (r : RunSlot) (s : State), getStep s x.id = some x → slotOf s x n = some ps →
    (x.running.find? fun q => q.slot == n) = some r → r.last ≤ s.tmp.beat → slotBusy s x.id n = false →
    (0 < overrun ∨ r.limited = true → ∃ t, exec (.slotEnd x.id n overrun false) s = .next t ∧ t.tmp.slipCount = s.tmp.slipCount + 1 ∧
      t.tmp.slipLast.beat = BitVec.ofNat 24 r.last ∧ t.tmp.slipLast.overrun = BitVec.ofNat 11 (min overrun 0x7FF) ∧
      t.tmp.slipLast.cause = (if r.limited = true then 1 else 0) ∧
      getStep t x.id = some { x with
        running := x.running.filter (fun q => q.slot != n), overrun := x.overrun + overrun
        delays := x.delays ++ [(ps.off + ps.beats, slotDelay x ps + overrun)], slip := true } ∧ t.tmp.beat = s.tmp.beat ∧ t.mem = s.mem) ∧
    (r.limited = false → ∃ t, exec (.slotEnd x.id n 0 false) s = .next t ∧ t.tmp = s.tmp ∧ t.mem = s.mem ∧
      getStep t x.id = some { x with
        running := x.running.filter (fun q => q.slot != n), delays := x.delays ++ [(ps.off + ps.beats, slotDelay x ps + 0)] })

/-- R352: a step in flight of which nothing runs any more, and whose run is over, completes: it leaves the package's steps and its record is
the next of its partition's completion ring. -/
def Obligations.StepCompletes : Prop :=
  ∀ (x : Step) (p : Part) (s : State), getStep s x.id = some x → x.part = p.val → x.phase = .live → outstanding s x.id = false →
    runOver s x = true → s.hif.linkUp = true →
    ∃ t, exec (.stepComplete x.id) s = .next t ∧ getStep t x.id = none ∧
      (partSt t p).cqTail = ((partSt s p).cqTail + 1) % 2 ^ (partSt s p).cqSize.toNat

/-- R357, R358, R359: writes by the PF of STP_SHARE, STP_C0_PHASE and STP_C0_SHEAVES are held for the next frame boundary when they are in
range; otherwise they are ignored and set CFG_ERR. -/
def Obligations.ShareAndC0Writes : Prop :=
  ∀ (p : Part) (v : W32) (w : W64) (s : State), s.hif.linkUp = true → decodes s 0 = true →
    (v.toNat % 65536 ≠ 0 → exec (.stpShareWrite 0 p v) s =
      .next { s with stp := { s.stp with part := s.stp.part.set p { s.stp.part[p] with shareNext := some (BitVec.ofNat 16 v.toNat) } } }) ∧
    (v.toNat % 65536 = 0 → exec (.stpShareWrite 0 p v) s =
      .next { s with stp := { s.stp with part := s.stp.part.set p { s.stp.part[p] with cfgErr := true } } }) ∧
    (1 ≤ v.toNat % 1024 → v.toNat % 1024 ≤ c0Period s - 2 → exec (.stpC0PhaseWrite 0 v) s =
      .next { s with stp := { s.stp with c0PhaseNext := some (v.toNat % 1024) } }) ∧
    ((∀ k : Fin 64, w.getLsbD k = true → ownsSheaf s p k = true) → exec (.stpC0SheavesWrite 0 p w) s =
      .next { s with stp := { s.stp with part := s.stp.part.set p { s.stp.part[p] with c0SheavesNext := some w } } }) ∧
    ((∃ k : Fin 64, w.getLsbD k = true ∧ ownsSheaf s p k = false) → exec (.stpC0SheavesWrite 0 p w) s =
      .next { s with stp := { s.stp with part := s.stp.part.set p { s.stp.part[p] with cfgErr := true } } })

/-- R366: a PART reset by the PF of a partition that is not DISABLED returns it to service, its completion ring empty with PHASE 1, and
RST_CAUSE names it. It stays FAULTED where a resource of it is failed (R511), and RESETTING under a WARM reset of the package. -/
def Obligations.PartResetClears : Prop :=
  ∀ (p : Part) (s : State), s.hif.linkUp = true → decodes s 0 = true → s.stp.part[p].state ≠ .disabled →
    ∃ t, exec (.partReset 0 p) s = .next t ∧ (s.stp.part[p].state = .resetting → (partSt t p).state = .resetting) ∧
      (s.stp.part[p].state ≠ .resetting → (partSt t p).state = .active ∨ (partSt t p).state = .faulted) ∧
      (partSt t p).cqHead = 0 ∧ (partSt t p).cqTail = 0 ∧ (partSt t p).cqPhase = true ∧
      t.rst.cause = { code := .ok, type := 3, source := 5, target := p.val }

/-- R368: a base or size of a ring is written only while the ring is empty and no step of the partition is in flight, and clears HEAD and
TAIL; otherwise the write is ignored and sets CFG_ERR. Stated for a queue of class C1 to C3 and for the completion ring. -/
def Obligations.QueueConfigWrites : Prop :=
  ∀ (fn : Fn) (q : Fin 32) (p : Part) (v : W64) (s : State), s.hif.linkUp = true → decodes s fn = true → p.val = q.val / 4 → q.val % 4 ≠ 0 →
    mayPart s fn p = true →
    (s.stp.queue[q].head = s.stp.queue[q].tail → noSteps s p = true → exec (.queueConfigWrite fn (.qBase q v)) s =
      .next { s with stp := { s.stp with queue := s.stp.queue.set q { s.stp.queue[q] with base := v &&& ~~~0xFFF, head := 0, tail := 0 } } }) ∧
    (s.stp.queue[q].head ≠ s.stp.queue[q].tail ∨ noSteps s p = false → exec (.queueConfigWrite fn (.qBase q v)) s =
      .next { s with stp := { s.stp with part := s.stp.part.set p { s.stp.part[p] with cfgErr := true } } }) ∧
    ((partSt s p).cqHead = (partSt s p).cqTail → noSteps s p = true → exec (.queueConfigWrite fn (.cqBase p v)) s =
      .next { s with stp := { s.stp with
        part := s.stp.part.set p { s.stp.part[p] with cqBase := v &&& ~~~0xFFF, cqTail := 0, cqHead := 0, cqPhase := true } } })

/-! ## The loader (03) -/

/-- R117, R118, R119, R670, R671: a write of GO by the PF while the loader is idle and a wake has completed starts the operation: VALIDATE and
LOAD read the 256-byte header of their source, KEYOP the 264 bytes of its block. A source in host memory that may not be read ends
VALIDATE and LOAD with LOAD_IO at step 1, a KEYOP of any other source or size with KEYOP_BAD and a new nonce. -/
def Obligations.LoaderStarts : Prop :=
  ∀ (src : BitVec 2) (keep : Bool) (s : State), s.hif.linkUp = true → decodes s 0 = true → s.sld.busy = false → s.rst.done = true →
    (src ≠ 3 → (src = 2 → s.sld.srcAddr.toNat % 4096 = 0 ∧ 256 ≤ s.sld.srcLen.toNat ∧ s.sld.srcLen.toNat ≤ 2 ^ 28) →
      (∃ t j, exec (.sldValidate src keep) s = .next t ∧ t.sld.busy = true ∧ t.sld.phase = 1 ∧ t.sld.job = some j ∧ j.kind = .validate ∧
        j.stage = .header ∧ t.out = s.out ++ [.loaderRead src.toNat (srcBase s src.toNat) 256] ∧ t.str = s.str ∧ t.mem = s.mem) ∧
      (∃ t j, exec (.sldLoad src keep) s = .next t ∧ t.sld.busy = true ∧ t.sld.phase = 1 ∧ t.sld.job = some j ∧ j.kind = .load ∧
        t.sld.keepMem = keep ∧ j.stage = .header ∧ t.out = s.out ++ [.loaderRead src.toNat (srcBase s src.toNat) 256] ∧ t.str = s.str ∧
        t.mem = s.mem)) ∧
    (src = 2 → s.sld.srcLen.toNat = 264 → s.sld.srcAddr.toNat % 4096 = 0 →
      ∃ t j, exec (.sldKeyop src keep) s = .next t ∧ t.sld.busy = true ∧ t.sld.job = some j ∧ j.stage = .keyBlock ∧
        t.out = s.out ++ [.loaderRead 2 s.sld.srcAddr.toNat 264] ∧ t.fuses = s.fuses) ∧
    (src = 2 → ¬(s.sld.srcAddr.toNat % 4096 = 0 ∧ 256 ≤ s.sld.srcLen.toNat ∧ s.sld.srcLen.toNat ≤ 2 ^ 28) →
      ∀ c ∈ [Instr.sldValidate src keep, .sldLoad src keep], ∃ t, exec c s = .next t ∧ t.sld.busy = false ∧ t.sld.code = .loadIo ∧
        t.sld.phase = 1 ∧ t.str = s.str ∧ t.mem = s.mem) ∧
    (src ≠ 3 → ¬(src = 2 ∧ s.sld.srcLen.toNat = 264 ∧ s.sld.srcAddr.toNat % 4096 = 0) →
      ∃ t, exec (.sldKeyop src keep) s = .next t ∧ t.sld.busy = false ∧ t.sld.code = .keyopBad ∧ t.sld.nonce = Config.freeWord s.free ∧
        t.free = s.free + 1 ∧ t.fuses = s.fuses)

/-- R127: a write of GO while the loader is busy, or before a wake has completed, is ignored apart from setting REJECT; one with the reserved
SRC starts nothing and sets REJECT. -/
def Obligations.LoaderRejectsGo : Prop :=
  ∀ (src : BitVec 2) (keep : Bool) (s : State), s.hif.linkUp = true → decodes s 0 = true →
    (s.sld.busy = true ∨ s.rst.done = false →
      exec (.sldValidate src keep) s = .next { s with sld := { s.sld with reject := true } } ∧
      exec (.sldLoad src keep) s = .next { s with sld := { s.sld with reject := true } } ∧
      exec (.sldKeyop src keep) s = .next { s with sld := { s.sld with reject := true } }) ∧
    (s.sld.busy = false → s.rst.done = true →
      exec (.sldValidate 3 keep) s = .next { s with sld := { s.sld with op := 0, src := 3, keepMem := keep, reject := true } } ∧
      exec (.sldLoad 3 keep) s = .next { s with sld := { s.sld with op := 1, src := 3, keepMem := keep, reject := true } } ∧
      exec (.sldKeyop 3 keep) s = .next { s with sld := { s.sld with op := 2, src := 3, keepMem := keep, reject := true } })

/-- R670, R671, R108, R118: the data of the loader's read, d being what a bank of flash holds or what the host sent. A header that passes
steps 1 and 2 makes it read the rest of the container; a container that passes the steps up to 11 makes it read the whole again; a
VALIDATE whose second read has the same digest ends with OK. A failed read, or a step that fails, ends a host's operation with its code
at that step. A key block that is not admitted ends a KEYOP with KEYOP_BAD, the fuses as they were, one that is admitted with OK and its
fuses, either way with a new nonce. -/
def Obligations.LoaderReadDone : Prop :=
  ∀ (j : Job) (data d : List Byte) (s : State), s.sld.job = some j → s.rst.warm = none → d = sourceBytes s j data →
    (∀ checked, checked = headStep 2 .hdrBad (headerChecks d (if j.src = 2 then some s.sld.srcLen.toNat else none)) →
      j.stage = .header → d.length = 256 →
      (checked = none → ∃ t, exec (.sldReadDone true data) s = .next t ∧ t.sld.phase = 3 ∧
        t.sld.job = some { j with stage := .body, held := d } ∧
        t.out = s.out ++ [.loaderRead j.src (srcBase s j.src + 256) (fieldAt d 8 4 - 256)] ∧ t.str = s.str ∧ t.fuses = s.fuses) ∧
      (∀ e, checked = some e → j.kind = .validate ∨ j.kind = .load → ∃ t, exec (.sldReadDone true data) s = .next t ∧
        t.sld.busy = false ∧ t.sld.code = e.code ∧ t.sld.phase = e.step ∧ t.sld.job = none ∧ t.str = s.str ∧ t.fuses = s.fuses)) ∧
    (∀ x, j.stage = .body → d.length + 256 = fieldAt j.held 8 4 → validate s (j.held ++ d) = .inl x →
      ∃ t, exec (.sldReadDone true data) s = .next t ∧ t.sld.phase = 12 ∧
        t.sld.job = some { j with stage := .reread, held := [], digest := x.hash, shadow := some x } ∧
        t.out = s.out ++ [.loaderRead j.src (srcBase s j.src) (fieldAt (j.held ++ d) 8 4)] ∧ t.str = s.str ∧ t.fuses = s.fuses) ∧
    (j.stage = .reread → j.kind = .validate → 216 ≤ d.length → signedDigest d (d.length - 216) = j.digest →
      ∃ t, exec (.sldReadDone true data) s = .next t ∧ t.sld.busy = false ∧ t.sld.code = .ok ∧ t.sld.phase = 0 ∧ t.sld.job = none ∧
        t.str = s.str ∧ t.fuses = s.fuses) ∧
    (j.kind = .validate ∨ j.kind = .load → ∀ e ∈ [(JobStage.header, 1), (.body, 3), (.reread, 12)], j.stage = e.1 →
      ∃ t, exec (.sldReadDone false data) s = .next t ∧ t.sld.busy = false ∧ t.sld.code = .loadIo ∧ t.sld.phase = e.2 ∧ t.sld.job = none ∧
        t.str = s.str ∧ t.fuses = s.fuses) ∧
    (j.stage = .keyBlock → ∃ t, exec (.sldReadDone true data) s = .next t ∧ t.sld.busy = false ∧
      t.sld.nonce = Config.freeWord s.free ∧ t.free = s.free + 1 ∧ match keyOperation s.fuses s.sld.nonce d with
        | none => t.sld.code = .keyopBad ∧ t.fuses = s.fuses
        | some f => t.sld.code = .ok ∧ t.fuses = f)

/-! ## Tiles (04) -/

/-- R138, R140, R145, R147, R149: a legal ALU or CONVERT word writes its result in the active lanes only, to the destination the word names
or to a predicate; KEEP copies into the operand-reuse cache; the pc moves on, the tile is busy for the word's issue cycles, and nothing else
of the package changes. -/
def Obligations.AluAndConvertWriteActiveLanes : Prop :=
  ∀ (tile : Tile) (slot : GSlot) (cycle : Nat) (g : Group) (w : Nat) (s : State),
    (issuing s tile slot cycle 0 .plain = some (g, w) → aluOk w = true → ∃ t k, exec (.aluInstr tile slot cycle true) s = .next t ∧
      wroteLanes tile slot cycle g w (aluLane g w tile slot s.tmp.beat) (fPdst w) s t k) ∧
    (issuing s tile slot cycle 7 .plain = some (g, w) → convertOk w = true → ∃ t k, exec (.convertInstr tile slot cycle true) s = .next t ∧
      wroteLanes tile slot cycle g w (convertLane g w tile slot s.tmp.beat) false s t k)

/-- R139, R145: a legal CONTROL word changes the group's pc, execution mask or one register, KEEP copies a source into the operand-reuse
cache, and nothing else changes. R141: the words that a held fetch waits for, and that their slice holds, enter the tile's instruction
cache; the fetch itself was counted when it began. -/
def Obligations.ControlAndFetch : Prop :=
  ∀ (tile : Tile) (slot : GSlot) (cycle : Nat) (g : Group) (w : Nat) (s : State),
    (∀ k, issuing s tile slot cycle 6 (if k = .restoreExec then .operandA else .plain) = some (g, w) → controlOk w k = true →
      ∃ t h, exec (.controlInstr tile slot cycle true k) s = .next t ∧
      getGroup t tile slot = some h ∧ h.preds = g.preds ∧ h.step = g.step ∧ h.hold = g.hold ∧
      (k = .branch → h.pc = (if branchTaken g w = true then ((g.pc : Int) + branchOffset w).toNat else g.pc + 1) ∧ h.exec = g.exec) ∧
      (k = .setExec → h.pc = g.pc + 1 ∧ h.exec = g.exec &&& g.predMask w) ∧
      (k = .saveExec → h.pc = g.pc + 1 ∧ h.exec = g.exec ∧ (fDst w < 0x80 →
        h.regs = (lanesOf (g.active w)).foldl (fun m l => mset 0 m (32 * fDst w + l) g.exec) g.regs)) ∧
      (k = .restoreExec → h.pc = g.pc + 1 ∧ ∀ l ls, lanesOf (g.active w) = l :: ls → h.exec = g.operand tile slot s.tmp.beat l (fA w)) ∧
      (k ≠ .saveExec → h.regs = g.regs ∧ ∀ key, mget 0 h.rc key = mget 0 (if fKeep w = true ∧ key / 32 = fKslot w ∧ fKsel w ≠ 0 then
          (lanesOf (g.active w)).foldl (fun m l => mset 0 m (32 * fKslot w + l) (g.keepSource w tile slot s.tmp.beat l)) g.rc
        else g.rc) key) ∧
      t = { s with tile := { s.tile with
        groups := t.tile.groups, lastSlot := t.tile.lastSlot, nextIssue := t.tile.nextIssue, fetchMiss := t.tile.fetchMiss } }) ∧
    (∀ n, 0 < n → getGroup s tile slot = some g → fetchWord s tile g = none → enginesIdle s = true →
      rangeHeld s (g.codeBase + 8 * g.pc) (8 * n) = true → ∃ t k, exec (.icacheFill tile slot n) s = .next t ∧
        fetchWord t tile g = some (leNat (heldBytes s (g.codeBase + 8 * g.pc) 8)) ∧ getGroup t tile slot = some k ∧
        k = { g with fetching := false } ∧ t.tile.fetchMiss = s.tile.fetchMiss ∧ t.stp = s.stp ∧ t.mem = s.mem)

/-- R153 to R157, R496: MXE.MMA leaves in each element of its accumulator the old element (or 0 under ZERO) plus the inner product of a row
of A and a column of B read from the tile's local memory, and holds the engine for 16 cycles and the die's limiter step; MXE.ST sends the
accumulator's elements to the tile's local memory, FP32 or converted with the scales of a microscaling format, where they are 8 cycles
later (R140), and holds the engine for them. -/
def Obligations.MatrixEngine : Prop :=
  ∀ (tile : Tile) (slot : GSlot) (cycle l a b sc : Nat) (ls : List Nat) (g : Group) (w : Nat) (s : State),
    mxeOk w = true → lanesOf (g.active w) = l :: ls →
    (issuing s tile slot cycle 1 .mma = some (g, w) →
      ownRange tile (g.operand tile slot s.tmp.beat l (fA w)).toNat (32 * mxeRowBytes (fFmt w)) = some a →
      ownRange tile (g.operand tile slot s.tmp.beat l (fB w)).toNat (32 * mxeRowBytes (fFmt w)) = some b →
      (mxeScaled (fFmt w) = true → ownRange tile (g.operand tile slot s.tmp.beat l (fC w)).toNat (mxeScaleBytes (fFmt w)) = some sc) →
      (mxeScaled (fFmt w) = false → sc = 0) →
      ∃ t k, exec (.mxeMma tile slot cycle true) s = .next t ∧ getGroup t tile slot = some k ∧ k.pc = g.pc + 1 ∧ k.regs = g.regs ∧
        t.tile.acc = (List.range 32).foldl (fun m i => (List.range 32).foldl (fun m j =>
          mset 0 m (8192 * tile.val + 1024 * fAcc w + 32 * i + j) (mmaElement (fFmt w)
            (if fZero w then 0 else mget 0 s.tile.acc (8192 * tile.val + 1024 * fAcc w + 32 * i + j))
            (readLocal s tile (a + mxeRowBytes (fFmt w) * i) (mxeRowBytes (fFmt w)))
            (readLocal s tile (b + mxeRowBytes (fFmt w) * j) (mxeRowBytes (fFmt w)))
            ((((readLocal s tile sc (mxeScaleBytes (fFmt w))).map (·.toNat)).drop (mxeK (fFmt w) / 32 * i)).take (mxeK (fFmt w) / 32))
            ((((readLocal s tile sc (mxeScaleBytes (fFmt w))).map (·.toNat)).drop (32 * (mxeK (fFmt w) / 32) + mxeK (fFmt w) / 32 * j)).take
              (mxeK (fFmt w) / 32)))) m) s.tile.acc ∧
        t.tile.mxeFree = mset 0 s.tile.mxeFree tile (cycle + (16 + (vat s.pwr.die (tile.val / 256) {}).limiter)) ∧
        t.tile.localMem = s.tile.localMem ∧ t = { s with tile := t.tile }) ∧
    (∀ fp32 o, issuing s tile slot cycle 1 .mxeSt = some (g, w) →
      ownRange tile (g.operand tile slot s.tmp.beat l (fA w)).toNat (mxeStBytes s tile (fAcc w) (fFmt w) fp32).length = some o →
      (fp32 = false → mxeScaled (fFmt w) = true → ownRange tile (g.operand tile slot s.tmp.beat l (fC w)).toNat 32 = some sc) →
      ∃ t k, exec (.mxeSt tile slot cycle true fp32) s = .next t ∧ getGroup t tile slot = some k ∧ k.pc = g.pc + 1 ∧ k.regs = g.regs ∧
        t.tile.mxeOut = s.tile.mxeOut ++ { tile := tile, addr := o, bytes := mxeStBytes s tile (fAcc w) (fFmt w) fp32, at_ := cycle + 8 } ::
          (if fp32 = false ∧ mxeScaled (fFmt w) = true then
            [{ tile := tile, addr := sc, bytes := mxeStScales s tile (fAcc w) (fFmt w), at_ := cycle + 8 }] else []) ∧
        (∀ c, cycle + 8 ≤ c → s.tile.mxeOut = [] → (t.mxeUpTo c).tile.localMem = (if fp32 = false ∧ mxeScaled (fFmt w) = true then
          msetN 0 (msetN 0 s.tile.localMem (2 ^ 19 * tile.val + o) (mxeStBytes s tile (fAcc w) (fFmt w) fp32)) (2 ^ 19 * tile.val + sc)
            (mxeStScales s tile (fAcc w) (fFmt w))
          else msetN 0 s.tile.localMem (2 ^ 19 * tile.val + o) (mxeStBytes s tile (fAcc w) (fFmt w) fp32))) ∧
        t.tile.localMem = s.tile.localMem ∧
        t.tile.mxeFree = mset 0 s.tile.mxeFree tile (cycle + 8) ∧ t.tile.acc = s.tile.acc ∧ t = { s with tile := t.tile })

/-- R158, R160, R171, R178: a LOCAL load whose lanes pass the checks returns to each active lane the youngest buffered byte over the target's
local memory, with what MXE.ST has sent there by then; a LOCAL or DEVICE store whose entries fit goes to the store buffer: with one active lane and no open entry of its block, a
load of the tile finds its bytes there and every other buffered byte as before. Neither changes any memory. -/
def Obligations.LocalLoadsAndStores : Prop :=
  ∀ (tile : Tile) (slot : GSlot) (cycle size : Nat) (g : Group) (w : Nat) (addr : Nat → Nat) (u s : State), size = (fSize w).getD 4 →
    u = s.mxeUpTo cycle → (issuing s tile slot cycle 2 .load = some (g, w) → localOk w false = true → addr = localAddr g w tile slot s.tmp.beat size →
      localCheck tile size ((lanesOf (g.active w)).map addr) = none → ∃ t k, exec (.localLoad tile slot cycle true) s = .next t ∧
        getGroup t tile slot = some k ∧ k.pc = g.pc + 1 ∧ k.exec = g.exec ∧ k.preds = g.preds ∧
        k.regs = ((lanesOf (g.active w)).foldl (fun (h : Group) l => h.writeLoad (fDst w) l (localLane u tile (addr l) size)) g).regs ∧
        t = { s with tile := { u.tile with
          groups := t.tile.groups, lastSlot := t.tile.lastSlot, nextIssue := t.tile.nextIssue, fetchMiss := t.tile.fetchMiss } }) ∧
    (∀ l d o, issuing s tile slot cycle 2 .store = some (g, w) → localOk w true = true → addr = localAddr g w tile slot s.tmp.beat size →
      localCheck tile size [addr l] = none → lanesOf (g.active w) = [l] → localTarget tile (addr l) = some (d, o) →
      sbCount s tile < 32 → sbOpen s tile (some d) (o / 64) = none →
      ∃ t k, exec (.localStore tile slot cycle true) s = .next t ∧ getGroup t tile slot = some k ∧ k.pc = g.pc + 1 ∧ k.regs = g.regs ∧
        (∀ i, i < size → sbByte t tile (some d) (o + i) = (storeBytes g w tile slot s.tmp.beat size l)[i]?) ∧
        (∀ sp a, (sp ≠ some d ∨ a < o ∨ o + size ≤ a) → sbByte t tile sp a = sbByte s tile sp a) ∧
        t.tile.localMem = s.tile.localMem ∧ t = { s with tile := t.tile, nextId := t.nextId }) ∧
    (∀ l, issuing s tile slot cycle 3 .store = some (g, w) → deviceOk w true = true → addr = deviceAddr g w tile slot s.tmp.beat size →
      deviceCheck s g.part size [addr l] = none → lanesOf (g.active w) = [l] →
      sbCount s tile < 32 → sbOpen s tile none (addr l / 64) = none →
      ∃ t k, exec (.deviceStore tile slot cycle true) s = .next t ∧ getGroup t tile slot = some k ∧ k.pc = g.pc + 1 ∧ k.regs = g.regs ∧
        (∀ i, i < size → sbByte t tile none (addr l + i) = (storeBytes g w tile slot s.tmp.beat size l)[i]?) ∧
        (∀ sp a, (sp ≠ none ∨ a < addr l ∨ addr l + size ≤ a) → sbByte t tile sp a = sbByte s tile sp a) ∧
        t.tile.localMem = s.tile.localMem ∧ t = { s with tile := t.tile, nextId := t.nextId })

/-- R178 to R183, R240: a DEVICE load that issues (its response slots are free then) reserves them and asks the home slices for each line it touches; a store-buffer entry begins
to drain at most one a cycle, in order; a local entry's bytes are in local memory four cycles later; a device entry is freed when its slice
has acknowledged it; and a load whose lines have all answered writes its registers, or faults its group. -/
def Obligations.DeviceLoadsAndDrains : Prop :=
  ∀ (tile : Tile) (slot : GSlot) (cycle : Nat) (g : Group) (w : Nat) (s : State),
    (∀ size addr, issuing s tile slot cycle 3 .load = some (g, w) → deviceOk w false = true → size = (fSize w).getD 4 →
      addr = deviceAddr g w tile slot s.tmp.beat size → deviceCheck s g.part size ((lanesOf (g.active w)).map addr) = none →
      lanesOf (g.active w) ≠ [] →
      ∃ t k l, exec (.deviceLoad tile slot cycle true) s = .next t ∧ getGroup t tile slot = some k ∧ k.pc = g.pc + 1 ∧ k.regs = g.regs ∧
        t.tile.loads = s.tile.loads ++ [l] ∧ l.id = s.nextId ∧ l.tile = tile.val ∧ l.slot = slot.val ∧ l.size = size ∧ l.group = g.id ∧
        l.slots = ((lanesOf (g.active w)).length * size + 63) / 64 ∧
        l.lanes.map (fun a => (a.lane, a.addr)) = (lanesOf (g.active w)).map (fun i => (i, addr i)) ∧
        t.grn.reqs.map (fun r => (r.line, r.write, r.src, r.part)) = s.grn.reqs.map (fun r => (r.line, r.write, r.src, r.part)) ++
          (((lanesOf (g.active w)).map fun i => addr i / 256).eraseDups.map fun n => (n, false, ReqSrc.load s.nextId, g.part)) ∧
        t.mem = s.mem ∧ t.tile.localMem = s.tile.localMem) ∧
    (∀ e es, (s.tile.storeBuf.filter fun x => x.tile == tile.val && x.begun.isNone) = e :: es →
      (∀ x ∈ s.tile.storeBuf, x.tile = tile.val → x.begun ≠ some cycle) →
      (e.taken + 16 ≤ cycle ∨ 24 < sbCount s tile ∨ ∃ x ∈ e :: es, drainWanted s x = true) → ∃ t, exec (.storeDrainStart tile cycle) s = .next t ∧
        t.tile.storeBuf = s.tile.storeBuf.map (fun x => if x.id = e.id then { x with begun := some cycle } else x) ∧
        (e.space ≠ none → t = { s with tile := t.tile }) ∧
        (e.space = none → ∃ r, t.grn.reqs = s.grn.reqs ++ [r] ∧ r.line = e.block / 4 ∧ r.write = true ∧ r.src = .store tile e.id ∧
          r.mask = BitVec.ofNat 256 (e.mask.toNat * 2 ^ (64 * (e.block % 4))) ∧ t.mem = s.mem)) ∧
    (∀ e d c, (s.tile.storeBuf.find? fun x => x.tile == tile.val && x.id == e.id) = some e →
      (s.tile.storeBuf.find? fun x => x.tile == e.tile && x.space == e.space && x.block == e.block) = some e → e.begun = some c →
      (e.space = some d → c + 4 ≤ cycle → ∃ t, exec (.storeAck tile e.id cycle) s = .next t ∧
        t.tile.storeBuf = s.tile.storeBuf.filter (fun x => x.id != e.id) ∧
        t.tile.localMem = (List.range 64).foldl (fun m i => if e.mask.getLsbD i then
          mset 0 m (2 ^ 19 * d + (64 * e.block + i)) ((e.data[i]?).getD 0) else m) (s.mxeUpTo cycle).tile.localMem ∧
        t = { s with tile := t.tile }) ∧
      (e.space = none → storePending s tile e.id = false → ∃ t, exec (.storeAck tile e.id cycle) s = .next t ∧
        t.tile.storeBuf = s.tile.storeBuf.filter (fun x => x.id != e.id) ∧ t.tile.localMem = s.tile.localMem ∧ t.mem = s.mem)) ∧
    (∀ l, (s.tile.loads.find? fun x => x.id == l.id) = some l → l.tile = tile.val → l.slot = slot.val → getGroup s tile slot = some g →
      g.id = l.group →
      (∀ n ∈ l.need, ∃ e ∈ l.got, e.1 = n) → ∃ t, exec (.loadResponse l.id cycle) s = .next t ∧ t.mem = s.mem ∧
        t.tile.loads = s.tile.loads.filter (fun x => x.id != l.id) ∧
        (l.code = none → ∃ k, getGroup t tile slot = some k ∧ k.pc = g.pc ∧ k.regs =
          (l.lanes.foldl (fun (h : Group) (a : LaneAcc) => h.writeLoad l.dst.toNat a.lane (laneBytes l a)) g).regs) ∧
        (l.code ≠ none → getGroup t tile slot = none))

/-- R151, R164 to R169, R174, R176: a fence retires and holds its group while its accesses are not done, or does nothing with no active
lane; with no other request of its token in the same cycle, and its die in service, a token is granted to the lowest active
lane when it is free, is waited for when another group holds it, is freed by its holder; a wait that reaches its limit answers BUSY; and a
group that exits leaves its slot. -/
def Obligations.FencesAndTokens : Prop :=
  ∀ (tile : Tile) (slot : GSlot) (cycle : Nat) (g : Group) (w : Nat) (s : State),
    (issuing s tile slot cycle 4 .plain = some (g, w) → fenceOk w = true → fOp w = 0 → g.active w ≠ 0 →
      ∃ t k, exec (.fenceL tile slot cycle) s = .next t ∧
      getGroup t tile slot = some k ∧ k.pc = g.pc + 1 ∧ k.regs = g.regs ∧ (k.hold = if hasStores s tile g.id false then .fenceL else .none) ∧
      t = { s with tile := t.tile }) ∧
    (issuing s tile slot cycle 4 .plain = some (g, w) → fenceOk w = true → fOp w = 1 → g.active w ≠ 0 →
      ∃ t k, exec (.fenceD tile slot cycle) s = .next t ∧
      getGroup t tile slot = some k ∧ k.pc = g.pc + 1 ∧ k.regs = g.regs ∧
      (k.hold = if hasStores s tile g.id true || hasLoads s tile g.id then .fenceD else .none) ∧ t = { s with tile := t.tile }) ∧
    (∀ c, (c = .fenceL tile slot cycle ∧ fOp w = 0 ∨ c = .fenceD tile slot cycle ∧ fOp w = 1) → issuing s tile slot cycle 4 .plain = some (g, w) →
      fenceOk w = true → g.active w = 0 → ∃ t k, exec c s = .next t ∧ getGroup t tile slot = some k ∧ k.pc = g.pc + 1 ∧ k.regs = g.regs ∧
        k.hold = g.hold ∧ t = { s with tile := t.tile }) ∧
    (∀ l ls tk, issuing s tile slot cycle 5 .plain = some (g, w) → tokenOk w = true → lanesOf (g.active w) = l :: ls →
      tk = tokenIndex g w tile slot s.tmp.beat l → ownsSheaf s g.part (tk / 64) = true →
      (vat s.fab.die (tk / 1024) {}).reloading = false → (∀ u ∈ s.tile.tokenTurn, u.token = tk → u.cycle ≠ cycle) →
      (token s tk = .free →
        (fOp w = 0 → ∃ t k, exec (.tokenAcq tile slot cycle) s = .next t ∧ tokenGranted tile slot g w tk l ls s t k) ∧
        (fOp w = 1 → ∃ t k, exec (.tokenWait tile slot cycle) s = .next t ∧ tokenGranted tile slot g w tk l ls s t k)) ∧
      (∀ p a b c, token s tk = .held p a b c → (a ≠ tile.val ∨ b ≠ slot.val) →
        (fOp w = 0 → ∃ t k, exec (.tokenAcq tile slot cycle) s = .next t ∧ t.tile.tokens = s.tile.tokens ∧ getGroup t tile slot = some k ∧
          k.pc = g.pc + 1 ∧ (fDst w < 0x80 → k.regs = (l :: ls).foldl (fun m i => mset 0 m (32 * fDst w + i) 1) g.regs)) ∧
        (fOp w = 1 → ∃ t k v, exec (.tokenWait tile slot cycle) s = .next t ∧ t.tile.tokens = s.tile.tokens ∧ getGroup t tile slot = some k ∧
          k.pc = g.pc + 1 ∧ k.hold = .token ∧ t.tile.tokenWait = s.tile.tokenWait ++ [v] ∧ v.token = tk ∧ v.tile = tile.val ∧
          v.slot = slot.val)) ∧
      (fOp w = 2 → token s tk = .held g.part tile slot l → holdOver s tile g.id .release = true → g.loadsBack ≤ cycle → nextWaiter s tk = none →
        ∃ t k, exec (.tokenRel tile slot cycle) s = .next t ∧ t.tile.tokens = mset .free s.tile.tokens tk .free ∧
          getGroup t tile slot = some k ∧ k.pc = g.pc + 1 ∧ t = { s with tile := t.tile })) ∧
    (∀ v c, (s.tile.tokenWait.find? fun x => x.tile == tile.val && x.slot == slot.val) = some v → v.limit = some c → c ≤ cycle →
      getGroup s tile slot = some g → v.dst.toNat < 0x80 → ∃ t k, exec (.tokenWaitLimit tile slot cycle) s = .next t ∧
        t.tile.tokenWait = s.tile.tokenWait.filter (fun x => x != v) ∧ t.tile.tokens = s.tile.tokens ∧ getGroup t tile slot = some k ∧
        k.hold = .none ∧ k.regs = (lanesOf v.lanes).foldl (fun m i => mset 0 m (32 * v.dst.toNat + i) 1) g.regs) ∧
    (getGroup s tile slot = some g → ∃ t, exec (.groupExit tile slot) s = .next t ∧ getGroup t tile slot = none ∧
      t.tile.storeBuf = s.tile.storeBuf ∧ t.mem = s.mem ∧
      (holdsToken s tile slot = true → ∀ x, getStep s g.step = some x → getStep t g.step = some { x with tokenHeld := true }))

/-! ## The Granary and the fabric (05, 06) -/

/-- R192, R197, R199, R221, R222, R241, R304: a read that hits answers with the line's bytes, and its dead hint kills the line without
writeback, or waits for the fill of the line that is in flight; a read that misses takes a miss register; a fill of a clean line installs the
stack's bytes under the bytes stored since the miss; a store that hits is merged into the line; and a granted write to a stack is in device
memory, or in the write buffer while the stack is tripped, and leaves the queue. None of the first four changes a byte of device memory.
The engines' jobs then go on (settle), where there are any. -/
def Obligations.GranaryServes : Prop :=
  ∀ s : State, (s.grn.jobs = [] → settle s = s) ∧
    (∀ (r : MemReq) (l : GLine) (load : Nat), (s.grn.reqs.find? fun q => q.id == r.id && q.write == false) = some r → r.deadline = none →
      r.src = .load load → noHome s r = false → wasKilled s r.line r.part = false → linePoisoned s r.line = false →
      findLine s r.line r.part = some l → r.mask &&& l.valid = r.mask →
      ∃ t, exec (.granaryRead r.id .clean) s = .next (settle t) ∧ t.grn.reqs = s.grn.reqs.filter (fun q => q.id != r.id) ∧ t.mem = s.mem ∧
        t.tile.loads = s.tile.loads.map (fun x => if x.id = load then { x with got := x.got ++ [(r.line, l.data)] } else x) ∧
        (r.last = true ∨ lineClass s l = clsDead → (findMiss s r.line r.part = none → findLine t r.line r.part = none) ∧
          ∀ m, findMiss s r.line r.part = some m → findMiss t r.line r.part = some { m with dead := true }) ∧
        (r.last = false → lineClass s l ≠ clsDead → findLine t r.line r.part = some { l with used := s.grn.clock + 1 })) ∧
    (∀ r : MemReq, (s.grn.reqs.find? fun q => q.id == r.id && q.write == false) = some r → r.deadline = none → noHome s r = false →
      wasKilled s r.line r.part = false → findLine s r.line r.part = none → findMiss s r.line r.part = none →
      missFree s r = true → waiterFree s r = true →
      ∃ t m, exec (.granaryRead r.id .clean) s = .next (settle t) ∧ t.grn.misses = s.grn.misses ++ [m] ∧ m.line = r.line ∧ m.part = r.part ∧
        m.waiters.map (·.req) = [r] ∧ m.dead = r.last ∧ m.mask = 0 ∧ m.master = r.master ∧
        m.issued = fits s r.master (groupOf (256 * r.line)) 4 (c0Desc r) ∧ t.grn.lines = s.grn.lines ∧ t.mem = s.mem) ∧
    (∀ (m : Miss) (bursts : List Burst), (s.grn.misses.find? fun x => x.line == m.line && x.issued && x.fillData.isNone) = some m →
      (∀ b ∈ bursts, b = .clean) → linePoison s m.line = false → linePoisonAnswer s m.line = false → s.grn.heldMerge = [] →
      s.grn.heldPool = [] → findLine s m.line m.part = none → m.dead = false → m.alloc = true →
      findWay s (256 * m.line) m.part m.cls false = some none →
      ∃ t, exec (.granaryFill m.line bursts) s = .next (settle t) ∧ findMiss t m.line m.part = none ∧ t.mem = s.mem ∧
        t.grn.lines = s.grn.lines ++ [{ line := m.line, part := m.part, way := freeWay s (256 * m.line) m.part
                                        data := mergeBytes m.mask (stackLine s m.line) m.data
                                        valid := BitVec.allOnes 256, dirty := m.mask, win := m.win
                                        used := if m.cls = clsStream then 0 else s.grn.clock + 1, inserted := s.grn.clock + 1 }]) ∧
    (∀ (r : MemReq) (l : GLine) (tile e : Nat), (s.grn.reqs.find? fun q => q.id == r.id && q.write == true) = some r →
      storeBlocked s r = false → r.src = .store tile e → r.deadline = none → r.poisoned = false → noHome s r = false →
      linePoisoned s r.line = false → findLine s r.line r.part = some l →
      ∃ t, exec (.granaryStore r.id) s = .next (settle t) ∧ t.grn.reqs = s.grn.reqs.filter (fun q => q.id != r.id) ∧
        t.mem.cells = s.mem.cells ∧ findLine t r.line r.part = some { l with
          data := mergeBytes r.mask l.data r.data, valid := l.valid ||| r.mask, dirty := l.dirty ||| r.mask, used := s.grn.clock + 1 }) ∧
    (∀ (x : Fin 512) (found : List Burst) (w : WbWait) (r : MemReq) (u : State), nextWrite s x = some w → w.evict = false →
      w.andThen = .ack r → u = { s with mem := { s.mem with wbWait := s.mem.wbWait.filter fun v => v.id != w.id } } →
      ∃ t, exec (.wbEntryGrant x found) s = .next (settle t) ∧ (∀ v ∈ t.mem.wbWait, v.id ≠ w.id) ∧
        (stackTripped s (w.x / 64) = false → t.mem.cells = (mergeLine u w.line w.mask w.data w.poisoned found).mem.cells) ∧
        (stackTripped s (w.x / 64) = true → t.mem.cells = s.mem.cells ∧ t.mem.wbuf = s.mem.wbuf ++ [w]))

/-- R209, R212, R213, R216, R219, R113: window bounds are staged, a control write arms them over what an earlier write of the beat has
armed, and the next beat boundary commits them in every slice; an allowed quota in range is set, one out of range sets QUOTA_ERR and one
that is not allowed WIN_ERR; a tracker that has seen no expected miss for 1,024 beats leaves the detected state; and the clear of
GRN_MATCH_TIE sets the count of its slice to 0, whatever the state. -/
def Obligations.WindowsQuotasTrackers : Prop :=
  ∀ (via : Die) (s : State),
    exec (.matchTieClear via) s = .next { s with grn := { s.grn with slice := s.grn.slice.set via { s.grn.slice[via] with matchTie := 0 } } } ∧
    (∀ (k : Fin 32) (x : Tracker), s.grn.slice[via].trackers[k.val]? = some (some x) → x.detected = true → x.lastBeat + 1024 ≤ s.tmp.elapsed →
      exec (.streamTrackerTimeout via k) s = .next { s with grn := { s.grn with
        slice := s.grn.slice.set via { s.grn.slice[via] with trackers := s.grn.slice[via].trackers.set k.val none } } }) ∧
    (s.grn.armed = [] → exec .windowCommit s = .next s) ∧
    (∀ (n : Fin 64) (h : Window), s.grn.armed = [(n.val, h)] →
      exec .windowCommit s = .next { s with grn := { s.grn with armed := [], win := s.grn.win.set n h } }) ∧
    (∀ (fn : Fn) (n : Fin 64) (p : Part) (v : W64) (w : W32), s.hif.linkUp = true → decodes s fn = true →
      (winAllowed s fn [s.grn.win[n].part] = true →
        exec (.grnWinStageWrite fn via n false v) s = .next { s with grn := { s.grn with
          stage := s.grn.stage.set n { s.grn.stage[n] with base := some (v.toNat / 256 * 256) } } } ∧
        exec (.grnWinStageWrite fn via n true v) s = .next { s with grn := { s.grn with
          stage := s.grn.stage.set n { s.grn.stage[n] with limit := some (v.toNat / 256 * 256 + 255) } } }) ∧
      (∀ h, h = (assoc s.grn.armed n).getD s.grn.win[n] → winAllowed s fn [s.grn.win[n].part, bitsOf w.toNat 15 8] = true →
        ∃ t, exec (.grnWinCtrlWrite fn via n w) s = .next t ∧ t.grn.win = s.grn.win ∧ t.grn.stage[n] = {} ∧
          assoc t.grn.armed n = some
            { base := s.grn.stage[n].base.getD h.base, limit := s.grn.stage[n].limit.getD h.limit
              valid := bitOf w.toNat 31, prio := bitsOf w.toNat 23 16, part := bitsOf w.toNat 15 8
              detoff := bitOf w.toNat 7, cls := bitsOf w.toNat 2 0 } ∧
          t.grn.lines = s.grn.lines ∧ t.mem = s.mem) ∧
      (winAllowed s fn [p] = true → bitsOf w.toNat 20 16 + bitsOf w.toNat 12 8 + 1 ≤ waysOf s p → 1 ≤ bitsOf w.toNat 4 0 →
        bitsOf w.toNat 4 0 ≤ waysOf s p → exec (.grnQuotaWrite fn via p w) s = .next { s with grn := { s.grn with
          quota := s.grn.quota.set p { pin := bitsOf w.toNat 20 16, persist := bitsOf w.toNat 12 8, stream := bitsOf w.toNat 4 0 } } }) ∧
      (winAllowed s fn [p] = true →
        (waysOf s p < bitsOf w.toNat 20 16 + bitsOf w.toNat 12 8 + 1 ∨ bitsOf w.toNat 4 0 = 0 ∨ waysOf s p < bitsOf w.toNat 4 0) →
        exec (.grnQuotaWrite fn via p w) s = .next { s with grn := { s.grn with
          slice := s.grn.slice.set via { s.grn.slice[via] with quotaErr := true } } }) ∧
      (winAllowed s fn [p] = false → exec (.grnQuotaWrite fn via p w) s = .next { s with grn := { s.grn with
        slice := s.grn.slice.set via { s.grn.slice[via] with winErr := true } } }) ∧
      (winAllowed s fn [s.grn.win[n].part] = false → exec (.grnWinStageWrite fn via n true v) s = .next { s with grn := { s.grn with
        slice := s.grn.slice.set via { s.grn.slice[via] with winErr := true } } }) ∧
      (winAllowed s fn [s.grn.win[n].part, bitsOf w.toNat 15 8] = false → exec (.grnWinCtrlWrite fn via n w) s =
        .next { s with grn := { s.grn with slice := s.grn.slice.set via { s.grn.slice[via] with winErr := true } } }))

/-- R234, R239, R242 to R245, R251, R253, R256: a flit that comes takes a shared buffer of its input port, else the escape buffer of its
class, which counts, else stays where it is; in a fabric that holds no other it goes on to the node that its route names, or sinks at its
own. The credit of a slice sends the write that waits for it, else it is kept. A leaf's flit enters its input slot; and a node whose inputs
all hold a flit emits their sum in input order, the root into the local memory of the tree's tiles. -/
def Obligations.FabricMovesFlits : Prop :=
  ∀ s : State,
    (∀ (node port : Nat) (x : FabFlit), node ≤ 64 → x.dests ≠ [] → (∀ d ∈ x.dests, d ≤ 64) →
      (port = node ∨ (s.fab.transit.find? fun e => e.1 == port && e.2.1 == node) = some (port, node, x)) →
      ((fabPort s node port).shared.length < 32 → ∃ t, exec (.fabricFlitArrival node port x) s = .next (moveAll (moveFuel t) t) ∧
        fabPort t node port = { fabPort s node port with shared := (fabPort s node port).shared ++ [x] } ∧ t = { s with fab := t.fab }) ∧
      (32 ≤ (fabPort s node port).shared.length → (∀ y ∈ (fabPort s node port).escape, flitClass y ≠ flitClass x) →
        ∃ t, exec (.fabricFlitArrival node port x) s = .next (moveAll (moveFuel t) t) ∧
          fabPort t node port = { fabPort s node port with escape := (fabPort s node port).escape ++ [x] } ∧ t = { s with fab := t.fab } ∧
          ∀ d : Die, node / 16 = d.val → t.fab.die[d] = { s.fab.die[d] with
            escapeUse := vmodN s.fab.die[d].escapeUse (flitClass x).val (· + 1) }) ∧
      (32 ≤ (fabPort s node port).shared.length → (∃ y ∈ (fabPort s node port).escape, flitClass y = flitClass x) →
        exec (.fabricFlitArrival node port x) s = .next s) ∧
      (∀ d, x.dests = [d] → s.fab.ports = [] → s.fab.transit = (if port = node then [] else [(port, node, x)]) →
        ∃ t, exec (.fabricFlitArrival node port x) s = .next t ∧ t.fab.ports = [] ∧ t = { s with fab := t.fab } ∧
          t.fab.transit = (if d = node then [] else [(node, nextHop node d, x)]) ∧
          t.fab.sunk = (if d = node then s.fab.sunk ++ [(node, x)] else s.fab.sunk))) ∧
    (∀ slice : Die,
      (∀ r, (s.fab.ingWait.find? fun q => homeSlice (256 * q.line) == slice) = some r → ∃ t, exec (.ingCreditGrant slice) s = .next t ∧
        t.grn.reqs = s.grn.reqs ++ [r] ∧ t.fab.ingWait = dropFirst (fun q => q == r) s.fab.ingWait ∧ t.fab.ingCredit = s.fab.ingCredit) ∧
      ((∀ q ∈ s.fab.ingWait, homeSlice (256 * q.line) ≠ slice) → exec (.ingCreditGrant slice) s =
        .next { s with fab := { s.fab with ingCredit := s.fab.ingCredit.set slice (min 64 (s.fab.ingCredit[slice] + 1)) } })) ∧
    (∀ (r : Red) (y : TreeEntry) (node : Nat), (s.fab.reds.find? fun x => x.id == r.id) = some r → redTree s r = some y →
      (∀ (input : Fin 4) (code : Nat) (f : RedFlit), (y.inputs node).find? (fun e => e.1 == input.val) = some (input.val, code) → code < 0x48 →
        r.received y node input < r.total y → leafOk s r code = true → ∃ t q, exec (.thresherInput r.id node input f) s = .next t ∧
          (t.fab.reds.find? fun x => x.id == r.id) = some q ∧
          q.slot node input = r.slot node input ++ (leafFlits y code f).take (r.total y - r.received y node input) ∧
          t = { s with fab := t.fab }) ∧
      (∀ heads n, n = (if node = y.root then y.perOut else 1) → heads = (y.inputs node).map (fun e => (r.slot node e.1).take n) → heads ≠ [] →
        (∀ h ∈ heads, h.length = n ∧ ∀ f ∈ h, f.poison = false) →
        (∀ p i, node ≠ y.root → y.parent node = some (p, i) → (∀ e ∈ y.inputs node, 4 * p + i ≠ 4 * node + e.1) →
          ∃ t q, exec (.thresherEmit r.id node) s = .next t ∧ (t.fab.reds.find? fun x => x.id == r.id) = some q ∧
            q.slot p i = r.slot p i ++ [{ poison := false, bytes :=
              (redSum y.format (heads.map fun h => h.flatMap fun f => flitWords f.bytes)).flatMap fun w => leBytes 4 w.toNat }] ∧
            t = { s with fab := t.fab }) ∧
        (node = y.root → y.outCode < 0x10 → 64 * (bitsOf y.dest.toNat 12 0 + r.rootOut) ≤ 0x5FFC0 →
          ∃ t, exec (.thresherEmit r.id node) s = .next t ∧ t.mem = s.mem ∧
            t.tile.localMem = (s.each (rootTiles s y) fun s k => s.writeLocal k (64 * (bitsOf y.dest.toNat 12 0 + r.rootOut))
              (redBytes y.format (redSum y.format (heads.map fun h => h.flatMap fun f => flitWords f.bytes)))).tile.localMem)))

/-- R259 to R263, R509: in a consensus beat a die's report (its FIXED_CRC, window CRC and beat number: those of its own copies) is compared
once. One that agrees changes nothing but the die's recorded CRC; one that disagrees is recorded and reloads the die in place, or fails it at
its fourth; a missing report disagrees on all three values; a second one is not compared; and a reload that has ended is noted for the next
frame boundary. -/
def Obligations.DieConsensus : Prop :=
  ∀ (n : Die) (fixed win : Option W64) (b : Option Nat) (d : FabDie) (s : State), d = s.fab.die[n] → dieChecked s n = true →
    (∀ share image number, s.tmp.beat % 1024 = 0 → d.reportedAt ≠ some s.tmp.frames →
      share = (fixed.orElse fun _ => d.badShare).getD (crc64 ((s.str.map (·.dieShare)).getD [])) →
      image = (win.orElse fun _ => d.badWindow).getD (crc64 (windowImage s)) → number = (b.orElse fun _ => d.badBeat).getD s.tmp.beat →
      (share = d.fixedCrcRef → image = crc64 (windowImage s) → number = s.tmp.beat → exec (.dieConsensusReport n fixed win b) s =
        .next { s with fab := { s.fab with die := s.fab.die.set n { d with
          badShare := fixed.orElse fun _ => d.badShare, badWindow := win.orElse fun _ => d.badWindow
          badBeat := b.orElse fun _ => d.badBeat, fixedCrc := share, reportedAt := some s.tmp.frames } } }) ∧
      (share ≠ d.fixedCrcRef ∨ image ≠ crc64 (windowImage s) ∨ number ≠ s.tmp.beat →
        (d.reloads ≠ 3 → ∃ t, exec (.dieConsensusReport n fixed win b) s = .next t ∧ t.fab.die[n].reloading = true ∧
          t.fab.die[n].reloads = d.reloads + 1 ∧ t.fab.die[n].lastFrame = BitVec.ofNat 32 (s.tmp.beat / 1024) ∧
          t.fab.die[n].lastBeatBad = (number != s.tmp.beat) ∧ t.fab.die[n].lastWinBad = (image != crc64 (windowImage s)) ∧
          t.fab.die[n].lastFixedBad = (share != d.fixedCrcRef) ∧ t.fab.die[n].fixedCrc = share ∧
          t.rst.cause = { code := .dieMismatch, type := 4, source := 7, target := n.val }) ∧
        (d.reloads = 3 → ∃ t, exec (.dieConsensusReport n fixed win b) s = .next t ∧ t.fab.die[n].failed = true))) ∧
    (s.tmp.counting = true → d.reportedAt ≠ some s.tmp.frames →
      (d.reloads ≠ 3 → ∃ t, exec (.dieReportTimeout n) s = .next t ∧ t.fab.die[n].reloading = true ∧
        t.fab.die[n].reloads = d.reloads + 1 ∧ t.fab.die[n].lastFrame = BitVec.ofNat 32 (s.tmp.beat / 1024) ∧
        t.fab.die[n].lastBeatBad = true ∧ t.fab.die[n].lastWinBad = true ∧ t.fab.die[n].lastFixedBad = true ∧
        t.rst.cause = { code := .dieMismatch, type := 4, source := 7, target := n.val }) ∧
      (d.reloads = 3 → ∃ t, exec (.dieReportTimeout n) s = .next t ∧ t.fab.die[n].failed = true)) ∧
    (d.reportedAt = some s.tmp.frames → exec (.dieConsensusReport n fixed win b) s = .next s ∧ exec (.dieReportTimeout n) s = .next s) ∧
    (∀ u : State, u.fab.die[n].reloading = true → exec (.dieReloadDone n) u =
      .next { u with fab := { u.fab with die := u.fab.die.set n { u.fab.die[n] with reloaded := true } } })

/-! ## Memory stacks and background work (07, 15) -/

/-- R273 to R276, R676: a parity retry uses one slot of the beat's reserve; one that passes is counted, one that fails is tried again, and the
third failure fails the pseudo-channel for a command, poisons the line for a write, and is counted against the pseudo-channel's frame. The
engines' jobs then go on (settle). -/
def Obligations.ParityRetries : Prop :=
  ∀ (x : Fin 512) (line : Nat) (kind : ParityKind) (tries : Nat) (s : State), chanOf (256 * line) = x.val → chanFailed s x = false →
    stackTripped s (x.val / 64) = false → mget 0 s.mem.retryUsed x < 4 → tries = (findRetry s x line kind).elim 1 (·.tries + 1) →
    (∃ t, exec (.parityRetry x line kind true) s = .next (settle t) ∧ (stackSt t (x.val / 64)).parPass = (stackSt s (x.val / 64)).parPass + 1 ∧
      findRetry t x line kind = none ∧ mget 0 t.mem.retryUsed x = mget 0 s.mem.retryUsed x + 1 ∧ t.mem.cells = s.mem.cells ∧
      t = { s with mem := t.mem }) ∧
    (tries < 3 → ∃ t, exec (.parityRetry x line kind false) s = .next (settle t) ∧
      findRetry t x line kind = some { x := x, line := line, kind := kind, tries := tries, poisonWrite := false } ∧
      mget 0 t.mem.retryUsed x = mget 0 s.mem.retryUsed x + 1 ∧ t.mem.cells = s.mem.cells ∧ t = { s with mem := t.mem }) ∧
    (3 ≤ tries → readUnderWay s line = none → directUnderWay s line = none →
      ∃ t, exec (.parityRetry x line kind false) s = .next (settle t) ∧
        (stackSt t (x.val / 64)).parExhaust = (stackSt s (x.val / 64)).parExhaust + 1 ∧ t.mem.cells = s.mem.cells ∧
        (kind = .command ∨ mget 0 s.mem.exhaust x = 3 → (stackSt t (x.val / 64)).chFail.getLsbD (x.val % 64) = true) ∧
        (kind ≠ .command → mget 0 t.mem.exhaust x = mget 0 s.mem.exhaust x + 1) ∧
        (kind = .write → ∀ b < 8, t.mem.poisoned (physOf s (256 * line) + 32 * b) = true))

/-- R288 to R292, R296, R298: the Gleaner's copy of a row leaves every byte of the old row in the spare row and no other byte changed; from the
next beat boundary the entry is in effect; an entry in effect is logged in boot flash; and a refresh slot, in the beat its tempo time lies in,
counts on its pseudo-channel of every stack, with a refresh command of a stack that takes commands where MULT / 512 of the slots calls for
one. -/
def Obligations.RemapsAndRefresh : Prop :=
  ∀ s : State,
    (∀ (e : Remap) (found : List Burst), s.mem.wf = true →
      (s.mem.remap.find? fun q => q.order == e.order && !q.copied && takesCommands s q.x) = some e → e.bank < 64 →
      physRow s e.x e.bank e.row ≠ e.spare → ∃ t more, exec (.remapCopyDone e.order found) s = .next t ∧
        (∀ i < 1024, t.mem.read (spareRow e + i) = s.mem.read (oldRow s e + i)) ∧
        (∀ k, k < spareRow e ∨ spareRow e + 1024 ≤ k → t.mem.read k = s.mem.read k) ∧
        t.mem.remap = (s.mem.remap ++ more).map (fun q => if q.order = e.order then { q with copied := true } else q)) ∧
    (∀ k, exec (.remapTakeEffect k) s = .next { s with mem := { s.mem with
      remap := s.mem.remap.map fun q => if q.order = k ∧ q.copied = true then { q with active := true } else q } }) ∧
    (∀ e, (s.mem.remap.find? fun q => q.order == e.order && q.active && !q.logged) = some e → exec (.repairLogWrite e.order) s =
      .next { s with flash := { s.flash with repairLog := s.flash.repairLog ++ [{ e with logged := true }] }, mem := { s.mem with
        remap := s.mem.remap.map fun q => if q.order = e.order then { q with logged := true } else q } }) ∧
    (∀ (c : Fin 64) (n : Nat), (slotDue s c n = false → exec (.refreshSlot c n) s = .next s) ∧
      (slotDue s c n = true → ∃ t, exec (.refreshSlot c n) s = .next t ∧ t.mem.cells = s.mem.cells ∧ mget 0 t.mem.nextSlot c = n + 1 ∧
        ∀ k < 8, mget 0 t.mem.refreshSlots (64 * k + c) = mget 0 s.mem.refreshSlots (64 * k + c) + 1 ∧
          (stackSt t k).mult = (stackSt s k).multNext.getD (stackSt s k).mult ∧
          mget 0 t.mem.refreshes (64 * k + c) = mget 0 s.mem.refreshes (64 * k + c) +
            (if refreshed s k = true ∧ n * (stackSt t k).mult / 512 < (n + 1) * (stackSt t k).mult / 512 then 1 else 0)))

/-- R299 to R307: a sample of a stack's temperature, one every 16 beats, sets its registers from its hottest die and the MULT of its next
refresh slot; from 95 degrees it warns, and at 105 degrees, or with no valid sample for 1,024 beats, the stack trips into self-refresh; and a
tripped stack returns at a frame boundary once it has been below 95 degrees for 1,024 beats, its write buffer drained. -/
def Obligations.StackTemperature : Prop :=
  ∀ (n : Fin 8) (v w : Int) (vs : List Int) (s : State), w = vs.foldl max v →
    (sampleDue s n = false → ∀ temps, exec (.stackTempSample n temps) s = .next s) ∧
    (sampleDue s n = true →
      exec (.stackTempSample n none) s = .next { s with mem := { s.mem with
        stack := s.mem.stack.set n { s.mem.stack[n] with tempValid := false, sampledAt := some s.tmp.elapsed } } } ∧
      (w < 95 → ∃ t, exec (.stackTempSample n (some (v :: vs))) s = .next t ∧ t = { s with mem := { s.mem with stack := t.mem.stack } } ∧
        (∀ k : Fin 8, k ≠ n → t.mem.stack[k] = s.mem.stack[k]) ∧ t.mem.stack[n].temp = w ∧ t.mem.stack[n].tempValid = true ∧
        t.mem.stack[n].tempMax = max s.mem.stack[n].tempMax w ∧ t.mem.stack[n].lastValidBeat = s.tmp.elapsed ∧
        t.mem.stack[n].multNext = some (refreshMult s w) ∧ t.mem.stack[n].tripped = s.mem.stack[n].tripped ∧
        t.mem.stack[n].tempLost = false ∧ t.mem.stack[n].sampledAt = some s.tmp.elapsed) ∧
      (95 ≤ w → ∃ t, exec (.stackTempSample n (some (v :: vs))) s = .next t ∧ t.mem.stack[n].temp = w ∧ t.mem.stack[n].warn = true ∧
        t.mem.cells = s.mem.cells ∧ t.mem.stack[n].tripped = (s.mem.stack[n].tripped || decide (105 ≤ w)) ∧
        (105 ≤ w → s.mem.stack[n].tripped = false → t.mem.stack[n].selfRefresh = true))) ∧
    (s.mem.stack[n].trained = true → s.mem.stack[n].tempLost = false → s.mem.stack[n].tripped = false →
      s.mem.stack[n].lastValidBeat + 1024 ≤ s.tmp.elapsed → ∃ t, exec (.stackTempLost n) s = .next t ∧ t.mem.stack[n].tempLost = true ∧
        t.mem.stack[n].tripped = true ∧ t.mem.stack[n].selfRefresh = true ∧ t.mem.cells = s.mem.cells) ∧
    (∀ b, s.mem.stack[n].tripped = true → s.mem.stack[n].tempLost = false → s.tmp.beat % 1024 = 0 → s.mem.stack[n].below95Since = some b →
      b + 1024 ≤ s.tmp.elapsed → s.pwr.stage = .run →
      ∃ t, exec (.stackTripReturn n) s = .next t ∧ t.mem.stack[n].tripped = false ∧ t.mem.stack[n].selfRefresh = false ∧
        t.mem.wbuf = s.mem.wbuf.filter (fun w => w.x / 64 != n.val) ∧
        ((∀ w ∈ s.mem.wbuf, w.x / 64 ≠ n.val) → t = { s with mem := { s.mem with
          stack := s.mem.stack.set n { s.mem.stack[n] with tripped := false, selfRefresh := false } } }))

/-- R533 to R541, R546 to R550: the stack patrol visits one line of each pseudo-channel, counts a corrected find and moves its cursor when the
stack's others have been visited; the Granary patrol moves to the next set and drops a clean line it cannot correct; a retraining pass starts
at multiples of 1,000,000 beats or when the drift exceeds its margin; and the frame's telemetry record leaves for its ring. -/
def Obligations.BackgroundWork : Prop :=
  ∀ s : State,
    (∀ (x : Fin 512) (bursts : List Burst), patrols s x = true → s.gln.visited.contains x.val = false → lineDue s (x.val / 64) = true →
      ∃ t, exec (.stackPatrol x bursts) s = .next t ∧ t.mem.cells = s.mem.cells ∧
        t.gln.patrolFix = (if bursts.contains .corrected then s.gln.patrolFix + 1 else s.gln.patrolFix) ∧
        ((∃ c < 64, 64 * (x.val / 64) + c ≠ x.val ∧ patrols s (64 * (x.val / 64) + c) = true ∧
            s.gln.visited.contains (64 * (x.val / 64) + c) = false) →
          t.gln.visited = s.gln.visited ++ [x.val] ∧ t.gln.cursor = s.gln.cursor) ∧
        ((∀ c < 64, 64 * (x.val / 64) + c = x.val ∨ patrols s (64 * (x.val / 64) + c) = false ∨
            s.gln.visited.contains (64 * (x.val / 64) + c) = true) →
          vat t.gln.cursor (x.val / 64) 0 = (vat s.gln.cursor (x.val / 64) 0 + 1) % 3139584)) ∧
    (∀ (n : Die) (finds : List (Nat × GrEcc)), sliceOut s n = false → s.tmp.counting = true → setDue s n = true →
      ∃ t, exec (.granaryPatrol n finds) s = .next t ∧ (sliceSt t n).patrolSet = ((sliceSt s n).patrolSet + 1) % 65536 ∧
        (sliceSt t n).patrolAt = some s.tmp.elapsed ∧
        (finds = [] → t.grn.lines = s.grn.lines ∧ t.mem = s.mem) ∧
        (∀ l ∈ s.grn.lines, (homeSlice (256 * l.line)) = n → setIndex (256 * l.line) = (sliceSt s n).patrolSet → l.dirty = 0 →
          finds = [(l.line, .double)] → findLine t l.line l.part = none)) ∧
    (retrains s = true → s.tmp.beat % 1000000 = 0 → exec .phyRetrainPass s =
      .next { s with gln := { s.gln with retrainActive := true, retrainSeg := [] } }) ∧
    (retrains s = true → s.gln.retrainActive = false → exec (.phyDriftCheck true) s =
      .next { s with gln := { s.gln with retrainActive := true, retrainSeg := [] } }) ∧
    (∀ watts, s.tel.due = true → s.tmp.counting = true → s.hif.vfEnable = false → s.hif.linkUp = true → s.tel.fn[0].enable = true →
      s.tel.fn[0].irqEvery = 0 → s.tel.fn[0].size = 4 → s.tel.fn[0].tail < 15 → s.tel.fn[0].head = 0 →
      ringRecords s 0 watts = [pkgRecord s watts] → ∃ t, exec (.telemetryWrite watts) s = .next t ∧ t.tel.due = false ∧
        t.pwr.measuredLast = BitVec.ofNat 16 watts ∧ t.tel.fn[0].tail = s.tel.fn[0].tail + 1 ∧ t.out = s.out ++
          [.telemetry 0 (s.tel.fn[0].base.toNat + 64 * s.tel.fn[0].tail) { pkgRecord s watts with phase := s.tel.fn[0].phase }])

/-! ## Serving and Trellis (10, 11) -/

/-- R379 to R382, R389 to R395: a context command acts on a context the function may use and that no step holds open, and answers its code;
a walk request of a function with no unacknowledged write takes a free slot of its partition and is read, one with such a write waits for it; a
walk reads its root and its children and ends where the input does; and its result is written, its slot freed. The clauses that access device
memory speak of lines that the slices hold. -/
def Obligations.ContextsAndWalks : Prop :=
  ∀ (fn : Fn) (s : State),
    (s.hif.linkUp = true → decodes s fn = true →
      (ctxAllowed s fn s.srv.fn[fn].sel = false → ∀ c ∈ [Instr.srvCtxRead fn, .srvCtxWrite fn, .srvCtxTruncate fn],
        exec c s = .next { s with srv := { s.srv with fn := s.srv.fn.set fn { s.srv.fn[fn] with code := .ctxRange } } }) ∧
      (ctxAllowed s fn s.srv.fn[fn].sel = true →
        exec (.srvCtxRead fn) s = .next { s with srv := { s.srv with
          fn := s.srv.fn.set fn { s.srv.fn[fn] with data := ctxWords s s.srv.fn[fn].sel, code := .ok } } } ∧
        (ctxOpen s s.srv.fn[fn].sel = false → exec (.srvCtxWrite fn) s = .next { s with srv := { s.srv with
          ctx := msetN 0 s.srv.ctx (128 * s.srv.fn[fn].sel) (s.srv.fn[fn].data.toList.flatMap fun w => leBytes 4 w.toNat),
          fn := s.srv.fn.set fn { s.srv.fn[fn] with code := .ok } } }) ∧
        (ctxOpen s s.srv.fn[fn].sel = false → s.srv.fn[fn].truncLen.toNat ≤ ctxField s s.srv.fn[fn].sel 8 8 →
          exec (.srvCtxTruncate fn) s = .next { s with srv := { s.srv with
            ctx := msetN 0 s.srv.ctx (128 * s.srv.fn[fn].sel + 8) (leBytes 8 s.srv.fn[fn].truncLen.toNat),
            fn := s.srv.fn.set fn { s.srv.fn[fn] with code := .ok } } })) ∧
      (∀ (p n req : Nat) (b : List Byte), req = s.srv.fn[fn].walkReq.toNat →
        ((∀ e ∈ s.hif.posted, e.1 ≠ fn.val) →
          (if fn.val = 0 then (chanPart s (chanOf req)).filter fun p => servingFn s p == 0 else fnPart s fn) = some p →
          rangeCode s p req 64 = none → freeSlot s ((List.range 6).map (8 * p + 2 + ·)) = some n → enginesIdle s = true →
          rangeHeld s req 64 = true → b = heldBytes s req 64 → ∃ t w, exec (.rtkWalkGo fn) s = .next t ∧ t.srv.walks = s.srv.walks ++ [w] ∧
            w.slot = n ∧ w.part = p ∧ w.fn = some fn.val ∧ w.node = fieldAt b 0 8 ∧ w.tokensAddr = fieldAt b 8 8 ∧
            w.tokenCount = fieldAt b 0x10 4 ∧ w.resultAddr = some (fieldAt b 0x20 8) ∧ w.matched = 0 ∧ w.start = s.tmp.beat ∧ w.at_ = .root ∧
            t.srv.fn[fn].walkStatus = .ok ∧ t.mem = s.mem) ∧
        ((∃ e ∈ s.hif.posted, e.1 = fn.val) → exec (.rtkWalkGo fn) s = .next (settle { s with srv := { s.srv with
          goWait := s.srv.goWait ++ [(fn.val, req, postedOf s fn)] } })))) ∧
    (∀ (slot : Fin 64) (w : Walk) (a : Nat) (b tok : List Byte), walkIn s slot = some w → rangeCode s w.part a 256 = none → enginesIdle s = true →
      rangeHeld s a 256 = true → b = heldBytes s a 256 →
      (w.at_ = .root → a = w.node →
        (bitOf (fieldAt b 0 1) 0 = false → ∃ t, exec (.walkNodeRead slot) s = .next t ∧ t.mem = s.mem ∧
          walkIn t slot = some { w with at_ := .ended .rtkNodeBad }) ∧
        (bitOf (fieldAt b 0 1) 0 = true → w.matched = w.tokenCount → ∃ t, exec (.walkNodeRead slot) s = .next t ∧ t.mem = s.mem ∧
          walkIn t slot = some { w with at_ := .ended .ok }) ∧
        (bitOf (fieldAt b 0 1) 0 = true → w.matched ≠ w.tokenCount → rangeCode s w.part (w.tokensAddr + 4 * w.matched) 4 = none →
          rangeHeld s (w.tokensAddr + 4 * w.matched) 4 = true → (∀ l ∈ linesOf (w.tokensAddr + 4 * w.matched) 4, l ∉ linesOf a 256) →
          tok = heldBytes s (w.tokensAddr + 4 * w.matched) 4 → ∃ t, exec (.walkNodeRead slot) s = .next t ∧ t.mem = s.mem ∧
            walkIn t slot = some { w with at_ := nextNode b 0 (leNat tok) })) ∧
      (∀ n want m, w.at_ = .child a → bitOf (fieldAt b 0 1) 0 = true → bitOf (fieldAt b 0 1) 1 = false → n = fieldAt b 1 1 → n ≠ 0 →
        want = 4 * min n (w.tokenCount - w.matched) → rangeCode s w.part (w.tokensAddr + 4 * w.matched) want = none →
        rangeHeld s (w.tokensAddr + 4 * w.matched) want = true →
        (∀ l ∈ linesOf (w.tokensAddr + 4 * w.matched) want, l ∉ linesOf a 256) → tok = heldBytes s (w.tokensAddr + 4 * w.matched) want →
        m = leadMatch b tok (min n 16) 0 → m < n → ∃ t, exec (.walkNodeRead slot) s = .next t ∧ t.mem = s.mem ∧
          walkIn t slot = some { w with partialN := m, at_ := .ended .ok })) ∧
    (∀ (slot : Fin 64) (w : Walk) (c : Code) (a : Nat), walkIn s slot = some w → w.at_ = .ended c → w.resultAddr = some a →
      rangeCode s w.part a 32 = none → 2 ≤ slot.val % 8 → enginesIdle s = true → rangeHeld s a 32 = true →
      ∃ t, exec (.rootstockWalkDone slot) s = .next t ∧ t.srv.walks = s.srv.walks.filter (fun v => v.slot != slot.val) ∧
        t.srv.walkCount = s.srv.walkCount + 1 ∧ heldBytes t a 32 = walkResult w c ∧ t.mem.cells = s.mem.cells)

/-- R407 to R419: only the PF sets the owner of a Trellis slot and only the function that serves the owner configures it or pushes; a push that
fits starts the fill of the buffer that is not the newest; at the beat boundary after the last write was acknowledged the filled buffer becomes
the newest; and the snapshot of an INGEST step selects its variant and has its view written, or, with no entry that matches, completes the step
with INGEST_NOMATCH at its admission. -/
def Obligations.TrellisSlots : Prop :=
  ∀ (fn : Fn) (n : Fin 64) (v : W32) (cfg : BitVec 128) (s : State),
    (s.hif.linkUp = true → decodes s fn = true →
      (fn.val = 0 → ∃ t, exec (.trlSlotOwnerWrite fn n v) s = .next t ∧
        t.trl.slot = s.trl.slot.set n { s.trl.slot[n].discard with ownerValid := v.getLsbD 31, owner := v.toNat % 8 } ∧ t.mem = s.mem) ∧
      (fn.val ≠ 0 → exec (.trlSlotOwnerWrite fn n v) s = .next { s with trl := { s.trl with denied := true } }) ∧
      (trlOwner s fn n = false → exec (.trlSlotCfgWrite fn n cfg) s = .next { s with trl := { s.trl with denied := true } } ∧
        exec (.trlPush fn n v) s = .next { s with trl := { s.trl with denied := true } }) ∧
      (trlOwner s fn n = true →
        (cfgOk s s.trl.slot[n].owner (bitsOf cfg.toNat 127 64) (bitsOf cfg.toNat 36 32) = true →
          ∃ t, exec (.trlSlotCfgWrite fn n cfg) s = .next t ∧ t.mem = s.mem ∧ t.trl.slot = s.trl.slot.set n { s.trl.slot[n].discard with
            base := bitsOf cfg.toNat 127 64, sizeLog2 := bitsOf cfg.toNat 36 32, configured := true, cfgWord := cfg, cfgStage := cfg,
            fresh := bitsOf cfg.toNat 31 0, code := .ok }) ∧
        (cfgOk s s.trl.slot[n].owner (bitsOf cfg.toNat 127 64) (bitsOf cfg.toNat 36 32) = false →
          exec (.trlSlotCfgWrite fn n cfg) s = .next { s with trl := { s.trl with
            slot := s.trl.slot.set n { s.trl.slot[n] with code := .trlSlotBad, cfgStage := cfg } } }) ∧
        (v.toNat = 0 ∨ s.trl.slot[n].configured = false ∨ 2 ^ s.trl.slot[n].sizeLog2 < v.toNat → exec (.trlPush fn n v) s =
          .next { s with trl := { s.trl with slot := s.trl.slot.set n { s.trl.slot[n] with code := .trlPushBad } } }) ∧
        (v.toNat ≠ 0 → s.trl.slot[n].configured = true → v.toNat ≤ 2 ^ s.trl.slot[n].sizeLog2 → s.trl.slot[n].fill = none →
          s.trl.slot[n].free = true → s.trl.slot[n].pending = none → s.hif.upWait = [] → s.hif.upstream.length < tagLimit s.hif →
          ∃ t, exec (.trlPush fn n v) s = .next t ∧ t.mem = s.mem ∧
            t.trl.slot[n].fill = some { buf := s.trl.slot[n].target,
                                        addr := bufAddr s.trl.slot[n] (if s.trl.slot[n].target then 1 else 0), part := s.trl.slot[n].owner,
                                        stamp := s.trl.slot[n].pushStamp.toNat, len := v.toNat, got := 0, unacked := [],
                                        ackedAt := s.tmp.elapsed, void := false } ∧
            t.trl.slot[n].code = .ok ∧ t.trl.slot[n].newest = s.trl.slot[n].newest ∧
            t.out = s.out ++ [.upstreamRead (servingFn s s.trl.slot[n].owner) s.nextId s.trl.slot[n].pushAddr.toNat v.toNat]))) ∧
    (∀ (f : TFill) (data : List Byte), s.trl.slot[n].fill = some f → upWaits s (.trellis n) = false → data.length ≤ f.len - f.got →
      ∃ t g, exec (.trellisFillData n data) s = .next t ∧
        t.trl.slot[n].fill = some g ∧ g.got = f.got + data.length ∧ g.len = f.len ∧ g.buf = f.buf ∧ g.void = f.void ∧ t.mem = s.mem ∧
        t.grn.reqs.length + t.fab.ingWait.length = s.grn.reqs.length + s.fab.ingWait.length + (g.unacked.length - f.unacked.length)) ∧
    (∀ f : TFill, s.trl.slot[n].fill = some f → f.got = f.len → f.unacked = [] → f.ackedAt < s.tmp.elapsed → s.trl.slot[n].pending = none →
      (∀ x ∈ s.stp.steps, x.part = s.trl.slot[n].owner → snapshotDue s x = false) →
      (∀ y, y = s.trl.slot[n].setBuf f.buf (some { stamp := if f.stamp = 0 then s.tmp.beat else f.stamp, len := f.len, pins := [] }) →
        f.void = false → exec (.bufferComplete n) s = .next { s with trl := { s.trl with
          slot := s.trl.slot.set n { y with fill := none, newest := some f.buf } } }) ∧
      (f.void = true → exec (.bufferComplete n) s = .next { s with trl := { s.trl with
        slot := s.trl.slot.set n { s.trl.slot[n] with fill := none } } })) ∧
    (∀ x : Step, getStep s x.id = some x →
      (snapshotDue s x = true →
        (ingestChoice s x.part = none → ∃ t, exec (.ingestSnapshot x.id) s = .next (settle t) ∧ t = { s with stp := t.stp } ∧
          getStep t x.id = some { x with snap := some [], snapCode := some .ingestNomatch }) ∧
        (∀ e k d r, ingestChoice s x.part = some (e, k, d) → variantRec s x k = some r →
          ∃ t, exec (.ingestSnapshot x.id) s = .next (settle t) ∧
            getStep t x.id = some { x with runPlan := r.id, dstep := d, snap := some (snapOf s x.part) } ∧ t.mem = s.mem ∧
            t.grn.jobs = s.grn.jobs ++ [(s.nextId, .view x.id (x.argAddr + 0x40) (ingestView s x.part k d e))])) ∧
      (∀ c r g, x.phase = .placed → x.start ≤ s.tmp.beat → isFg s.tmp.beat = true → admitting s = true → partTripped s x.part = false →
        collectiveStep s x = false → x.snap.isSome = true → viewPending s x.id = false → x.snapCode = some c → stepPlan s x = some r →
        chooseGrade s r s.tmp.beat = some g → g.tiles.any (tileHeld s) = false → ∃ t, exec (.stepAdmit x.id) s = .next t ∧
          getStep t x.id = none ∧ t.trl.noMatch = (if c = .ingestNomatch then s.trl.noMatch + 1 else s.trl.noMatch)))

/-! ## The ring (12) -/

/-- R431, R434, R435, R448, R449: the seventeenth replay of a frame takes a link group down; training starts with every link group down, each step
leads to the next, a step that times out is tried once more and then fails with TRAIN_FAIL, and a link group that loses lock relocks. The delay
is measured at IDENT, and again on a link group in service while a reshape is under way (R44, R448). -/
def Obligations.LinkTraining : Prop :=
  ∀ (l : Link) (x : LinkSt) (ns : Nat) (s : State), s.rhl.link[l] = x →
    (linkLive x.state = true → x.replayFrame ≠ 16 → exec (.linkReplay l) s = .next { s with rhl := { s.rhl with
      link := s.rhl.link.set l { x with replay := x.replay + 1, fecUncorr := x.fecUncorr + 1, replayFrame := x.replayFrame + 1 } } }) ∧
    (linkLive x.state = true → x.replayFrame = 16 → ∃ t, exec (.linkReplay l) s = .next t ∧ t.rhl.link[l].state = .down ∧
      t.rhl.link[l].code = .linkDown ∧ (∀ k : Link, k ≠ l → t.rhl.link[k] = s.rhl.link[k]) ∧ t.mem = s.mem) ∧
    (canTrain s = true → ∃ t, exec .linkTrainStart s = .next t ∧ t.mem = s.mem ∧ ∀ k : Link, t.rhl.link[k] =
      if s.rhl.link[k].code = .trainFail then s.rhl.link[k] else { s.rhl.link[k] with state := .loc, tries := 0, passed1 := false, code := .ok }) ∧
    (x.state = .loc → (∃ k : Link, k ≠ l ∧ s.rhl.link[k].state = .loc ∧ s.rhl.link[k].passed1 = false) → exec (.trainStepDone l ns) s =
      .next { s with rhl := { s.rhl with link := s.rhl.link.set l { x with passed1 := true, tries := 0 } } }) ∧
    (x.state = .loc → (∀ k : Link, k ≠ l → s.rhl.link[k].state = .loc → s.rhl.link[k].passed1 = true) →
      ∃ t, exec (.trainStepDone l ns) s = .next t ∧ t.rhl.link[l].state = .ready ∧ ∀ k : Link, t.rhl.link[k].state ≠ .loc) ∧
    (x.state = .ready → s.rst.pkgGood = true → exec (.trainStepDone l ns) s =
      .next { s with rhl := { s.rhl with link := s.rhl.link.set l { x with state := .relock, tries := 0 } } }) ∧
    (x.state = .relock → exec (.trainStepDone l ns) s =
      .next { s with rhl := { s.rhl with link := s.rhl.link.set l { x with state := .ident, tries := 0 } } }) ∧
    (x.state = .ident → x.peer ≠ none → ∃ t, exec (.trainStepDone l ns) s = .next t ∧ t.rhl.link[l].state = joinedState s l ∧
      t.tmp.linkDelay[l] = some (BitVec.ofNat 16 ns) ∧ t.rhl.link[l].peer = x.peer ∧ (∀ k : Link, k ≠ l → t.rhl.link[k] = s.rhl.link[k])) ∧
    (x.state = .up ∨ x.state = .transit →
      (s.rhl.reshapes = [] → exec (.trainStepDone l ns) s = .next s) ∧
      (s.rhl.reshapes ≠ [] → exec (.trainStepDone l ns) s = .next { s with tmp := { s.tmp with
        linkDelay := s.tmp.linkDelay.set l (some (BitVec.ofNat 16 ns)) } })) ∧
    (x.state = .loc ∨ x.state = .relock ∨ x.state = .ident →
      (x.tries = 0 → exec (.trainStepTimeout l) s = .next { s with rhl := { s.rhl with link := s.rhl.link.set l { x with tries := 1 } } }) ∧
      (x.tries ≠ 0 → ∃ t, exec (.trainStepTimeout l) s = .next t ∧ t.rhl.link[l].state = .down ∧ t.rhl.link[l].code = .trainFail)) ∧
    (x.state = .ident ∨ x.state = .up ∨ x.state = .transit → ∃ t, exec (.linkLockLost l) s = .next t ∧ t.rhl.link[l].state = .relock ∧
      t.rhl.link[l].peer = none ∧ (∀ k : Link, k ≠ l → t.rhl.link[k] = s.rhl.link[k]) ∧ t.mem = s.mem)

/-- R438, R440, R442, R445: a word whose CHECK fails is counted and does nothing else; a consensus word sets what its link group knows of its
peer; an update word not seen before is applied once, a GRADE word only from a member of the own domain; the third silent consensus beat takes
a link group down; and a package that finds no peer becomes, at a frame boundary, a domain of one. -/
def Obligations.ConsensusAndUpdateWords : Prop :=
  ∀ (l : Link) (bytes : List Byte) (s : State),
    (linkLive s.rhl.link[l].state = true →
      (parseWord bytes = none →
        exec (.consensusWordReceive l bytes) s = .next { s with rhl := { s.rhl with wordBad := s.rhl.wordBad + 1 } } ∧
        exec (.updateWordReceive l bytes) s = .next { s with rhl := { s.rhl with wordBad := s.rhl.wordBad + 1 } }) ∧
      (∀ w, parseWord bytes = some w → exec (.consensusWordReceive l bytes) s = exec (.updateWordReceive l bytes) s) ∧
      (∀ w, parseWord bytes = some w → w.kind = 0 → ∃ t, exec (.consensusWordReceive l bytes) s = .next t ∧
        t.rhl.link[l].peer = some w ∧ t.rhl.link[l].heard = true ∧ t.rhl.link[l].silent = 0 ∧
        t.rhl.link[l].peerOk = decide (checkPeer s w = .accept) ∧ t.rhl.link[l].code = peerCode (checkPeer s w) ∧
        t.mem = s.mem) ∧
      (∀ w, parseWord bytes = some w → w.kind ≠ 0 → s.rhl.seen.contains (w.kind, w.rank, w.beat) = true →
        exec (.updateWordReceive l bytes) s = .next s) ∧
      (∀ w, parseWord bytes = some w → s.rhl.seen.contains (w.kind, w.rank, w.beat) = false →
        (w.kind = 1 → fellowMember s w = true → w.master = ownMaster s → w.pendingValid = true →
          frameOf w.beat + 2 ≤ frameOfLow s w.effFrame → ∃ t, exec (.updateWordReceive l bytes) s = .next t ∧
            t.rhl.members = insertRank w.rank s.rhl.members ∧
          t.grade.announced = s.grade.announced ++ [{ rank := w.rank, own := false, grade := w.pendingGrade, eff := frameOfLow s w.effFrame }] ∧
          t.rhl.seen.contains (w.kind, w.rank, w.beat) = true ∧ t.mem = s.mem) ∧
        (w.kind = 1 → fellowMember s w = false ∨ w.master ≠ ownMaster s → ∃ t, exec (.updateWordReceive l bytes) s = .next t ∧ t.grade = s.grade ∧
          t.rhl.members = s.rhl.members ∧ t.rhl.seen.contains (w.kind, w.rank, w.beat) = true ∧ t.mem = s.mem) ∧
        (w.kind = 2 → w.state ≠ 1 → ∃ t, exec (.updateWordReceive l bytes) s = .next t ∧ t.rhl.reshapes = s.rhl.reshapes ++
            [{ d := w.beat, rank := w.rank, link := none, joins := if w.state = 0 then [w.rank] else []
               leaves := if w.state = 2 ∨ w.state = 3 then [w.rank] else [], aborted := false }] ∧
          t.rhl.seen.contains (w.kind, w.rank, w.beat) = true ∧ t.mem = s.mem) ∧
        (w.kind = 3 → ∃ t, exec (.updateWordReceive l bytes) s = .next t ∧
          t.rhl.trips = s.rhl.trips ++ [{ beat := w.beat, mask := BitVec.ofNat 8 (fieldAt bytes 0x18 1) }] ∧
          t.rhl.seen.contains (w.kind, w.rank, w.beat) = true ∧ t.mem = s.mem))) ∧
    (linkLive s.rhl.link[l].state = true → s.rhl.link[l].heard = false →
      (s.rhl.link[l].silent ≠ 2 → exec (.consensusWordTimeout l) s = .next { s with rhl := { s.rhl with
        link := s.rhl.link.set l { s.rhl.link[l] with silent := s.rhl.link[l].silent + 1 } } }) ∧
      (s.rhl.link[l].silent = 2 → ∃ t, exec (.consensusWordTimeout l) s = .next t ∧ t.rhl.link[l].state = .down ∧
        t.rhl.link[l].code = .linkDown)) ∧
    (s.rhl.rank ≠ none → ownState s = .joining → 2 ≤ s.rhl.joinBeats → s.tmp.beat % 1024 = 0 → s.rhl.counted = [] →
      ∃ t, exec .domainOfOne s = .next t ∧ t.rhl.state = .member ∧
      t.rhl.members = [ownRank s] ∧ t.rhl.master = some (ownRank s) ∧ t.rhl.link = s.rhl.link ∧ t.mem = s.mem)

/-- R433, R447, R450, R454, R462: at an abort beat every collective in flight (of the partitions a TRIP word names) completes; a flit of an UP link
group belongs to the collective in flight whose part, plan and start it carries, which takes its elements and passes it on,
  at once on a credit that the collective has reserved, else once it has one, or is stray; and a
link group in TRANSIT sends it on at the opposite one. -/
def Obligations.CollectivesOnTheRing : Prop :=
  ∀ (l : Link) (f : RingFlit) (s : State),
    ((∃ e ∈ s.rhl.reshapes, e.aborted = false ∧ e.d + 32 ≤ s.tmp.beat) → ∃ t, exec .reshapeAbortBeat s = .next t ∧
      t.rhl.reshapes = s.rhl.reshapes.map (fun e => if e.aborted = false ∧ e.d + 32 ≤ s.tmp.beat then { e with aborted := true } else e) ∧
      ∀ x ∈ s.stp.steps, x.phase = .live → collectiveStep s x = true → x.part < 8 → getStep t x.id = none) ∧
    (∃ t, exec .tripWordAbort s = .next t ∧ t.rhl.trips = s.rhl.trips.filter (fun e => !decide (e.beat + 32 ≤ s.tmp.beat)) ∧
      ∀ e ∈ s.rhl.trips, e.beat + 32 ≤ s.tmp.beat → ∀ x ∈ s.stp.steps, x.phase = .live → collectiveStep s x = true →
        e.mask.getLsbD x.part = true → getStep t x.id = none) ∧
    (s.rhl.link[l].state = .transit → ∀ k : Link, k.val = opposite l → exec (.ringFlitReceive l f) s =
      .next { s with out := s.out ++ [.ringFlit k f] }) ∧
    (s.rhl.link[l].state = .up → (s.rhl.colls.find? fun c => c.part == f.part.val && c.planId == f.planId && c.start == f.start) = none →
      exec (.ringFlitReceive l f) s = .next { s with rhl := { s.rhl with stray := s.rhl.stray + 1 } }) ∧
    (∀ c ph rest, s.rhl.link[l].state = .up →
      (s.rhl.colls.find? fun c => c.part == f.part.val && c.planId == f.planId && c.start == f.start) = some c → getColl s c.step = some c →
      c.phases = ph :: rest → ph.kind ≠ .reduce → inPhase ph (decide (4 ≤ l.val)) f = true → f.vals.length < c.left → f.poison = false →
      ∃ t, exec (.ringFlitReceive l f) s = .next t ∧ t.tile.localMem = msetN 0 s.tile.localMem
        (2 ^ 19 * c.tile + (c.laddr + 4 * ((chunkRange ph f.chunk).1 + 16 * f.index))) (f.vals.flatMap fun w => leBytes 4 w.toNat) ∧
        t.mem = s.mem ∧ t.rhl.link = s.rhl.link ∧ ∀ on : Bool,
        on = (if ph.kind = .bcast then (ph.pos + 1) % ph.size != ph.rootPos else (ph.pos + 1) % ph.size != f.chunk) →
        (on = false → t.out = s.out ∧ getColl t c.step = some { c with left := c.left - f.vals.length }) ∧
        (∀ k : Link, on = true → nextLink s ph.y = some k →
          (hasLease s.rhl.link[k] f.red c.step = true → t.out = s.out ++ [.ringFlit k f] ∧
            getColl t c.step = some { c with left := c.left - f.vals.length }) ∧
          (hasLease s.rhl.link[k] f.red c.step = false → t.out = s.out ∧
            getColl t c.step = some { c with left := c.left - f.vals.length, waiting := c.waiting ++ [(ph.y, f)] })))

/-! ## Power and thermal authority (13) -/

/-- R474 to R478, R483 to R488, R592: a cap order in range is kept for its source, a host order above the rack's is refused as R477 and R484
state, an order over the side-band is answered, a rack OFF order counts its grace time and is cancelled by any other rack order, and the
package is OFF once the grace time is over. -/
def Obligations.PowerOrders : Prop :=
  ∀ (fn : Fn) (v : W32) (w : Nat) (p : PState) (s : State),
    (s.hif.linkUp = true → decodes s fn = true →
      (fn.val ≠ 0 → exec (.pwrCapHostWrite fn v) s = .next s ∧ exec (.pwrStateHostWrite fn v) s = .next s) ∧
      (fn.val = 0 → w = v.toNat % 65536 → p = pstateOf v.toNat →
        (capOk s w = false → exec (.pwrCapHostWrite fn v) s = .next s) ∧
        (capOk s w = true → (∀ r, s.pwr.orders.capRack = some r → w ≤ r) → ∃ t, exec (.pwrCapHostWrite fn v) s = .next t ∧
          t.pwr.orders = { s.pwr.orders with capHost := w }) ∧
        (∀ r, capOk s w = true → s.pwr.orders.capRack = some r → r < w → ∃ t, exec (.pwrCapHostWrite fn v) s = .next t ∧
          t.pwr.holdCount = s.pwr.holdCount + 1 ∧ t.pwr.orders = s.pwr.orders ∧ t = { s with pwr := t.pwr } ∧ t.pwr.holdLast =
            { beat := BitVec.ofNat 24 s.tmp.beat, kind := false, rack := BitVec.ofNat 16 r, host := BitVec.ofNat 16 w }) ∧
        (pnum s.pwr.orders.rack ≤ pnum p → ∃ t, exec (.pwrStateHostWrite fn v) s = .next t ∧ t.pwr.orders = { s.pwr.orders with host := p }) ∧
        (pnum p < pnum s.pwr.orders.rack → ∃ t, exec (.pwrStateHostWrite fn v) s = .next t ∧ t.pwr.holdCount = s.pwr.holdCount + 1 ∧
          t.pwr.orders = s.pwr.orders ∧ t = { s with pwr := t.pwr }))) ∧
    (s.rst.aon = true →
      (capOk s w = true → (∀ r, s.pwr.orders.capRack = some r → w ≤ r) → ∃ t, exec (.sidebandHostOrder (some w) none) s = .next t ∧
        t.pwr.orders = { s.pwr.orders with capHost := w } ∧ t.out.getLast? = some (.sideband .ok)) ∧
      (pnum s.pwr.orders.rack ≤ pnum p → ∃ t, exec (.sidebandHostOrder none (some p)) s = .next t ∧
        t.pwr.orders = { s.pwr.orders with host := p } ∧ t.out.getLast? = some (.sideband .ok)) ∧
      (capOk s w = true →
        (∃ t, exec (.rackCapOrder (some w)) s = .next t ∧ t.pwr.orders = { s.pwr.orders with capRack := some w } ∧
          t.out.getLast? = some (.sideband .ok)) ∧
        (∃ t, exec (.boardCapOrder w) s = .next t ∧ t.pwr.orders = { s.pwr.orders with capBoard := w } ∧
          t.out.getLast? = some (.sideband .ok))) ∧
      (capOk s w = false → exec (.rackCapOrder (some w)) s = .next { s with out := s.out ++ [.sideband .capRange] } ∧
        exec (.boardCapOrder w) s = .next { s with out := s.out ++ [.sideband .capRange] }) ∧
      (∃ t, exec (.rackCapOrder none) s = .next t ∧ t.pwr.orders = { s.pwr.orders with capRack := none }) ∧
      (∃ t, exec (.boardStateOrder p) s = .next t ∧ t.pwr.orders = { s.pwr.orders with board := p } ∧ t.out.getLast? = some (.sideband .ok)) ∧
      (∀ grace, ∃ t, exec (.rackStateOrder .off grace false) s = .next t ∧ t.out.getLast? = some (.sideband .ok) ∧ t.pwr.orders =
        { s.pwr.orders with rack := .off, rackBefore := if s.pwr.orders.offLeft.isSome then s.pwr.orders.rackBefore else s.pwr.orders.rack,
                            offLeft := if grace.getD 10 = 0 then none else some (1000 * grace.getD 10) }) ∧
      (∀ grace force, p ≠ .off ∨ force = true → ∃ t, exec (.rackStateOrder p grace force) s = .next t ∧
        t.pwr.orders = { s.pwr.orders with rack := p, rackBefore := .run, offLeft := none } ∧ t.out.getLast? = some (.sideband .ok))) ∧
    (∀ n, s.pwr.orders.offLeft = some n → n = 0 ∨ s.tmp.counting = false → ∃ t, exec .rackOffGraceExpiry s = .next t ∧
      t.pwr.orders = { s.pwr.orders with offLeft := none, rackBefore := .run } ∧
      (powerLive s = true → s.pwr.orders.rack = .off → t.pwr.stage = .off))

/-- R490 to R503: PARK is entered once nothing is in flight and left at a frame boundary 50 ms after the order; the issue limiter engages on
overcurrent and moves one step at a time; a sample of the tile temperatures, one every four beats, sets each powered die's WARN and CRIT from
its hottest tile; and THERMTRIP takes every rail but AON. -/
def Obligations.ParkLimiterThermal : Prop :=
  ∀ (n : Die) (s : State),
    (s.pwr.stage = .draining → s.stp.steps.all (fun x => x.phase != .live) = true → ∃ t, exec .parkDrainDone s = .next t ∧
      t.pwr.stage = .parked ∧ t.pwr.diesDown = true ∧ t.rst.die[n].powered = false ∧ t.grn.lines = [] ∧ t.rhl.state = .leaving) ∧
    (s.pwr.stage = .exiting → 50000 ≤ s.pwr.exitBeats → s.tmp.beat % 1024 = 0 → effState s = .run → ∃ t, exec .parkExitResume s = .next t ∧
      t.pwr.stage = .run ∧ t.pwr.exitBeats = 0 ∧ t.rhl.state = (if s.rhl.state = .leaving then .joining else s.rhl.state)) ∧
    (diePowered s n = true → ∃ t, exec (.overcurrentSense n) s = .next t ∧ (∀ k : Die, k ≠ n → t.pwr.die[k] = s.pwr.die[k]) ∧
      t.pwr.die[n] = { s.pwr.die[n] with limiter := max s.pwr.die[n].limiter 4, sensing := true, clearBeats := 0 } ∧
      t.pwr.limitCount = (if s.pwr.die[n].limiter = 0 then s.pwr.limitCount + 1 else s.pwr.limitCount) ∧ t.mem = s.mem) ∧
    (s.pwr.die[n].sensing = true → 0 < s.pwr.die[n].limiter → s.pwr.die[n].limiter < 16 → exec (.limiterStepUp n) s = .next { s with
      pwr := { s.pwr with die := s.pwr.die.set n { s.pwr.die[n] with limiter := s.pwr.die[n].limiter + 1 } } }) ∧
    (s.pwr.die[n].sensing = false → 64 ≤ s.pwr.die[n].clearBeats → (if s.pwr.die[n].crit then 8 else 0) < s.pwr.die[n].limiter →
      exec (.limiterStepDown n) s = .next { s with pwr := { s.pwr with
        die := s.pwr.die.set n { s.pwr.die[n] with limiter := s.pwr.die[n].limiter - 1, clearBeats := 48 } } }) ∧
    (∀ t0 t1 t2 t3 : List Int, tilesDue s = false → exec (.tileTempSample t0 t1 t2 t3) s = .next s) ∧
    (∀ (t0 t1 t2 t3 vs : List Int) (v x : Int), tilesDue s = true → diePowered s n = true → [t0, t1, t2, t3][n.val]? = some (v :: vs) →
      x = vs.foldl max v → ∃ t, exec (.tileTempSample t0 t1 t2 t3) s = .next t ∧ t.pwr.tileSampledAt = some s.tmp.elapsed ∧
      t.pwr.die[n].temp = x ∧ t.pwr.die[n].tempMax = max s.pwr.die[n].tempMax x ∧
      t.pwr.die[n].warn = (s.pwr.die[n].warn || decide (100 ≤ x)) ∧
      t.pwr.die[n].crit = (decide (110 ≤ x) || (s.pwr.die[n].crit && decide (105 ≤ x))) ∧
      (110 ≤ x → s.pwr.die[n].crit = false → 8 ≤ t.pwr.die[n].limiter) ∧ (100 ≤ x → t.pwr.tileGrade ≠ none) ∧ t.mem = s.mem) ∧
    (s.rst.aon = true → s.rst.thermtrip = false → diePowered s n = true → ∃ t, exec .thermtrip s = .next t ∧ t.rst.thermtrip = true ∧
      t.rst.cause.code = .thermtrip ∧ t.rst.vrEn = 0 ∧ t.rst.pkgGood = false ∧ t.stp.steps = [] ∧ t.mem.cells = [] ∧ t.tray = s.tray)

/-! ## Reset, wake and recovery (14, 18) -/

/-- R507, R634, R648, R650: AON coming up is a COLD reset and AON falling takes everything but fuses and flash; a low of RESET_N or PERST# of
10 us is a PKG reset and one shorter than 500 ns is none; and the release of both begins the wake. -/
def Obligations.ResetsAndPins : Prop :=
  ∀ (perst : Bool) (lowNs : Nat) (s : State),
    (s.rst.aon = false → ∃ t, exec .coldReset s = .next t ∧ allLost true s t) ∧
    (s.rst.aon = true → ∃ t, exec .aonPowerLoss s = .next t ∧ allLost false s t) ∧
    (lowNs < 500 → exec (.pkgReset perst lowNs) s = .next s) ∧
    (pinsLive s = true → (if perst then s.rst.perst else s.rst.resetN) = true → 10000 ≤ lowNs →
      ∃ t, exec (.pkgReset perst lowNs) s = .next t ∧ t.rst.vrEn = 0 ∧ t.rst.done = false ∧ t.rst.pkgGood = false ∧
        t.rst.resetN = (s.rst.resetN && perst) ∧ t.rst.perst = (s.rst.perst && !perst) ∧ t.mem.cells = [] ∧ t.stp.steps = [] ∧
        t.pwr.orders = s.pwr.orders ∧ t.rst.cause =
          { code := if s.rst.wdtExpired then .hubHang else .ok, type := 1, source := if perst then 2 else 1, target := 0 }) ∧
    (pinsLive s = true → (s.rst.resetN && s.rst.perst) = false → ∃ t, exec .resetRelease s = .next t ∧ t.rst.resetN = true ∧
      t.rst.perst = true ∧ t.rst.faultN = true ∧ t.rst.wake = some s.rst.next ∧ t.rst.step = 1 ∧ t.rst.done = false)

/-- R508, R509, R513, R526, R527, R530: WARM and DIE resets are the PF's; WARM ends every step and drops PKG_GOOD; a hung die is reloaded, or
fails at its fourth; a function-level reset resets the function's registers and its partitions; and the hub watchdog takes PKG_GOOD and
asserts PKG_FAULT_N. -/
def Obligations.HostResetsAndHangs : Prop :=
  ∀ (fn : Fn) (v : W32) (n : Die) (s : State),
    (s.hif.linkUp = true → decodes s fn = true → fn.val ≠ 0 → exec (.rstCtrlWarm fn v) s = .next s ∧ exec (.rstCtrlDie fn v) s = .next s) ∧
    (s.hif.linkUp = true → decodes s 0 = true → s.rst.done = true →
      (bitOf v.toNat 31 = true → bitOf v.toNat 29 = false → s.rst.warm = none → s.rst.die[n].failed = false →
        ∃ t, exec (.rstCtrlWarm 0 v) s = .next t ∧
        t.rst.warm = some false ∧ t.rst.done = false ∧ t.rst.pkgGood = false ∧ t.stp.steps = [] ∧
        t.rst.cause = { code := .ok, type := 2, source := 4, target := 0 } ∧ (bitOf v.toNat 30 = false → t.mem.cells = [])) ∧
      (bitOf v.toNat 31 = false → bitOf v.toNat 29 = true → bitsOf v.toNat 25 24 = n.val → dieFailed s n = false →
        s.fab.die[n].reloading = false → diePowered s n = true → ∃ t, exec (.rstCtrlDie 0 v) s = .next t ∧ t.fab.die[n].reloading = true ∧
          t.rst.cause = { code := .ok, type := 4, source := 4, target := n.val })) ∧
    (s.rst.done = true → diePowered s n = true → dieFailed s n = false → s.fab.die[n].reloading = false →
      (s.fab.die[n].reloads ≠ 3 → ∃ t, exec (.dieHangTimeout n) s = .next t ∧ t.fab.die[n].reloading = true ∧
        t.fab.die[n].reloads = s.fab.die[n].reloads + 1 ∧ t.rst.cause = { code := .dieHang, type := 4, source := 8, target := n.val }) ∧
      (s.fab.die[n].reloads = 3 → ∃ t, exec (.dieHangTimeout n) s = .next t ∧ t.fab.die[n].failed = true)) ∧
    (s.hif.linkUp = true → fnEnabled s fn = true → ∃ t, exec (.functionLevelReset fn) s = .next t ∧ t.srv.fn[fn] = {} ∧
      t.hif.fn[fn] = { bar2Log2 := if fn.val = 0 then 6 else 2 } ∧ t.tmp.latch[fn] = none ∧
      t.rst.cause = { code := .ok, type := 5, source := 6, target := fn.val } ∧
      ∀ p : Part, (partDesc s p).isSome = true → servingFn s p = fn.val → s.stp.part[p].state ≠ .disabled →
        t.stp.part[p].cqTail = 0 ∧ t.stp.part[p].cqHead = 0) ∧
    exec .hubWatchdogKick s = .next s ∧
    (s.rst.aon = true → s.rst.vrEn ≠ 0 → s.rst.wdtExpired = false → ∃ t, exec .hubWatchdogExpiry s = .next t ∧ t.rst.wdtExpired = true ∧
      t.rst.faultN = false ∧ t.rst.pkgGood = false ∧ t.mem = s.mem)

/-- R515, R516, R519, R637 to R639, R641, R642: a wake step that is done leads to the next and raises its rails, unless a power-good is high
already; one of stage 1 that exceeds its limit takes the rails, is retried after 20 ms and locks the package out at the fourth failure; a fault
of a rail in service shorter than 1.8 us is none, and a longer one fails its die, or takes every rail but AON for a hub rail. -/
def Obligations.WakeAndRails : Prop :=
  ∀ (n : Die) (info : WakeInfo) (d : Fin 64) (lowNs : Nat) (high : Bool) (s : State),
    (s.rst.wake ≠ none → s.rst.retryWait = false →
      (s.rst.step < 8 → s.rst.step ≠ 6 →
        (pgEarly s (hubRails (s.rst.step + 1)) = false → exec (.wakeStepDone n info) s = .next { s with rst := { s.rst with
          step := s.rst.step + 1, vrPg := s.rst.vrPg ||| (hubRails s.rst.step &&& s.rst.vrEn),
          vrEn := s.rst.vrEn ||| hubRails (s.rst.step + 1) } }) ∧
        (pgEarly s (hubRails (s.rst.step + 1)) = true → s.rst.stage1Tries < 3 → ∃ t, exec (.wakeStepDone n info) s = .next t ∧
          t.rst.retryWait = true ∧ t.rst.vrEn = 0 ∧ t.rst.failedStep = s.rst.step + 1)) ∧
      (∀ b, s.rst.step = 6 → info = .firmware b → ∃ t, exec (.wakeStepDone n info) s = .next t ∧ t.rst.step = 7 ∧ t.rst.fwBank = b ∧
        t.gln.wearBad = s.flash.wearUnreadable ∧ t.mem = s.mem) ∧
      (s.rst.step ≤ 8 → s.rst.stage1Tries < 3 → ∃ t, exec (.wakeStepTimeout n) s = .next t ∧ t.rst.retryWait = true ∧ t.rst.vrEn = 0 ∧
        t.rst.stage1Tries = s.rst.stage1Tries + 1 ∧ t.rst.failedStep = s.rst.step ∧ t.rst.lockout = s.rst.lockout) ∧
      (s.rst.step ≤ 8 → 3 ≤ s.rst.stage1Tries → ∃ t, exec (.wakeStepTimeout n) s = .next t ∧ t.rst.lockout = true ∧ t.rst.faultN = false ∧
        t.rst.vrEn = 0)) ∧
    (s.rst.wake ≠ none → s.rst.retryWait = true → exec (.wakeRetryRestart n) s = .next { s with rst := { s.rst with
      retryWait := false, step := 1 } }) ∧
    (lowNs < 1800 ∨ inService s d = false → exec (.railFault d (.low lowNs)) s = .next s) ∧
    (inService s d = true → 2200 ≤ lowNs → s.rst.done = true →
      (railDie d = some n.val → ∃ t, exec (.railFault d (.low lowNs)) s = .next t ∧ t.rst.vrEn.getLsbD d = false ∧ t.rst.die[n].powered = false ∧
        (s.rst.die[n].failed = false → t.rst.die[n].failed = true ∧ (stackSt t (2 * n.val)).failed = true ∧
          (stackSt t (2 * n.val + 1)).failed = true)) ∧
      (railDie d = none → ∃ t, exec (.railFault d (.low lowNs)) s = .next t ∧ t.rst.faultN = false ∧ t.rst.railFault = true ∧
        t.rst.failedStep = railStep d ∧ t.rst.vrEn = 0 ∧ t.rst.done = false ∧ t.mem.cells = [])) ∧
    (railExists d = true → s.rst.vrEn.getLsbD d = false → ∃ t, exec (.railFault d (.level high)) s = .next t ∧
      t = { s with rst := { s.rst with vrPg := t.rst.vrPg } } ∧ ∀ k < 64, t.rst.vrPg.getLsbD k = if k = d.val then high else s.rst.vrPg.getLsbD k)

/-! ## The host port (16) -/

/-- R8, R554, R559 to R564, R576, R656, R657: a BAR2 write that the function reaches becomes one posted write for each 64-byte block, and a read
answers the device bytes (here those of lines that the slices hold) once the function's earlier writes are acknowledged; a busy BAR2 drops writes and answers reads with nothing; an
access out of reach is logged; a register write changes what its register holds, and one to a silent or absent register nothing. -/
def Obligations.HostAccesses : Prop :=
  ∀ (fn : Fn) (off len a : Nat) (data : List Byte) (poisoned : Bool) (v : W64) (s : State), s.hif.linkUp = true → decodes s fn = true →
    a = s.hif.fn[fn].bar2Off.toNat + off →
    (inBar2 s fn off data.length = true → bar2Busy s = false → bar2Reach s fn a data.length = true →
      ∃ (t : State) (ids : List Nat), exec (.bar2Write fn off data poisoned) s = .next t ∧
        t.hif.posted = s.hif.posted ++ ids.map (fun i => (fn.val, i)) ∧
        ids.length = (blocksOf a data).length ∧ t.grn.reqs.length + t.fab.ingWait.length =
          s.grn.reqs.length + s.fab.ingWait.length + (blocksOf a data).length ∧
        t.out = (if poisoned then s.out ++ [.aer fn .poisonedTlp] else s.out) ∧ t.mem = s.mem ∧ t.grn.lines = s.grn.lines) ∧
    (inBar2 s fn off data.length = true → bar2Busy s = true → exec (.bar2Write fn off data false) s =
      .next { s with hif := { s.hif with drop := s.hif.drop + 1 } }) ∧
    (inBar2 s fn off len = true → bar2Busy s = true → exec (.bar2Read fn off len) s =
      .next (settle { s with out := s.out ++ [.bar2Data fn none false] })) ∧
    (inBar2 s fn off len = true → bar2Busy s = false → bar2Reach s fn a len = false → ∃ t, exec (.bar2Read fn off len) s = .next (settle t) ∧
      t.hif.fn[fn].errCode = .barRange ∧ t.hif.fn[fn].errOff = off ∧ t.hif.fn[fn].errCount = s.hif.fn[fn].errCount + 1 ∧
      t.out.getLast? = some (.bar2Data fn none false) ∧ t.mem = s.mem) ∧
    (inBar2 s fn off len = true → bar2Busy s = false → bar2Reach s fn a len = true →
      ((∀ e ∈ s.hif.posted, e.1 ≠ fn.val) → enginesIdle s = true → rangeHeld s a len = true → ∃ t, exec (.bar2Read fn off len) s = .next t ∧
        t.out = s.out ++ [.bar2Data fn (some (heldBytes s a len)) false] ∧ t.mem = s.mem) ∧
      ((∃ e ∈ s.hif.posted, e.1 = fn.val) → ∃ t r, exec (.bar2Read fn off len) s = .next (settle t) ∧
        t = { s with hif := { s.hif with bar2Reads := s.hif.bar2Reads ++ [r] } } ∧ r.fn = fn.val ∧ r.off = off ∧ r.len = len)) ∧
    (∀ k mse, exec (.bar2Resize fn k mse) s = .next { s with hif := { s.hif with fn := s.hif.fn.set fn { s.hif.fn[fn] with
      mse := mse, bar2Log2 := if mse = false ∧ bar2SizeOk fn k = true then k else s.hif.fn[fn].bar2Log2 } } }) ∧
    (∀ k, exec (.unsupportedRequest fn k) s = .next { s with out := s.out ++ [.unsupported fn, .aer fn .unsupportedRequest] }) ∧
    (∀ size, size ≠ 4 → size ≠ 8 → ∃ t, exec (.registerWrite fn off size v) s = .next t ∧ t.hif.fn[fn].errCode = .barRange ∧
      t.hif.fn[fn].errBar = 0 ∧ t.hif.fn[fn].errCount = s.hif.fn[fn].errCount + 1 ∧ t.mem = s.mem) ∧
    (off % 4 = 0 → (regAt s fn (off / 8 * 8)).filter Reg.wide = none →
      (regAt s fn off = none → exec (.registerWrite fn off 4 v) s = .next s) ∧
      (∀ r, regAt s fn off = some r → silent s r = true → exec (.registerWrite fn off 4 v) s = .next s) ∧
      (regAt s fn off = some .ctxSel → exec (.registerWrite fn off 4 v) s = .next { s with srv := { s.srv with
        fn := s.srv.fn.set fn { s.srv.fn[fn] with sel := v.toNat % 2 ^ 32 % 16384 } } }) ∧
      (regAt s fn off = some .bwrSelect → exec (.registerWrite fn off 4 v) s = .next { s with bwr := { s.bwr with
        select := BitVec.ofNat 6 (v.toNat % 2 ^ 32) } }) ∧
      (regAt s fn off = some .pwrEvent → fn.val = 0 → exec (.registerWrite fn off 4 v) s = .next { s with pwr := { s.pwr with
        event := s.pwr.event &&& ~~~(BitVec.ofNat 7 (v.toNat % 2 ^ 32)) } }) ∧
      (∀ p : Part, regAt s fn off = some (.partStatus p) → mayPart s fn p = true → exec (.registerWrite fn off 4 v) s =
        .next { s with stp := { s.stp with part := s.stp.part.set p { s.stp.part[p] with
          cfgErr := s.stp.part[p].cfgErr && !v.getLsbD 1, dbErr := s.stp.part[p].dbErr && !v.getLsbD 0 } } }))

/-- R567 to R572, R577: a transfer of a DMA engine is started by the function that owns it, refused by its shape or while it is BUSY; one whose
bytes have come writes them into device memory, one to the host sends the device bytes (here those of lines that the slices hold); a
completion brings its bytes where they are wanted; a request waits while no tag is free; and one that fails ends with HOST_ERR. -/
def Obligations.DmaAndUpstream : Prop :=
  ∀ (fn : Fn) (e : Fin 16) (v : W32) (d : Dma) (s : State), s.hif.dma[e] = d →
    (s.hif.linkUp = true → decodes s fn = true →
      (dmaOwner s e ≠ fn.val → exec (.dmaStart fn e v) s = .next s) ∧
      (dmaOwner s e = fn.val → bitOf v.toNat 31 = true →
        (d.busy = true → exec (.dmaStart fn e v) s = .next { s with hif := { s.hif with dma := s.hif.dma.set e { d with reject := true } } }) ∧
        (d.busy = false → dmaShape d = false → ∃ t, exec (.dmaStart fn e v) s = .next t ∧ t.hif.dma[e].busy = false ∧
          t.hif.dma[e].code = .dmaBad ∧ t.mem = s.mem) ∧
        (d.busy = false → dmaShape d = true → ∃ t, exec (.dmaStart fn e v) s = .next t ∧
          t.hif.dma[e] = { d with irq := bitOf v.toNat 1, dir := bitOf v.toNat 0, busy := true, code := .ok, done := 0 } ∧ t.mem = s.mem ∧
          (bitOf v.toNat 0 = false → s.hif.upWait = [] → s.hif.upstream.length < tagLimit s.hif →
            t.hif.upstream = s.hif.upstream ++ [{ tag := s.nextId, fn := fn, src := .dma e.val, abandoned := false }] ∧
            t.out = s.out ++ [.upstreamRead fn.val s.nextId d.host.toNat d.len.toNat]) ∧
          (bitOf v.toNat 0 = false → tagLimit s.hif ≤ s.hif.upstream.length → t.hif.upstream = s.hif.upstream ∧ t.out = s.out ∧
            t.hif.upWait = s.hif.upWait ++ [{ fn := fn, src := .dma e.val, addr := d.host.toNat, len := d.len.toNat }])))) ∧
    (∀ data, d.busy = true → d.len.toNat ≤ data.length → upWaits s (.dma e) = false → enginesIdle s = true →
      rangeHeld s d.dev.toNat d.len.toNat = true →
      dmaReach s e d.dev.toNat ((d.len.toNat + 63) / 64) = (64 * ((d.len.toNat + 63) / 64), none) →
      (d.dir = false → ∃ t, exec (.dmaDone e data false) s = .next t ∧ t.hif.dma[e] = { d with busy := false, code := .ok, done := d.len } ∧
        heldBytes t d.dev.toNat d.len.toNat = data.take d.len.toNat ∧ t.mem.cells = s.mem.cells) ∧
      (d.dir = true → d.len.toNat ≠ 0 → ∃ t, exec (.dmaDone e data false) s = .next t ∧
        t.hif.dma[e] = { d with busy := false, code := .ok, done := d.len } ∧
        .hostWrite (dmaOwner s e) d.host.toNat (heldBytes s d.dev.toNat d.len.toNat) ∈ t.out ∧ t.mem = s.mem)) ∧
    (∀ u : Upstream, (s.hif.upstream.find? fun x => x.tag == u.tag) = some u →
      (∀ data, u.abandoned = true → s.hif.upWait = [] → exec (.upstreamCompletion u.tag data) s =
        .next (settle { s with hif := { s.hif with upstream := s.hif.upstream.filter fun x => x.tag != u.tag } })) ∧
      (∀ data step tile a dl, u.abandoned = false → u.src = .kv step (some tile) a dl → s.hif.upWait = [] →
        ∃ t, exec (.upstreamCompletion u.tag data) s = .next (settle t) ∧
        t.tile.localMem = msetN 0 s.tile.localMem (2 ^ 19 * tile + a) data ∧
        t.hif.upstream = s.hif.upstream.filter (fun x => x.tag != u.tag) ∧ t.mem = s.mem) ∧
      (u.abandoned = false → ∃ t, exec (.completionTimeout u.tag) s = .next t ∧ .aer u.fn .completionTimeout ∈ t.out ∧
        (u.src = .dma e.val → t.hif.dma[e].busy = false ∧ t.hif.dma[e].code = .hostErr) ∧
        (∀ step tile a dl x, u.src = .kv step tile a dl → getStep s step = some x → x.fault = none →
          getStep t step = some { x with fault := some .hostErr })))

/-- R553, R555, R556, R574, R575, R578: a change of SR-IOV resets the partitions whose serving function it changes; a Hot Reset takes the link
down and resets every enabled function; a link of Table 16-2 trains once its PHY is ready; an error of the link is reported; and D3hot is the
function's own. -/
def Obligations.HostPortLink : Prop :=
  ∀ s : State,
    (∀ (on : Bool) (n : Fin 9), s.hif.linkUp = true → ∃ t, exec (.sriovConfigChange on n) s = .next t ∧ t.hif.vfEnable = on ∧
      t.hif.numVfs = n.val ∧ ∀ p : Part, s.stp.part[p].state ≠ .disabled →
        servingFn s p ≠ servingFn { s with hif := { s.hif with vfEnable := on, numVfs := n.val } } p →
        t.stp.part[p].cqTail = 0 ∧ t.stp.part[p].cqHead = 0 ∧ t.stp.part[p].cqPhase = true) ∧
    (s.hif.linkUp = true → ∃ t, exec .hotReset s = .next t ∧ t.hif.linkUp = false ∧ t.hif.rate = 0 ∧ t.hif.tags = .bits8 ∧
      t.hif.fn[(0 : Fn)] = { bar2Log2 := 6 } ∧
      t.srv.fn[(0 : Fn)] = {} ∧ t.rst.cause.type = 5 ∧ t.rst.done = s.rst.done) ∧
    (∀ (rate : Fin 8) width mode, hostPhyReady s = true → linkShape rate width mode = true → s.hif.upWait = [] →
      exec (.pcieLinkTrained rate width mode) s = .next { s with hif := { s.hif with
        linkUp := true, rate := rate, width := width, flit := mode.flit, tags := mode.tags } }) ∧
    (∀ k, s.hif.linkUp = true → exec (.hostPortLinkError k) s = .next { s with out := s.out ++ [.aer 0 (.link k)] }) ∧
    (∀ (fn : Fn) on, s.hif.linkUp = true → fnEnabled s fn = true → exec (.d3hotTransition fn on) s =
      .next { s with hif := { s.hif with fn := s.hif.fn.set fn { s.hif.fn[fn] with d3hot := on } } })

/-! ## Larkspur and the tray (17) -/

/-- R28, R581 to R584, R587, R595 to R598, R609, R611, R612, R617, R629: what Larkspur does with its slots and gates. It starts with the class
its strap names and powers nothing under a bad strap; a package of the wrong bin stays or goes unpowered; a gate closes when its package leaves or
is no longer good and is held at the fourth closing within 60 s; and the commands for a slot act on it, or are refused from a host. -/
def Obligations.SlotsAndGates : Prop :=
  ∀ (k : Fin 8) (x : Slot) (now : Nat) (s : State), s.tray.slot[k] = x →
    (∀ strap, ∃ t, exec (.larkspurStart strap) s = .next t ∧ t.tray.started = true ∧ t.tray.strapBad = decide (1 < strap) ∧
      t.tray.liquid = (strap == 1) ∧
      (1 < strap ∨ slotFits { s with tray := { s.tray with liquid := strap == 1 } } k = true → slotGood s k = true → x.present = true →
        x.forced = false → x.held = false → t.tray.slot[k].openEn = true) ∧
      (strap ≤ 1 → x.present = true → slotFits { s with tray := { s.tray with liquid := strap == 1 } } k = false →
        .report (some k.val) .binMismatch ∈ t.out ∧ t.tray.slot[k].binMismatch = true ∧ slotOn t k = false) ∧
      (1 < strap → .report none .classStrapBad ∈ t.out ∧ slotOn t k = slotOn s k)) ∧
    (x.present = true → ∃ t, exec (.slotPresentRise k) s = .next t ∧ t.tray.slot[k].present = false ∧ t.tray.slot[k].openEn = false ∧
      t.tray.slot[k].pkgGood = false ∧ slotOn t k = false) ∧
    (∀ id : Fin 128, s.rst.aon = true → s.rhl.nextRank = none → s.rhl.rank ≠ some (id.val, k.val) → ∃ t, exec (.trayIdWrite id k) s = .next t ∧
      t.tray = s.tray ∧ t.mem = s.mem ∧ (if (List.range 8).any (fun l => linkLive (linkSt s l).state) then
        t.rhl.nextRank = some (id.val, k.val) ∧ t.rhl.state = .leaving else t.rhl.rank = some (id.val, k.val))) ∧
    (x.pkgGood = true → (isPkg s k = true → s.rst.pkgGood = false) →
      (x.openEn = false → exec (.pkgGoodFall k now) s =
        .next { s with tray := { s.tray with slot := s.tray.slot.set k { x with pkgGood := false } } }) ∧
      (x.present = true → x.openEn = true → ∃ t, exec (.pkgGoodFall k now) s = .next t ∧
        t.tray.slot[k] = { x with
          pkgGood := false, openEn := false, closings := recent x.closings now 60000
          held := x.held || (decide (4 ≤ (recent x.closings now 60000).length) && s.tray.started) } ∧
        (4 ≤ (recent x.closings now 60000).length → s.tray.started = true → x.held = false → .report (some k.val) .gateHeld ∈ t.out) ∧
        t.mem = s.mem)) ∧
    (s.tray.started = true →
      (∀ b, slotOn s k = false → x.present = false → s.tray.strapBad = false → binPossible s k b = true →
        ∃ t, exec (.binIdRead k b) s = .next t ∧ t.tray.slot[k].present = true ∧ t.tray.slot[k].bin = b ∧
          t.tray.slot[k].binMismatch = (b != classBin s) ∧
          (b ≠ classBin s → .report (some k.val) .binMismatch ∈ t.out ∧ slotOn t k = false)) ∧
      (x.present = true → x.forced = false → x.held = false → (isPkg s k = true → s.rst.pkgGood = true) → exec (.pkgGoodRise k) s =
        .next { s with tray := { s.tray with slot := s.tray.slot.set k { x with pkgGood := true, openEn := true } } }) ∧
      exec (.gateForce .rack k) s = .next { s with
        tray := { s.tray with slot := s.tray.slot.set k { x with openEn := false, forced := true } }, out := s.out ++ [.response .ok] } ∧
      exec (.gateRelease .rack k) s = .next { s with
        out := s.out ++ [.response .ok]
        tray := { s.tray with slot := s.tray.slot.set k (reopened s k x) } } ∧
      (∀ auto, exec (.setRecover .rack k auto) s = .next { s with
        tray := { s.tray with slot := s.tray.slot.set k { x with recoverAuto := auto } }, out := s.out ++ [.response .ok] }) ∧
      (∀ (p : Fin 8) (id : Fin 128) (b1 b2 : Bool) (w : Nat), ∀ c ∈ [Instr.coldCycle (.host p) k now, .gateForce (.host p) k, .gateRelease (.host p) k,
        .retrain (.host p) k, .setTrayId (.host p) id, .setTempo (.host p) b1, .setBoot (.host p) k b1 b2, .setInput (.host p) w,
        .setRecover (.host p) k b1], exec c s = .next { s with out := s.out ++ [.response .notPermitted] }) ∧
      (∀ id : Fin 128, ∃ t, exec (.setTrayId .rack id) s = .next t ∧ t.tray.trayId = some id.val ∧ t.out.getLast? = some (.response .ok) ∧
        t.mem = s.mem) ∧
      (slotFits s k = true → s.tray.strapBad = false → ∃ t, exec (.coldCycle .rack k now) s = .next t ∧ slotOn t k = true ∧
        t.out.getLast? = some (.response .ok) ∧
        (slotOn s k = true → ∃ c, t.tray.slot[k].lastCause = some c ∧ c.atMs = now)) ∧
      (isPkg s k = true → pinsLive s = true → s.rst.resetN = true → s.rst.perst = true → ∃ t, exec (.resetPkg .rack k) s = .next t ∧
        t.rst.wake = some .pkg ∧ t.rst.step = 1 ∧ t.mem.cells = [] ∧ t.out.getLast? = some (.response .ok)) ∧
      (isPkg s k = false → slotOn s k = true →
        exec (.resetPkg .rack k) s = .next { s with
          tray := { s.tray with slot := s.tray.slot.set k { x with smbus := false, faultN := true } },
          out := s.out ++ [.relay k .reset, .response .ok] } ∧
        exec (.retrain .rack k) s = .next { s with out := s.out ++ [.relay k .retrain, .response .ok] } ∧
        (x.recoverAuto = true → (recent x.resets now 3600000).length ≤ 3 → exec (.pkgFaultRecovery k false now) s = .next { s with
          tray := { s.tray with slot := s.tray.slot.set k { x with smbus := false, faultN := true, resets := recent x.resets now 3600000 } },
          out := s.out ++ [.relay k .reset] }) ∧
        (x.recoverAuto = false ∨ 3 < (recent x.resets now 3600000).length → exec (.pkgFaultRecovery k false now) s = .next { s with
          tray := { s.tray with slot := s.tray.slot.set k { x with faultN := false } },
          out := s.out ++ [.relay k .hold, .report (some k) .slotFault] }) ∧
        exec (.pkgFaultRecovery k true now) s = .next { s with tray := { s.tray with slot := s.tray.slot.set k { x with faultN := false } } }) ∧
      (isPkg s k = true → s.rst.faultN = false → pinsLive s = true → s.rst.resetN = true →
        x.recoverAuto = false ∨ 3 < (recent x.resets now 3600000).length → ∃ t, exec (.pkgFaultRecovery k false now) s = .next t ∧
          t.rst.resetN = false ∧ t.rst.done = false ∧ .report (some k.val) .slotFault ∈ t.out) ∧
      (isPkg s k = true → s.rst.done = true → (List.range 8).any (fun l => linkLive (linkSt s l).state) = true →
        ∃ t, exec (.retrain .rack k) s = .next t ∧ t.rhl.restart = true ∧ t.rhl.state = .leaving ∧ t.out.getLast? = some (.response .ok) ∧
          t.mem = s.mem) ∧
      (slotOn s k = true → exec (.i3cDynamicAddressTimeout k) s = .next { s with
        tray := { s.tray with slot := s.tray.slot.set k { x with smbus := true } } }) ∧
      (∀ hub sld, flashReach s k = true → ∃ t, exec (.setBoot .rack k hub sld) s = .next t ∧ t.out.getLast? = some (.response .ok) ∧
        t.tray.slot[k] = { x with hubBank := hub, sldBank := sld } ∧ (isPkg s k = true → t.flash = { s.flash with hubBank := hub } ∧
          t.sld.bank = sld) ∧
        t.mem = s.mem) ∧
      (∀ hub sld, flashReach s k = false → exec (.setBoot .rack k hub sld) s = .next { s with
        out := s.out ++ [.responseOpen ((freeVal s).setWidth 16)], free := s.free + 1 }) ∧
      (slotOn s k = true → offStands s k = true → (slotOrders s k).rack = .off ∨ (slotOrders s k).host = .off →
        (isPkg s k = false ∨ s.pwr.offReady = true → ∃ t, exec (.offReady k now) s = .next t ∧ slotDown k now t) ∧
        ∃ t, exec (.offReadyTimeout k now) s = .next t ∧ slotDown k now t))

/-- R588 to R593, R600, R602 to R608: the power entry, cooling, the reference and the orders. A fan failure and a loss of the input range act on
every slot; the cooling outputs follow the temperatures unless the watchdog holds them full, and only its release ends that; an order of the
rack or of the slot's own host port joins the slot's standing orders or is refused with the code its rule names. -/
def Obligations.PowerEntryCoolingOrders : Prop :=
  ∀ (k : Fin 8) (now : Nat) (s : State),
    (∀ ppm, exec (.refInChange ppm) s = .next { s with tray := { s.tray with refIn := ppm.any fun p => decide (p.natAbs ≤ 20) } }) ∧
    exec (.coolingWatchdogExpiry now) s = .next { s with tray := { s.tray with
      wdHold := true, cool0 := 30, cool1 := 30, fans := 30, fullSince := if s.tray.wdHold then s.tray.fullSince else now } } ∧
    exec .coolingWatchdogKick s = .next s ∧
    (s.tray.started = true →
      (∀ f : Fin 8, s.tray.fanFailed[f] = false → ∃ t, exec (.fanFail f) s = .next t ∧ t.tray.fanFailed = s.tray.fanFailed.set f true ∧
        .report none .fanFail ∈ t.out) ∧
      (s.tray.inputOk = true → ∃ t, exec (.inputRangeLoss now) s = .next t ∧ t.tray.inputOk = false ∧ .report none .inputRange ∈ t.out ∧
        slotOn t k = false ∧ (slotOn s k = true → ∃ c, t.tray.slot[k].lastCause = some c ∧ c.atMs = now)) ∧
      (s.tray.inputOk = false → ∃ t, exec .inputRangeRestore s = .next t ∧ t.tray.inputOk = true) ∧
      (∀ track, exec (.setTempo .rack track) s = .next { s with tray := { s.tray with track := track }, out := s.out ++ [.response .ok] }) ∧
      (∀ w, 2000 ≤ w → w ≤ ratedInput s → ∃ t, exec (.setInput .rack w) s = .next t ∧ t.tray.inputLimit = some w ∧
        t.out.getLast? = some (.response .ok)) ∧
      (∀ w, w < 2000 ∨ ratedInput s < w → exec (.setInput .rack w) s = .next { s with
        out := s.out ++ [.responseOpen ((freeVal s).setWidth 16)], free := s.free + 1 }) ∧
      (∀ temps, ∃ t, exec (.coolingUpdate temps) s = .next t ∧ t = { s with tray := t.tray } ∧ t.tray.wdHold = s.tray.wdHold ∧
        (s.tray.wdHold = true → t.tray.cool0 = s.tray.cool0 ∧ t.tray.cool1 = s.tray.cool1 ∧ t.tray.fans = s.tray.fans) ∧
        (s.tray.wdHold = false → t.tray.cool0 = coolOf s temps [0, 1, 2, 3] ∧ t.tray.cool1 = coolOf s temps [4, 5, 6, 7] ∧
          t.tray.fans = max t.tray.cool0 t.tray.cool1)) ∧
      (∀ b1 b2 us i a v, (if b1 = 0x5A ∧ b2 = 0xA5 ∧ us ≤ 1000 ∧ i = true ∧ a = true ∧ v = true ∧ s.tray.fullSince + 30000 ≤ now then
        exec (.coolingWatchdogRelease b1 b2 us i a v now) s = .next { s with tray := { s.tray with wdHold := false } }
        else exec (.coolingWatchdogRelease b1 b2 us i a v now) s = .next s)) ∧
      (∀ w, 300 ≤ w → w ≤ binMax s.tray.slot[k].bin → (isPkg s k = true → s.tray.slot[k].bin = s.fuses.bin) →
        (∃ t, exec (.setCap .rack k w) s = .next t ∧ (slotOrders t k).capRack = some w ∧ .response .ok ∈ t.out) ∧
        (∃ t, exec (.redfishPowerLimit k (some w)) s = .next t ∧ (slotOrders t k).capRack = some w ∧ .response .ok ∈ t.out) ∧
        ((∀ r, (slotOrders s k).capRack = some r → w ≤ r) → ∃ t, exec (.setCap (.host k) k w) s = .next t ∧ (slotOrders t k).capHost = w ∧
          .response .ok ∈ t.out) ∧
        (∀ r, (slotOrders s k).capRack = some r → r < w → ∃ t, exec (.setCap (.host k) k w) s = .next t ∧ .response .rackHold ∈ t.out)) ∧
      (∀ w, 0 < w → w < 300 ∨ binMax s.tray.slot[k].bin < w → (isPkg s k = true → s.tray.slot[k].bin = s.fuses.bin) →
        ∀ c ∈ [Instr.setCap .rack k w, .redfishPowerLimit k (some w), .setCap (.host k) k w], ∃ t, exec c s = .next t ∧
          .response .capRange ∈ t.out) ∧
      (∃ t, exec (.setCap .rack k 0) s = .next t ∧ (slotOrders t k).capRack = none) ∧
      (∃ t, exec (.redfishPowerLimit k none) s = .next t ∧ (slotOrders t k).capRack = none) ∧
      (∀ v grace force, (∀ g, grace = some g → g ≤ 60) → ∃ t, exec (.setState .rack k v grace force) s = .next t ∧
        (slotOrders t k).rack = v ∧ .response .ok ∈ t.out) ∧
      (∀ v, pnum (slotOrders s k).rack ≤ pnum v → ∃ t, exec (.setState (.host k) k v none false) s = .next t ∧
        (slotOrders t k).host = v ∧ .response .ok ∈ t.out) ∧
      (∀ v, pnum v < pnum (slotOrders s k).rack → ∃ t, exec (.setState (.host k) k v none false) s = .next t ∧ .response .rackHold ∈ t.out) ∧
      (∀ p : Fin 8, p ≠ k → ∀ w v, ∀ c ∈ [Instr.setCap (.host p) k w, .setState (.host p) k v none false, .getStatus (.host p) k, .resetPkg (.host p) k],
        exec c s = .next { s with out := s.out ++ [.response .notPermitted] }) ∧
      (∀ src ∈ [CmdSrc.rack, .host k], exec (.getStatus src k) s = .next { s with
        out := s.out ++ [.status (slotStatus s k), .response .ok], free := s.free + 3 }) ∧
      (∀ eid slot, (eid = 0x20 + k.val ∨ (eid = 8 ∧ slot = none) ∨ (eid = 8 ∧ slot = some k) →
          exec (.hostMctpMessage k eid slot) s = .next { s with out := s.out ++ [.mctpForward k eid] }) ∧
        (eid = 8 → ∀ j, slot = some j → j ≠ k → exec (.hostMctpMessage k eid slot) s = .next { s with out := s.out ++ [.response .notPermitted] }) ∧
        (eid ≠ 0x20 + k.val → eid ≠ 8 → exec (.hostMctpMessage k eid slot) s = .next s)))

/-- R610, R613 to R615, R618 to R621: what Larkspur and the package answer to PLDM, SPDM and Redfish, and how firmware images are refused, staged,
activated and rolled back. -/
def Obligations.ManagementAnswers : Prop :=
  ∀ (k : Fin 8) (now : Nat) (s : State),
    (∀ lk, (if lk then s.tray.started else hubRuns s) = true →
      exec (.spdmGetVersion lk) s = .next { s with out := s.out ++ [.spdmVersion] } ∧
      exec (.spdmGetCapabilities lk) s = .next { s with out := s.out ++ [.spdmCapabilities (Config.spdmCapabilities lk)] } ∧
      (∀ a b, exec (.spdmNegotiateAlgorithms lk a b) s = .next { s with out := s.out ++ [.spdmAlgorithms (a && b)] }) ∧
      exec (.spdmGetDigests lk) s = .next { s with out := s.out ++ [.spdmDigest (sha384 (Config.certificateChain lk))] } ∧
      (∀ off len, exec (.spdmGetCertificate lk off len) s = .next { s with
        out := s.out ++ [.spdmCertificate (((Config.certificateChain lk).drop off).take len)] }) ∧
      (∀ nonce, ∃ sig, sig.length = 12 ∧ exec (.spdmChallenge lk nonce) s = .next { s with
        out := s.out ++ [.spdmSignature nonce sig], free := s.free + 12 }) ∧
      (∀ i b, measurement s lk i = some b → exec (.spdmGetMeasurements lk i) s = .next { s with out := s.out ++ [.spdmMeasurement i b] }) ∧
      (∀ i, measurement s lk i = none → exec (.spdmGetMeasurements lk i) s = .next { s with out := s.out ++ [.spdmError] })) ∧
    (∃ t, exec .trayPowerCycle s = .next t ∧ t.tray.started = false ∧ t.tray.staged = [] ∧ slotOn t k = false ∧
      ∀ e, s.tray.staged = [e] → selectedBank t e.1 = e.2) ∧
    (∀ (c : Component) (set : List (Component × Bool)), (s.tray.active.find? fun l => l.any fun e => e.1 == c) = some set →
      ∃ t, exec (.healthCheckFail c) s = .next t ∧ t.tray.active = s.tray.active.filter (· != set) ∧ .rollback c ∈ t.out ∧
        ∀ b, set = [(c, b)] → selectedBank t c = b) ∧
    (s.tray.started = true →
      (∀ x m, exec (.pldmSensorRead x m) s = .next { s with out := s.out ++ [.sensor (sensorValue s x m)] }) ∧
      (∃ t, exec (.redfishStandby k) s = .next t ∧ (slotOrders t k).rack = .standby ∧ .response .ok ∈ t.out) ∧
      (∀ e ∈ [(RedfishReset.on, PState.run), (.resume, .run), (.suspend, .park), (.forceOff, .off), (.gracefulShutdown none, .off),
          (.gracefulShutdown (some 0), .off), (.gracefulShutdown (some 60), .off)],
        ∃ t, exec (.redfishProcessorReset k e.1 now) s = .next t ∧ (slotOrders t k).rack = e.2 ∧ .response .ok ∈ t.out) ∧
      exec (.redfishProcessorReset k .other now) s = .next { s with out := s.out ++ [.http400] } ∧
      (∀ g, 60 < g → exec (.redfishProcessorReset k (.gracefulShutdown (some g)) now) s = .next { s with out := s.out ++ [.http400] }) ∧
      exec (.redfishProcessorReset k .forceRestart now) s = exec (.resetPkg .rack k) s ∧
      exec (.redfishProcessorReset k .powerCycle now) s = exec (.coldCycle .rack k now) s ∧
      (∃ t, exec (.redfishChassisReset true now) s = .next t ∧ t.tray.started = false ∧ t.tray.staged = [] ∧ slotOn t k = false ∧
        (slotOn s k = true → ∃ c, t.tray.slot[k].lastCause = some c ∧ c.atMs = now)) ∧
      exec (.redfishChassisReset false now) s = .next { s with out := s.out ++ [.http400] } ∧
      (∀ c image sigOk staged whole, imageGood c image sigOk = false → exec (.firmwareUpdateRequest c image sigOk staged whole) s =
        .next { s with out := s.out ++ [.response .updateBad] }) ∧
      (∀ c image sigOk staged, imageGood c image sigOk = true → compReach s c = true →
        exec (.firmwareUpdateRequest c image sigOk staged false) s = .next s ∧
        (∃ t, exec (.firmwareUpdateRequest c image sigOk true true) s = .next t ∧
          t.tray.staged = without c s.tray.staged ++ [(c, !runningBank s c)] ∧ selectedBank t c = selectedBank s c ∧ t.tray.started = true ∧
          t.out.getLast? = some (.response .ok) ∧ t.mem = s.mem) ∧
        (∃ t, exec (.firmwareUpdateRequest c image sigOk false true) s = .next t ∧ t.tray.staged = s.tray.staged ∧
          selectedBank t c = (!runningBank s c) ∧ t.out.getLast? = some (.response .ok))))
end

