-- ==== Sys2Proof/Laws/Maps.lean ====
section
/-! SUPPORT. The laws of the keyed lists: a write keeps the canonical form, and a read after a write; and what each operation on device
memory does to its canonical form. -/

namespace Sys2Proof.Laws

open Sys2Proof Sys2Proof.Machine

variable {β : Type} [DecidableEq β]

theorem wfFrom_mono (d : β) {lo hi : Nat} (h : lo ≤ hi) (m : NMap β) (w : NMap.wfFrom d hi m = true) : NMap.wfFrom d lo m = true := by
  cases m with
  | nil => rfl
  | cons e m =>
    simp only [NMap.wfFrom, Bool.and_eq_true, decide_eq_true_eq] at w ⊢
    exact ⟨⟨by omega, w.1.2⟩, w.2⟩

/-- A write keeps the canonical form. -/
theorem mset_wfFrom (d : β) (m : NMap β) (k : Nat) (v : β) (lo : Nat) (hk : lo ≤ k) (w : NMap.wfFrom d lo m = true) :
    NMap.wfFrom d lo (mset d m k v) = true := by
  induction m generalizing lo with
  | nil =>
    unfold mset
    split
    · rfl
    · simp [NMap.wfFrom, *]
  | cons e m ih =>
    simp only [NMap.wfFrom, Bool.and_eq_true, decide_eq_true_eq] at w
    unfold mset
    split
    · split
      · simp [NMap.wfFrom, w]
      · rename_i h1 h2
        simp only [NMap.wfFrom, Bool.and_eq_true, decide_eq_true_eq]
        exact ⟨⟨hk, h2⟩, ⟨by omega, w.1.2⟩, w.2⟩
    · split
      · split
        · exact wfFrom_mono d (by omega) m w.2
        · rename_i h1 h2 h3
          simp only [NMap.wfFrom, Bool.and_eq_true, decide_eq_true_eq]
          exact ⟨⟨hk, h3⟩, h2 ▸ w.2⟩
      · simp only [NMap.wfFrom, Bool.and_eq_true, decide_eq_true_eq]
        exact ⟨w.1, ih (e.1 + 1) (by omega) w.2⟩

theorem mset_wf (d : β) (m : NMap β) (k : Nat) (v : β) (w : NMap.wf d m = true) : NMap.wf d (mset d m k v) = true :=
  mset_wfFrom d m k v 0 (Nat.zero_le k) w

theorem msetN_wf (d : β) (vs : List β) (m : NMap β) (k : Nat) (w : NMap.wf d m = true) : NMap.wf d (msetN d m k vs) = true := by
  induction vs generalizing m k with
  | nil => exact w
  | cons v vs ih => exact ih _ _ (mset_wf d m k v w)

theorem filter_wfFrom (d : β) (p : Nat × β → Bool) (m : NMap β) (lo : Nat) (w : NMap.wfFrom d lo m = true) :
    NMap.wfFrom d lo (m.filter p) = true := by
  induction m generalizing lo with
  | nil => rfl
  | cons e m ih =>
    simp only [NMap.wfFrom, Bool.and_eq_true, decide_eq_true_eq] at w
    rw [List.filter_cons]
    split
    · simp only [NMap.wfFrom, Bool.and_eq_true, decide_eq_true_eq]
      exact ⟨w.1, ih _ w.2⟩
    · exact wfFrom_mono d (by omega) _ (ih _ w.2)

/-- Reading back what was written (a listed key and any other). -/
theorem mget_mset_same (d : β) (m : NMap β) (k : Nat) (v : β) (lo : Nat) (w : NMap.wfFrom d lo m = true) :
    mget d (mset d m k v) k = v := by
  induction m generalizing lo with
  | nil =>
    unfold mset
    split <;> simp_all [mget]
  | cons e m ih =>
    simp only [NMap.wfFrom, Bool.and_eq_true, decide_eq_true_eq] at w
    have hm : ∀ (m : NMap β) lo, k < lo → NMap.wfFrom d lo m = true → mget d m k = d := by
      intro m
      induction m with
      | nil => intros; rfl
      | cons e m ih =>
        intro lo h1 h2
        simp only [NMap.wfFrom, Bool.and_eq_true, decide_eq_true_eq] at h2
        unfold mget
        rw [if_neg (by omega)]
        exact ih _ (by omega : k < e.1 + 1) h2.2
    unfold mset
    split
    · split
      · rename_i h1 h2
        unfold mget
        rw [if_neg (by omega), h2]
        exact hm m _ (by omega) w.2
      · simp [mget]
    · split
      · split
        · rename_i h1 h2 h3
          rw [h3]
          exact hm m _ (by omega) w.2
        · simp [mget]
      · rename_i h1 h2
        unfold mget
        rw [if_neg (by omega)]
        exact ih _ w.2

theorem mget_mset_other (d : β) (m : NMap β) (k j : Nat) (v : β) (h : j ≠ k) : mget d (mset d m k v) j = mget d m j := by
  induction m with
  | nil =>
    unfold mset
    split
    · rfl
    · simp [mget, Ne.symm h]
  | cons e m ih =>
    unfold mset
    split
    · split
      · rfl
      · simp [mget, Ne.symm h]
    · split
      · rename_i h1 h2
        split
        · simp [mget, ← h2, Ne.symm h]
        · simp [mget, ← h2, Ne.symm h]
      · simp only [mget]
        split
        · rfl
        · exact ih

/-! ## Device memory -/

theorem write_wf (m : Memory) (k : Nat) (b : Byte) (w : m.wf = true) : (m.write k b).wf = true := mset_wf _ _ _ _ w

theorem writeN_wf (m : Memory) (k : Nat) (bs : List Byte) (w : m.wf = true) : (m.writeN k bs).wf = true := msetN_wf _ _ _ _ w

theorem clear_wf (m : Memory) (lo hi : Nat) (w : m.wf = true) : (m.clear lo hi).wf = true := filter_wfFrom _ _ _ _ w

theorem setPoison_wf (m : Memory) (k : Nat) (on : Bool) (w : m.wf = true) : (m.setPoison k on).wf = true := w

theorem writeBurst_wf (m : Memory) (k b : Nat) (mask : BitVec 256) (data : List Byte) (p bad : Bool) (w : m.wf = true) :
    (writeBurst m k b mask data p bad).wf = true := by
  unfold writeBurst
  split
  · exact w
  · exact setPoison_wf _ _ _ (writeN_wf _ _ _ w)

theorem copyBurst_wf (bad : List Burst) (src dst : Nat) (m : Memory) (b : Nat) (w : m.wf = true) :
    (copyBurst bad src dst m b).wf = true := setPoison_wf _ _ _ (writeN_wf _ _ _ w)

theorem foldl_wf {α : Type} (f : Memory → α → Memory) (h : ∀ m x, m.wf = true → (f m x).wf = true) (xs : List α) (m : Memory)
    (w : m.wf = true) : (xs.foldl f m).wf = true := by
  induction xs generalizing m with
  | nil => exact w
  | cons x xs ih => exact ih _ (h m x w)

end Sys2Proof.Laws
end

