-- ==== Sys2Proof/Laws/State.lean ====
section
/-! SUPPORT. What each update of a field of State does to every field: its own changes, every other stays. -/

namespace Sys2Proof.Laws

open Sys2Proof.Machine

section modPending
variable (s : State) (f : List Instr → List Instr)
@[simp] theorem modPending_pending : (s.modPending f).pending = f s.pending := rfl
@[simp] theorem modPending_out : (s.modPending f).out = s.out := rfl
@[simp] theorem modPending_free : (s.modPending f).free = s.free := rfl
@[simp] theorem modPending_nextId : (s.modPending f).nextId = s.nextId := rfl
@[simp] theorem modPending_fuses : (s.modPending f).fuses = s.fuses := rfl
@[simp] theorem modPending_tmp : (s.modPending f).tmp = s.tmp := rfl
@[simp] theorem modPending_grade : (s.modPending f).grade = s.grade := rfl
@[simp] theorem modPending_sld : (s.modPending f).sld = s.sld := rfl
@[simp] theorem modPending_str : (s.modPending f).str = s.str := rfl
@[simp] theorem modPending_tile : (s.modPending f).tile = s.tile := rfl
@[simp] theorem modPending_grn : (s.modPending f).grn = s.grn := rfl
@[simp] theorem modPending_fab : (s.modPending f).fab = s.fab := rfl
@[simp] theorem modPending_mem : (s.modPending f).mem = s.mem := rfl
@[simp] theorem modPending_bwr : (s.modPending f).bwr = s.bwr := rfl
@[simp] theorem modPending_stp : (s.modPending f).stp = s.stp := rfl
@[simp] theorem modPending_srv : (s.modPending f).srv = s.srv := rfl
@[simp] theorem modPending_trl : (s.modPending f).trl = s.trl := rfl
@[simp] theorem modPending_rhl : (s.modPending f).rhl = s.rhl := rfl
@[simp] theorem modPending_pwr : (s.modPending f).pwr = s.pwr := rfl
@[simp] theorem modPending_rst : (s.modPending f).rst = s.rst := rfl
@[simp] theorem modPending_gln : (s.modPending f).gln = s.gln := rfl
@[simp] theorem modPending_flash : (s.modPending f).flash = s.flash := rfl
@[simp] theorem modPending_tel : (s.modPending f).tel = s.tel := rfl
@[simp] theorem modPending_hif : (s.modPending f).hif = s.hif := rfl
@[simp] theorem modPending_tray : (s.modPending f).tray = s.tray := rfl
end modPending

section modOut
variable (s : State) (f : List Output → List Output)
@[simp] theorem modOut_pending : (s.modOut f).pending = s.pending := rfl
@[simp] theorem modOut_out : (s.modOut f).out = f s.out := rfl
@[simp] theorem modOut_free : (s.modOut f).free = s.free := rfl
@[simp] theorem modOut_nextId : (s.modOut f).nextId = s.nextId := rfl
@[simp] theorem modOut_fuses : (s.modOut f).fuses = s.fuses := rfl
@[simp] theorem modOut_tmp : (s.modOut f).tmp = s.tmp := rfl
@[simp] theorem modOut_grade : (s.modOut f).grade = s.grade := rfl
@[simp] theorem modOut_sld : (s.modOut f).sld = s.sld := rfl
@[simp] theorem modOut_str : (s.modOut f).str = s.str := rfl
@[simp] theorem modOut_tile : (s.modOut f).tile = s.tile := rfl
@[simp] theorem modOut_grn : (s.modOut f).grn = s.grn := rfl
@[simp] theorem modOut_fab : (s.modOut f).fab = s.fab := rfl
@[simp] theorem modOut_mem : (s.modOut f).mem = s.mem := rfl
@[simp] theorem modOut_bwr : (s.modOut f).bwr = s.bwr := rfl
@[simp] theorem modOut_stp : (s.modOut f).stp = s.stp := rfl
@[simp] theorem modOut_srv : (s.modOut f).srv = s.srv := rfl
@[simp] theorem modOut_trl : (s.modOut f).trl = s.trl := rfl
@[simp] theorem modOut_rhl : (s.modOut f).rhl = s.rhl := rfl
@[simp] theorem modOut_pwr : (s.modOut f).pwr = s.pwr := rfl
@[simp] theorem modOut_rst : (s.modOut f).rst = s.rst := rfl
@[simp] theorem modOut_gln : (s.modOut f).gln = s.gln := rfl
@[simp] theorem modOut_flash : (s.modOut f).flash = s.flash := rfl
@[simp] theorem modOut_tel : (s.modOut f).tel = s.tel := rfl
@[simp] theorem modOut_hif : (s.modOut f).hif = s.hif := rfl
@[simp] theorem modOut_tray : (s.modOut f).tray = s.tray := rfl
end modOut

section modFree
variable (s : State) (f : Nat → Nat)
@[simp] theorem modFree_pending : (s.modFree f).pending = s.pending := rfl
@[simp] theorem modFree_out : (s.modFree f).out = s.out := rfl
@[simp] theorem modFree_free : (s.modFree f).free = f s.free := rfl
@[simp] theorem modFree_nextId : (s.modFree f).nextId = s.nextId := rfl
@[simp] theorem modFree_fuses : (s.modFree f).fuses = s.fuses := rfl
@[simp] theorem modFree_tmp : (s.modFree f).tmp = s.tmp := rfl
@[simp] theorem modFree_grade : (s.modFree f).grade = s.grade := rfl
@[simp] theorem modFree_sld : (s.modFree f).sld = s.sld := rfl
@[simp] theorem modFree_str : (s.modFree f).str = s.str := rfl
@[simp] theorem modFree_tile : (s.modFree f).tile = s.tile := rfl
@[simp] theorem modFree_grn : (s.modFree f).grn = s.grn := rfl
@[simp] theorem modFree_fab : (s.modFree f).fab = s.fab := rfl
@[simp] theorem modFree_mem : (s.modFree f).mem = s.mem := rfl
@[simp] theorem modFree_bwr : (s.modFree f).bwr = s.bwr := rfl
@[simp] theorem modFree_stp : (s.modFree f).stp = s.stp := rfl
@[simp] theorem modFree_srv : (s.modFree f).srv = s.srv := rfl
@[simp] theorem modFree_trl : (s.modFree f).trl = s.trl := rfl
@[simp] theorem modFree_rhl : (s.modFree f).rhl = s.rhl := rfl
@[simp] theorem modFree_pwr : (s.modFree f).pwr = s.pwr := rfl
@[simp] theorem modFree_rst : (s.modFree f).rst = s.rst := rfl
@[simp] theorem modFree_gln : (s.modFree f).gln = s.gln := rfl
@[simp] theorem modFree_flash : (s.modFree f).flash = s.flash := rfl
@[simp] theorem modFree_tel : (s.modFree f).tel = s.tel := rfl
@[simp] theorem modFree_hif : (s.modFree f).hif = s.hif := rfl
@[simp] theorem modFree_tray : (s.modFree f).tray = s.tray := rfl
end modFree

section modNextId
variable (s : State) (f : Nat → Nat)
@[simp] theorem modNextId_pending : (s.modNextId f).pending = s.pending := rfl
@[simp] theorem modNextId_out : (s.modNextId f).out = s.out := rfl
@[simp] theorem modNextId_free : (s.modNextId f).free = s.free := rfl
@[simp] theorem modNextId_nextId : (s.modNextId f).nextId = f s.nextId := rfl
@[simp] theorem modNextId_fuses : (s.modNextId f).fuses = s.fuses := rfl
@[simp] theorem modNextId_tmp : (s.modNextId f).tmp = s.tmp := rfl
@[simp] theorem modNextId_grade : (s.modNextId f).grade = s.grade := rfl
@[simp] theorem modNextId_sld : (s.modNextId f).sld = s.sld := rfl
@[simp] theorem modNextId_str : (s.modNextId f).str = s.str := rfl
@[simp] theorem modNextId_tile : (s.modNextId f).tile = s.tile := rfl
@[simp] theorem modNextId_grn : (s.modNextId f).grn = s.grn := rfl
@[simp] theorem modNextId_fab : (s.modNextId f).fab = s.fab := rfl
@[simp] theorem modNextId_mem : (s.modNextId f).mem = s.mem := rfl
@[simp] theorem modNextId_bwr : (s.modNextId f).bwr = s.bwr := rfl
@[simp] theorem modNextId_stp : (s.modNextId f).stp = s.stp := rfl
@[simp] theorem modNextId_srv : (s.modNextId f).srv = s.srv := rfl
@[simp] theorem modNextId_trl : (s.modNextId f).trl = s.trl := rfl
@[simp] theorem modNextId_rhl : (s.modNextId f).rhl = s.rhl := rfl
@[simp] theorem modNextId_pwr : (s.modNextId f).pwr = s.pwr := rfl
@[simp] theorem modNextId_rst : (s.modNextId f).rst = s.rst := rfl
@[simp] theorem modNextId_gln : (s.modNextId f).gln = s.gln := rfl
@[simp] theorem modNextId_flash : (s.modNextId f).flash = s.flash := rfl
@[simp] theorem modNextId_tel : (s.modNextId f).tel = s.tel := rfl
@[simp] theorem modNextId_hif : (s.modNextId f).hif = s.hif := rfl
@[simp] theorem modNextId_tray : (s.modNextId f).tray = s.tray := rfl
end modNextId

section modFuses
variable (s : State) (f : Fuses → Fuses)
@[simp] theorem modFuses_pending : (s.modFuses f).pending = s.pending := rfl
@[simp] theorem modFuses_out : (s.modFuses f).out = s.out := rfl
@[simp] theorem modFuses_free : (s.modFuses f).free = s.free := rfl
@[simp] theorem modFuses_nextId : (s.modFuses f).nextId = s.nextId := rfl
@[simp] theorem modFuses_fuses : (s.modFuses f).fuses = f s.fuses := rfl
@[simp] theorem modFuses_tmp : (s.modFuses f).tmp = s.tmp := rfl
@[simp] theorem modFuses_grade : (s.modFuses f).grade = s.grade := rfl
@[simp] theorem modFuses_sld : (s.modFuses f).sld = s.sld := rfl
@[simp] theorem modFuses_str : (s.modFuses f).str = s.str := rfl
@[simp] theorem modFuses_tile : (s.modFuses f).tile = s.tile := rfl
@[simp] theorem modFuses_grn : (s.modFuses f).grn = s.grn := rfl
@[simp] theorem modFuses_fab : (s.modFuses f).fab = s.fab := rfl
@[simp] theorem modFuses_mem : (s.modFuses f).mem = s.mem := rfl
@[simp] theorem modFuses_bwr : (s.modFuses f).bwr = s.bwr := rfl
@[simp] theorem modFuses_stp : (s.modFuses f).stp = s.stp := rfl
@[simp] theorem modFuses_srv : (s.modFuses f).srv = s.srv := rfl
@[simp] theorem modFuses_trl : (s.modFuses f).trl = s.trl := rfl
@[simp] theorem modFuses_rhl : (s.modFuses f).rhl = s.rhl := rfl
@[simp] theorem modFuses_pwr : (s.modFuses f).pwr = s.pwr := rfl
@[simp] theorem modFuses_rst : (s.modFuses f).rst = s.rst := rfl
@[simp] theorem modFuses_gln : (s.modFuses f).gln = s.gln := rfl
@[simp] theorem modFuses_flash : (s.modFuses f).flash = s.flash := rfl
@[simp] theorem modFuses_tel : (s.modFuses f).tel = s.tel := rfl
@[simp] theorem modFuses_hif : (s.modFuses f).hif = s.hif := rfl
@[simp] theorem modFuses_tray : (s.modFuses f).tray = s.tray := rfl
end modFuses

section modTmp
variable (s : State) (f : Tempo → Tempo)
@[simp] theorem modTmp_pending : (s.modTmp f).pending = s.pending := rfl
@[simp] theorem modTmp_out : (s.modTmp f).out = s.out := rfl
@[simp] theorem modTmp_free : (s.modTmp f).free = s.free := rfl
@[simp] theorem modTmp_nextId : (s.modTmp f).nextId = s.nextId := rfl
@[simp] theorem modTmp_fuses : (s.modTmp f).fuses = s.fuses := rfl
@[simp] theorem modTmp_tmp : (s.modTmp f).tmp = f s.tmp := rfl
@[simp] theorem modTmp_grade : (s.modTmp f).grade = s.grade := rfl
@[simp] theorem modTmp_sld : (s.modTmp f).sld = s.sld := rfl
@[simp] theorem modTmp_str : (s.modTmp f).str = s.str := rfl
@[simp] theorem modTmp_tile : (s.modTmp f).tile = s.tile := rfl
@[simp] theorem modTmp_grn : (s.modTmp f).grn = s.grn := rfl
@[simp] theorem modTmp_fab : (s.modTmp f).fab = s.fab := rfl
@[simp] theorem modTmp_mem : (s.modTmp f).mem = s.mem := rfl
@[simp] theorem modTmp_bwr : (s.modTmp f).bwr = s.bwr := rfl
@[simp] theorem modTmp_stp : (s.modTmp f).stp = s.stp := rfl
@[simp] theorem modTmp_srv : (s.modTmp f).srv = s.srv := rfl
@[simp] theorem modTmp_trl : (s.modTmp f).trl = s.trl := rfl
@[simp] theorem modTmp_rhl : (s.modTmp f).rhl = s.rhl := rfl
@[simp] theorem modTmp_pwr : (s.modTmp f).pwr = s.pwr := rfl
@[simp] theorem modTmp_rst : (s.modTmp f).rst = s.rst := rfl
@[simp] theorem modTmp_gln : (s.modTmp f).gln = s.gln := rfl
@[simp] theorem modTmp_flash : (s.modTmp f).flash = s.flash := rfl
@[simp] theorem modTmp_tel : (s.modTmp f).tel = s.tel := rfl
@[simp] theorem modTmp_hif : (s.modTmp f).hif = s.hif := rfl
@[simp] theorem modTmp_tray : (s.modTmp f).tray = s.tray := rfl
end modTmp

section modGrade
variable (s : State) (f : Grades → Grades)
@[simp] theorem modGrade_pending : (s.modGrade f).pending = s.pending := rfl
@[simp] theorem modGrade_out : (s.modGrade f).out = s.out := rfl
@[simp] theorem modGrade_free : (s.modGrade f).free = s.free := rfl
@[simp] theorem modGrade_nextId : (s.modGrade f).nextId = s.nextId := rfl
@[simp] theorem modGrade_fuses : (s.modGrade f).fuses = s.fuses := rfl
@[simp] theorem modGrade_tmp : (s.modGrade f).tmp = s.tmp := rfl
@[simp] theorem modGrade_grade : (s.modGrade f).grade = f s.grade := rfl
@[simp] theorem modGrade_sld : (s.modGrade f).sld = s.sld := rfl
@[simp] theorem modGrade_str : (s.modGrade f).str = s.str := rfl
@[simp] theorem modGrade_tile : (s.modGrade f).tile = s.tile := rfl
@[simp] theorem modGrade_grn : (s.modGrade f).grn = s.grn := rfl
@[simp] theorem modGrade_fab : (s.modGrade f).fab = s.fab := rfl
@[simp] theorem modGrade_mem : (s.modGrade f).mem = s.mem := rfl
@[simp] theorem modGrade_bwr : (s.modGrade f).bwr = s.bwr := rfl
@[simp] theorem modGrade_stp : (s.modGrade f).stp = s.stp := rfl
@[simp] theorem modGrade_srv : (s.modGrade f).srv = s.srv := rfl
@[simp] theorem modGrade_trl : (s.modGrade f).trl = s.trl := rfl
@[simp] theorem modGrade_rhl : (s.modGrade f).rhl = s.rhl := rfl
@[simp] theorem modGrade_pwr : (s.modGrade f).pwr = s.pwr := rfl
@[simp] theorem modGrade_rst : (s.modGrade f).rst = s.rst := rfl
@[simp] theorem modGrade_gln : (s.modGrade f).gln = s.gln := rfl
@[simp] theorem modGrade_flash : (s.modGrade f).flash = s.flash := rfl
@[simp] theorem modGrade_tel : (s.modGrade f).tel = s.tel := rfl
@[simp] theorem modGrade_hif : (s.modGrade f).hif = s.hif := rfl
@[simp] theorem modGrade_tray : (s.modGrade f).tray = s.tray := rfl
end modGrade

section modSld
variable (s : State) (f : Loader → Loader)
@[simp] theorem modSld_pending : (s.modSld f).pending = s.pending := rfl
@[simp] theorem modSld_out : (s.modSld f).out = s.out := rfl
@[simp] theorem modSld_free : (s.modSld f).free = s.free := rfl
@[simp] theorem modSld_nextId : (s.modSld f).nextId = s.nextId := rfl
@[simp] theorem modSld_fuses : (s.modSld f).fuses = s.fuses := rfl
@[simp] theorem modSld_tmp : (s.modSld f).tmp = s.tmp := rfl
@[simp] theorem modSld_grade : (s.modSld f).grade = s.grade := rfl
@[simp] theorem modSld_sld : (s.modSld f).sld = f s.sld := rfl
@[simp] theorem modSld_str : (s.modSld f).str = s.str := rfl
@[simp] theorem modSld_tile : (s.modSld f).tile = s.tile := rfl
@[simp] theorem modSld_grn : (s.modSld f).grn = s.grn := rfl
@[simp] theorem modSld_fab : (s.modSld f).fab = s.fab := rfl
@[simp] theorem modSld_mem : (s.modSld f).mem = s.mem := rfl
@[simp] theorem modSld_bwr : (s.modSld f).bwr = s.bwr := rfl
@[simp] theorem modSld_stp : (s.modSld f).stp = s.stp := rfl
@[simp] theorem modSld_srv : (s.modSld f).srv = s.srv := rfl
@[simp] theorem modSld_trl : (s.modSld f).trl = s.trl := rfl
@[simp] theorem modSld_rhl : (s.modSld f).rhl = s.rhl := rfl
@[simp] theorem modSld_pwr : (s.modSld f).pwr = s.pwr := rfl
@[simp] theorem modSld_rst : (s.modSld f).rst = s.rst := rfl
@[simp] theorem modSld_gln : (s.modSld f).gln = s.gln := rfl
@[simp] theorem modSld_flash : (s.modSld f).flash = s.flash := rfl
@[simp] theorem modSld_tel : (s.modSld f).tel = s.tel := rfl
@[simp] theorem modSld_hif : (s.modSld f).hif = s.hif := rfl
@[simp] theorem modSld_tray : (s.modSld f).tray = s.tray := rfl
end modSld

section modStr
variable (s : State) (f : Option Structure → Option Structure)
@[simp] theorem modStr_pending : (s.modStr f).pending = s.pending := rfl
@[simp] theorem modStr_out : (s.modStr f).out = s.out := rfl
@[simp] theorem modStr_free : (s.modStr f).free = s.free := rfl
@[simp] theorem modStr_nextId : (s.modStr f).nextId = s.nextId := rfl
@[simp] theorem modStr_fuses : (s.modStr f).fuses = s.fuses := rfl
@[simp] theorem modStr_tmp : (s.modStr f).tmp = s.tmp := rfl
@[simp] theorem modStr_grade : (s.modStr f).grade = s.grade := rfl
@[simp] theorem modStr_sld : (s.modStr f).sld = s.sld := rfl
@[simp] theorem modStr_str : (s.modStr f).str = f s.str := rfl
@[simp] theorem modStr_tile : (s.modStr f).tile = s.tile := rfl
@[simp] theorem modStr_grn : (s.modStr f).grn = s.grn := rfl
@[simp] theorem modStr_fab : (s.modStr f).fab = s.fab := rfl
@[simp] theorem modStr_mem : (s.modStr f).mem = s.mem := rfl
@[simp] theorem modStr_bwr : (s.modStr f).bwr = s.bwr := rfl
@[simp] theorem modStr_stp : (s.modStr f).stp = s.stp := rfl
@[simp] theorem modStr_srv : (s.modStr f).srv = s.srv := rfl
@[simp] theorem modStr_trl : (s.modStr f).trl = s.trl := rfl
@[simp] theorem modStr_rhl : (s.modStr f).rhl = s.rhl := rfl
@[simp] theorem modStr_pwr : (s.modStr f).pwr = s.pwr := rfl
@[simp] theorem modStr_rst : (s.modStr f).rst = s.rst := rfl
@[simp] theorem modStr_gln : (s.modStr f).gln = s.gln := rfl
@[simp] theorem modStr_flash : (s.modStr f).flash = s.flash := rfl
@[simp] theorem modStr_tel : (s.modStr f).tel = s.tel := rfl
@[simp] theorem modStr_hif : (s.modStr f).hif = s.hif := rfl
@[simp] theorem modStr_tray : (s.modStr f).tray = s.tray := rfl
end modStr

section modTile
variable (s : State) (f : Tiles → Tiles)
@[simp] theorem modTile_pending : (s.modTile f).pending = s.pending := rfl
@[simp] theorem modTile_out : (s.modTile f).out = s.out := rfl
@[simp] theorem modTile_free : (s.modTile f).free = s.free := rfl
@[simp] theorem modTile_nextId : (s.modTile f).nextId = s.nextId := rfl
@[simp] theorem modTile_fuses : (s.modTile f).fuses = s.fuses := rfl
@[simp] theorem modTile_tmp : (s.modTile f).tmp = s.tmp := rfl
@[simp] theorem modTile_grade : (s.modTile f).grade = s.grade := rfl
@[simp] theorem modTile_sld : (s.modTile f).sld = s.sld := rfl
@[simp] theorem modTile_str : (s.modTile f).str = s.str := rfl
@[simp] theorem modTile_tile : (s.modTile f).tile = f s.tile := rfl
@[simp] theorem modTile_grn : (s.modTile f).grn = s.grn := rfl
@[simp] theorem modTile_fab : (s.modTile f).fab = s.fab := rfl
@[simp] theorem modTile_mem : (s.modTile f).mem = s.mem := rfl
@[simp] theorem modTile_bwr : (s.modTile f).bwr = s.bwr := rfl
@[simp] theorem modTile_stp : (s.modTile f).stp = s.stp := rfl
@[simp] theorem modTile_srv : (s.modTile f).srv = s.srv := rfl
@[simp] theorem modTile_trl : (s.modTile f).trl = s.trl := rfl
@[simp] theorem modTile_rhl : (s.modTile f).rhl = s.rhl := rfl
@[simp] theorem modTile_pwr : (s.modTile f).pwr = s.pwr := rfl
@[simp] theorem modTile_rst : (s.modTile f).rst = s.rst := rfl
@[simp] theorem modTile_gln : (s.modTile f).gln = s.gln := rfl
@[simp] theorem modTile_flash : (s.modTile f).flash = s.flash := rfl
@[simp] theorem modTile_tel : (s.modTile f).tel = s.tel := rfl
@[simp] theorem modTile_hif : (s.modTile f).hif = s.hif := rfl
@[simp] theorem modTile_tray : (s.modTile f).tray = s.tray := rfl
end modTile

section modGrn
variable (s : State) (f : Granary → Granary)
@[simp] theorem modGrn_pending : (s.modGrn f).pending = s.pending := rfl
@[simp] theorem modGrn_out : (s.modGrn f).out = s.out := rfl
@[simp] theorem modGrn_free : (s.modGrn f).free = s.free := rfl
@[simp] theorem modGrn_nextId : (s.modGrn f).nextId = s.nextId := rfl
@[simp] theorem modGrn_fuses : (s.modGrn f).fuses = s.fuses := rfl
@[simp] theorem modGrn_tmp : (s.modGrn f).tmp = s.tmp := rfl
@[simp] theorem modGrn_grade : (s.modGrn f).grade = s.grade := rfl
@[simp] theorem modGrn_sld : (s.modGrn f).sld = s.sld := rfl
@[simp] theorem modGrn_str : (s.modGrn f).str = s.str := rfl
@[simp] theorem modGrn_tile : (s.modGrn f).tile = s.tile := rfl
@[simp] theorem modGrn_grn : (s.modGrn f).grn = f s.grn := rfl
@[simp] theorem modGrn_fab : (s.modGrn f).fab = s.fab := rfl
@[simp] theorem modGrn_mem : (s.modGrn f).mem = s.mem := rfl
@[simp] theorem modGrn_bwr : (s.modGrn f).bwr = s.bwr := rfl
@[simp] theorem modGrn_stp : (s.modGrn f).stp = s.stp := rfl
@[simp] theorem modGrn_srv : (s.modGrn f).srv = s.srv := rfl
@[simp] theorem modGrn_trl : (s.modGrn f).trl = s.trl := rfl
@[simp] theorem modGrn_rhl : (s.modGrn f).rhl = s.rhl := rfl
@[simp] theorem modGrn_pwr : (s.modGrn f).pwr = s.pwr := rfl
@[simp] theorem modGrn_rst : (s.modGrn f).rst = s.rst := rfl
@[simp] theorem modGrn_gln : (s.modGrn f).gln = s.gln := rfl
@[simp] theorem modGrn_flash : (s.modGrn f).flash = s.flash := rfl
@[simp] theorem modGrn_tel : (s.modGrn f).tel = s.tel := rfl
@[simp] theorem modGrn_hif : (s.modGrn f).hif = s.hif := rfl
@[simp] theorem modGrn_tray : (s.modGrn f).tray = s.tray := rfl
end modGrn

section modFab
variable (s : State) (f : Fabric → Fabric)
@[simp] theorem modFab_pending : (s.modFab f).pending = s.pending := rfl
@[simp] theorem modFab_out : (s.modFab f).out = s.out := rfl
@[simp] theorem modFab_free : (s.modFab f).free = s.free := rfl
@[simp] theorem modFab_nextId : (s.modFab f).nextId = s.nextId := rfl
@[simp] theorem modFab_fuses : (s.modFab f).fuses = s.fuses := rfl
@[simp] theorem modFab_tmp : (s.modFab f).tmp = s.tmp := rfl
@[simp] theorem modFab_grade : (s.modFab f).grade = s.grade := rfl
@[simp] theorem modFab_sld : (s.modFab f).sld = s.sld := rfl
@[simp] theorem modFab_str : (s.modFab f).str = s.str := rfl
@[simp] theorem modFab_tile : (s.modFab f).tile = s.tile := rfl
@[simp] theorem modFab_grn : (s.modFab f).grn = s.grn := rfl
@[simp] theorem modFab_fab : (s.modFab f).fab = f s.fab := rfl
@[simp] theorem modFab_mem : (s.modFab f).mem = s.mem := rfl
@[simp] theorem modFab_bwr : (s.modFab f).bwr = s.bwr := rfl
@[simp] theorem modFab_stp : (s.modFab f).stp = s.stp := rfl
@[simp] theorem modFab_srv : (s.modFab f).srv = s.srv := rfl
@[simp] theorem modFab_trl : (s.modFab f).trl = s.trl := rfl
@[simp] theorem modFab_rhl : (s.modFab f).rhl = s.rhl := rfl
@[simp] theorem modFab_pwr : (s.modFab f).pwr = s.pwr := rfl
@[simp] theorem modFab_rst : (s.modFab f).rst = s.rst := rfl
@[simp] theorem modFab_gln : (s.modFab f).gln = s.gln := rfl
@[simp] theorem modFab_flash : (s.modFab f).flash = s.flash := rfl
@[simp] theorem modFab_tel : (s.modFab f).tel = s.tel := rfl
@[simp] theorem modFab_hif : (s.modFab f).hif = s.hif := rfl
@[simp] theorem modFab_tray : (s.modFab f).tray = s.tray := rfl
end modFab

section modMem
variable (s : State) (f : Memory → Memory)
@[simp] theorem modMem_pending : (s.modMem f).pending = s.pending := rfl
@[simp] theorem modMem_out : (s.modMem f).out = s.out := rfl
@[simp] theorem modMem_free : (s.modMem f).free = s.free := rfl
@[simp] theorem modMem_nextId : (s.modMem f).nextId = s.nextId := rfl
@[simp] theorem modMem_fuses : (s.modMem f).fuses = s.fuses := rfl
@[simp] theorem modMem_tmp : (s.modMem f).tmp = s.tmp := rfl
@[simp] theorem modMem_grade : (s.modMem f).grade = s.grade := rfl
@[simp] theorem modMem_sld : (s.modMem f).sld = s.sld := rfl
@[simp] theorem modMem_str : (s.modMem f).str = s.str := rfl
@[simp] theorem modMem_tile : (s.modMem f).tile = s.tile := rfl
@[simp] theorem modMem_grn : (s.modMem f).grn = s.grn := rfl
@[simp] theorem modMem_fab : (s.modMem f).fab = s.fab := rfl
@[simp] theorem modMem_mem : (s.modMem f).mem = f s.mem := rfl
@[simp] theorem modMem_bwr : (s.modMem f).bwr = s.bwr := rfl
@[simp] theorem modMem_stp : (s.modMem f).stp = s.stp := rfl
@[simp] theorem modMem_srv : (s.modMem f).srv = s.srv := rfl
@[simp] theorem modMem_trl : (s.modMem f).trl = s.trl := rfl
@[simp] theorem modMem_rhl : (s.modMem f).rhl = s.rhl := rfl
@[simp] theorem modMem_pwr : (s.modMem f).pwr = s.pwr := rfl
@[simp] theorem modMem_rst : (s.modMem f).rst = s.rst := rfl
@[simp] theorem modMem_gln : (s.modMem f).gln = s.gln := rfl
@[simp] theorem modMem_flash : (s.modMem f).flash = s.flash := rfl
@[simp] theorem modMem_tel : (s.modMem f).tel = s.tel := rfl
@[simp] theorem modMem_hif : (s.modMem f).hif = s.hif := rfl
@[simp] theorem modMem_tray : (s.modMem f).tray = s.tray := rfl
end modMem

section modBwr
variable (s : State) (f : Bwr → Bwr)
@[simp] theorem modBwr_pending : (s.modBwr f).pending = s.pending := rfl
@[simp] theorem modBwr_out : (s.modBwr f).out = s.out := rfl
@[simp] theorem modBwr_free : (s.modBwr f).free = s.free := rfl
@[simp] theorem modBwr_nextId : (s.modBwr f).nextId = s.nextId := rfl
@[simp] theorem modBwr_fuses : (s.modBwr f).fuses = s.fuses := rfl
@[simp] theorem modBwr_tmp : (s.modBwr f).tmp = s.tmp := rfl
@[simp] theorem modBwr_grade : (s.modBwr f).grade = s.grade := rfl
@[simp] theorem modBwr_sld : (s.modBwr f).sld = s.sld := rfl
@[simp] theorem modBwr_str : (s.modBwr f).str = s.str := rfl
@[simp] theorem modBwr_tile : (s.modBwr f).tile = s.tile := rfl
@[simp] theorem modBwr_grn : (s.modBwr f).grn = s.grn := rfl
@[simp] theorem modBwr_fab : (s.modBwr f).fab = s.fab := rfl
@[simp] theorem modBwr_mem : (s.modBwr f).mem = s.mem := rfl
@[simp] theorem modBwr_bwr : (s.modBwr f).bwr = f s.bwr := rfl
@[simp] theorem modBwr_stp : (s.modBwr f).stp = s.stp := rfl
@[simp] theorem modBwr_srv : (s.modBwr f).srv = s.srv := rfl
@[simp] theorem modBwr_trl : (s.modBwr f).trl = s.trl := rfl
@[simp] theorem modBwr_rhl : (s.modBwr f).rhl = s.rhl := rfl
@[simp] theorem modBwr_pwr : (s.modBwr f).pwr = s.pwr := rfl
@[simp] theorem modBwr_rst : (s.modBwr f).rst = s.rst := rfl
@[simp] theorem modBwr_gln : (s.modBwr f).gln = s.gln := rfl
@[simp] theorem modBwr_flash : (s.modBwr f).flash = s.flash := rfl
@[simp] theorem modBwr_tel : (s.modBwr f).tel = s.tel := rfl
@[simp] theorem modBwr_hif : (s.modBwr f).hif = s.hif := rfl
@[simp] theorem modBwr_tray : (s.modBwr f).tray = s.tray := rfl
end modBwr

section modStp
variable (s : State) (f : Steps → Steps)
@[simp] theorem modStp_pending : (s.modStp f).pending = s.pending := rfl
@[simp] theorem modStp_out : (s.modStp f).out = s.out := rfl
@[simp] theorem modStp_free : (s.modStp f).free = s.free := rfl
@[simp] theorem modStp_nextId : (s.modStp f).nextId = s.nextId := rfl
@[simp] theorem modStp_fuses : (s.modStp f).fuses = s.fuses := rfl
@[simp] theorem modStp_tmp : (s.modStp f).tmp = s.tmp := rfl
@[simp] theorem modStp_grade : (s.modStp f).grade = s.grade := rfl
@[simp] theorem modStp_sld : (s.modStp f).sld = s.sld := rfl
@[simp] theorem modStp_str : (s.modStp f).str = s.str := rfl
@[simp] theorem modStp_tile : (s.modStp f).tile = s.tile := rfl
@[simp] theorem modStp_grn : (s.modStp f).grn = s.grn := rfl
@[simp] theorem modStp_fab : (s.modStp f).fab = s.fab := rfl
@[simp] theorem modStp_mem : (s.modStp f).mem = s.mem := rfl
@[simp] theorem modStp_bwr : (s.modStp f).bwr = s.bwr := rfl
@[simp] theorem modStp_stp : (s.modStp f).stp = f s.stp := rfl
@[simp] theorem modStp_srv : (s.modStp f).srv = s.srv := rfl
@[simp] theorem modStp_trl : (s.modStp f).trl = s.trl := rfl
@[simp] theorem modStp_rhl : (s.modStp f).rhl = s.rhl := rfl
@[simp] theorem modStp_pwr : (s.modStp f).pwr = s.pwr := rfl
@[simp] theorem modStp_rst : (s.modStp f).rst = s.rst := rfl
@[simp] theorem modStp_gln : (s.modStp f).gln = s.gln := rfl
@[simp] theorem modStp_flash : (s.modStp f).flash = s.flash := rfl
@[simp] theorem modStp_tel : (s.modStp f).tel = s.tel := rfl
@[simp] theorem modStp_hif : (s.modStp f).hif = s.hif := rfl
@[simp] theorem modStp_tray : (s.modStp f).tray = s.tray := rfl
end modStp

section modSrv
variable (s : State) (f : Serving → Serving)
@[simp] theorem modSrv_pending : (s.modSrv f).pending = s.pending := rfl
@[simp] theorem modSrv_out : (s.modSrv f).out = s.out := rfl
@[simp] theorem modSrv_free : (s.modSrv f).free = s.free := rfl
@[simp] theorem modSrv_nextId : (s.modSrv f).nextId = s.nextId := rfl
@[simp] theorem modSrv_fuses : (s.modSrv f).fuses = s.fuses := rfl
@[simp] theorem modSrv_tmp : (s.modSrv f).tmp = s.tmp := rfl
@[simp] theorem modSrv_grade : (s.modSrv f).grade = s.grade := rfl
@[simp] theorem modSrv_sld : (s.modSrv f).sld = s.sld := rfl
@[simp] theorem modSrv_str : (s.modSrv f).str = s.str := rfl
@[simp] theorem modSrv_tile : (s.modSrv f).tile = s.tile := rfl
@[simp] theorem modSrv_grn : (s.modSrv f).grn = s.grn := rfl
@[simp] theorem modSrv_fab : (s.modSrv f).fab = s.fab := rfl
@[simp] theorem modSrv_mem : (s.modSrv f).mem = s.mem := rfl
@[simp] theorem modSrv_bwr : (s.modSrv f).bwr = s.bwr := rfl
@[simp] theorem modSrv_stp : (s.modSrv f).stp = s.stp := rfl
@[simp] theorem modSrv_srv : (s.modSrv f).srv = f s.srv := rfl
@[simp] theorem modSrv_trl : (s.modSrv f).trl = s.trl := rfl
@[simp] theorem modSrv_rhl : (s.modSrv f).rhl = s.rhl := rfl
@[simp] theorem modSrv_pwr : (s.modSrv f).pwr = s.pwr := rfl
@[simp] theorem modSrv_rst : (s.modSrv f).rst = s.rst := rfl
@[simp] theorem modSrv_gln : (s.modSrv f).gln = s.gln := rfl
@[simp] theorem modSrv_flash : (s.modSrv f).flash = s.flash := rfl
@[simp] theorem modSrv_tel : (s.modSrv f).tel = s.tel := rfl
@[simp] theorem modSrv_hif : (s.modSrv f).hif = s.hif := rfl
@[simp] theorem modSrv_tray : (s.modSrv f).tray = s.tray := rfl
end modSrv

section modTrl
variable (s : State) (f : Trellis → Trellis)
@[simp] theorem modTrl_pending : (s.modTrl f).pending = s.pending := rfl
@[simp] theorem modTrl_out : (s.modTrl f).out = s.out := rfl
@[simp] theorem modTrl_free : (s.modTrl f).free = s.free := rfl
@[simp] theorem modTrl_nextId : (s.modTrl f).nextId = s.nextId := rfl
@[simp] theorem modTrl_fuses : (s.modTrl f).fuses = s.fuses := rfl
@[simp] theorem modTrl_tmp : (s.modTrl f).tmp = s.tmp := rfl
@[simp] theorem modTrl_grade : (s.modTrl f).grade = s.grade := rfl
@[simp] theorem modTrl_sld : (s.modTrl f).sld = s.sld := rfl
@[simp] theorem modTrl_str : (s.modTrl f).str = s.str := rfl
@[simp] theorem modTrl_tile : (s.modTrl f).tile = s.tile := rfl
@[simp] theorem modTrl_grn : (s.modTrl f).grn = s.grn := rfl
@[simp] theorem modTrl_fab : (s.modTrl f).fab = s.fab := rfl
@[simp] theorem modTrl_mem : (s.modTrl f).mem = s.mem := rfl
@[simp] theorem modTrl_bwr : (s.modTrl f).bwr = s.bwr := rfl
@[simp] theorem modTrl_stp : (s.modTrl f).stp = s.stp := rfl
@[simp] theorem modTrl_srv : (s.modTrl f).srv = s.srv := rfl
@[simp] theorem modTrl_trl : (s.modTrl f).trl = f s.trl := rfl
@[simp] theorem modTrl_rhl : (s.modTrl f).rhl = s.rhl := rfl
@[simp] theorem modTrl_pwr : (s.modTrl f).pwr = s.pwr := rfl
@[simp] theorem modTrl_rst : (s.modTrl f).rst = s.rst := rfl
@[simp] theorem modTrl_gln : (s.modTrl f).gln = s.gln := rfl
@[simp] theorem modTrl_flash : (s.modTrl f).flash = s.flash := rfl
@[simp] theorem modTrl_tel : (s.modTrl f).tel = s.tel := rfl
@[simp] theorem modTrl_hif : (s.modTrl f).hif = s.hif := rfl
@[simp] theorem modTrl_tray : (s.modTrl f).tray = s.tray := rfl
end modTrl

section modRhl
variable (s : State) (f : Ring → Ring)
@[simp] theorem modRhl_pending : (s.modRhl f).pending = s.pending := rfl
@[simp] theorem modRhl_out : (s.modRhl f).out = s.out := rfl
@[simp] theorem modRhl_free : (s.modRhl f).free = s.free := rfl
@[simp] theorem modRhl_nextId : (s.modRhl f).nextId = s.nextId := rfl
@[simp] theorem modRhl_fuses : (s.modRhl f).fuses = s.fuses := rfl
@[simp] theorem modRhl_tmp : (s.modRhl f).tmp = s.tmp := rfl
@[simp] theorem modRhl_grade : (s.modRhl f).grade = s.grade := rfl
@[simp] theorem modRhl_sld : (s.modRhl f).sld = s.sld := rfl
@[simp] theorem modRhl_str : (s.modRhl f).str = s.str := rfl
@[simp] theorem modRhl_tile : (s.modRhl f).tile = s.tile := rfl
@[simp] theorem modRhl_grn : (s.modRhl f).grn = s.grn := rfl
@[simp] theorem modRhl_fab : (s.modRhl f).fab = s.fab := rfl
@[simp] theorem modRhl_mem : (s.modRhl f).mem = s.mem := rfl
@[simp] theorem modRhl_bwr : (s.modRhl f).bwr = s.bwr := rfl
@[simp] theorem modRhl_stp : (s.modRhl f).stp = s.stp := rfl
@[simp] theorem modRhl_srv : (s.modRhl f).srv = s.srv := rfl
@[simp] theorem modRhl_trl : (s.modRhl f).trl = s.trl := rfl
@[simp] theorem modRhl_rhl : (s.modRhl f).rhl = f s.rhl := rfl
@[simp] theorem modRhl_pwr : (s.modRhl f).pwr = s.pwr := rfl
@[simp] theorem modRhl_rst : (s.modRhl f).rst = s.rst := rfl
@[simp] theorem modRhl_gln : (s.modRhl f).gln = s.gln := rfl
@[simp] theorem modRhl_flash : (s.modRhl f).flash = s.flash := rfl
@[simp] theorem modRhl_tel : (s.modRhl f).tel = s.tel := rfl
@[simp] theorem modRhl_hif : (s.modRhl f).hif = s.hif := rfl
@[simp] theorem modRhl_tray : (s.modRhl f).tray = s.tray := rfl
end modRhl

section modPwr
variable (s : State) (f : Power → Power)
@[simp] theorem modPwr_pending : (s.modPwr f).pending = s.pending := rfl
@[simp] theorem modPwr_out : (s.modPwr f).out = s.out := rfl
@[simp] theorem modPwr_free : (s.modPwr f).free = s.free := rfl
@[simp] theorem modPwr_nextId : (s.modPwr f).nextId = s.nextId := rfl
@[simp] theorem modPwr_fuses : (s.modPwr f).fuses = s.fuses := rfl
@[simp] theorem modPwr_tmp : (s.modPwr f).tmp = s.tmp := rfl
@[simp] theorem modPwr_grade : (s.modPwr f).grade = s.grade := rfl
@[simp] theorem modPwr_sld : (s.modPwr f).sld = s.sld := rfl
@[simp] theorem modPwr_str : (s.modPwr f).str = s.str := rfl
@[simp] theorem modPwr_tile : (s.modPwr f).tile = s.tile := rfl
@[simp] theorem modPwr_grn : (s.modPwr f).grn = s.grn := rfl
@[simp] theorem modPwr_fab : (s.modPwr f).fab = s.fab := rfl
@[simp] theorem modPwr_mem : (s.modPwr f).mem = s.mem := rfl
@[simp] theorem modPwr_bwr : (s.modPwr f).bwr = s.bwr := rfl
@[simp] theorem modPwr_stp : (s.modPwr f).stp = s.stp := rfl
@[simp] theorem modPwr_srv : (s.modPwr f).srv = s.srv := rfl
@[simp] theorem modPwr_trl : (s.modPwr f).trl = s.trl := rfl
@[simp] theorem modPwr_rhl : (s.modPwr f).rhl = s.rhl := rfl
@[simp] theorem modPwr_pwr : (s.modPwr f).pwr = f s.pwr := rfl
@[simp] theorem modPwr_rst : (s.modPwr f).rst = s.rst := rfl
@[simp] theorem modPwr_gln : (s.modPwr f).gln = s.gln := rfl
@[simp] theorem modPwr_flash : (s.modPwr f).flash = s.flash := rfl
@[simp] theorem modPwr_tel : (s.modPwr f).tel = s.tel := rfl
@[simp] theorem modPwr_hif : (s.modPwr f).hif = s.hif := rfl
@[simp] theorem modPwr_tray : (s.modPwr f).tray = s.tray := rfl
end modPwr

section modRst
variable (s : State) (f : Reset → Reset)
@[simp] theorem modRst_pending : (s.modRst f).pending = s.pending := rfl
@[simp] theorem modRst_out : (s.modRst f).out = s.out := rfl
@[simp] theorem modRst_free : (s.modRst f).free = s.free := rfl
@[simp] theorem modRst_nextId : (s.modRst f).nextId = s.nextId := rfl
@[simp] theorem modRst_fuses : (s.modRst f).fuses = s.fuses := rfl
@[simp] theorem modRst_tmp : (s.modRst f).tmp = s.tmp := rfl
@[simp] theorem modRst_grade : (s.modRst f).grade = s.grade := rfl
@[simp] theorem modRst_sld : (s.modRst f).sld = s.sld := rfl
@[simp] theorem modRst_str : (s.modRst f).str = s.str := rfl
@[simp] theorem modRst_tile : (s.modRst f).tile = s.tile := rfl
@[simp] theorem modRst_grn : (s.modRst f).grn = s.grn := rfl
@[simp] theorem modRst_fab : (s.modRst f).fab = s.fab := rfl
@[simp] theorem modRst_mem : (s.modRst f).mem = s.mem := rfl
@[simp] theorem modRst_bwr : (s.modRst f).bwr = s.bwr := rfl
@[simp] theorem modRst_stp : (s.modRst f).stp = s.stp := rfl
@[simp] theorem modRst_srv : (s.modRst f).srv = s.srv := rfl
@[simp] theorem modRst_trl : (s.modRst f).trl = s.trl := rfl
@[simp] theorem modRst_rhl : (s.modRst f).rhl = s.rhl := rfl
@[simp] theorem modRst_pwr : (s.modRst f).pwr = s.pwr := rfl
@[simp] theorem modRst_rst : (s.modRst f).rst = f s.rst := rfl
@[simp] theorem modRst_gln : (s.modRst f).gln = s.gln := rfl
@[simp] theorem modRst_flash : (s.modRst f).flash = s.flash := rfl
@[simp] theorem modRst_tel : (s.modRst f).tel = s.tel := rfl
@[simp] theorem modRst_hif : (s.modRst f).hif = s.hif := rfl
@[simp] theorem modRst_tray : (s.modRst f).tray = s.tray := rfl
end modRst

section modGln
variable (s : State) (f : Gleaner → Gleaner)
@[simp] theorem modGln_pending : (s.modGln f).pending = s.pending := rfl
@[simp] theorem modGln_out : (s.modGln f).out = s.out := rfl
@[simp] theorem modGln_free : (s.modGln f).free = s.free := rfl
@[simp] theorem modGln_nextId : (s.modGln f).nextId = s.nextId := rfl
@[simp] theorem modGln_fuses : (s.modGln f).fuses = s.fuses := rfl
@[simp] theorem modGln_tmp : (s.modGln f).tmp = s.tmp := rfl
@[simp] theorem modGln_grade : (s.modGln f).grade = s.grade := rfl
@[simp] theorem modGln_sld : (s.modGln f).sld = s.sld := rfl
@[simp] theorem modGln_str : (s.modGln f).str = s.str := rfl
@[simp] theorem modGln_tile : (s.modGln f).tile = s.tile := rfl
@[simp] theorem modGln_grn : (s.modGln f).grn = s.grn := rfl
@[simp] theorem modGln_fab : (s.modGln f).fab = s.fab := rfl
@[simp] theorem modGln_mem : (s.modGln f).mem = s.mem := rfl
@[simp] theorem modGln_bwr : (s.modGln f).bwr = s.bwr := rfl
@[simp] theorem modGln_stp : (s.modGln f).stp = s.stp := rfl
@[simp] theorem modGln_srv : (s.modGln f).srv = s.srv := rfl
@[simp] theorem modGln_trl : (s.modGln f).trl = s.trl := rfl
@[simp] theorem modGln_rhl : (s.modGln f).rhl = s.rhl := rfl
@[simp] theorem modGln_pwr : (s.modGln f).pwr = s.pwr := rfl
@[simp] theorem modGln_rst : (s.modGln f).rst = s.rst := rfl
@[simp] theorem modGln_gln : (s.modGln f).gln = f s.gln := rfl
@[simp] theorem modGln_flash : (s.modGln f).flash = s.flash := rfl
@[simp] theorem modGln_tel : (s.modGln f).tel = s.tel := rfl
@[simp] theorem modGln_hif : (s.modGln f).hif = s.hif := rfl
@[simp] theorem modGln_tray : (s.modGln f).tray = s.tray := rfl
end modGln

section modFlash
variable (s : State) (f : Flash → Flash)
@[simp] theorem modFlash_pending : (s.modFlash f).pending = s.pending := rfl
@[simp] theorem modFlash_out : (s.modFlash f).out = s.out := rfl
@[simp] theorem modFlash_free : (s.modFlash f).free = s.free := rfl
@[simp] theorem modFlash_nextId : (s.modFlash f).nextId = s.nextId := rfl
@[simp] theorem modFlash_fuses : (s.modFlash f).fuses = s.fuses := rfl
@[simp] theorem modFlash_tmp : (s.modFlash f).tmp = s.tmp := rfl
@[simp] theorem modFlash_grade : (s.modFlash f).grade = s.grade := rfl
@[simp] theorem modFlash_sld : (s.modFlash f).sld = s.sld := rfl
@[simp] theorem modFlash_str : (s.modFlash f).str = s.str := rfl
@[simp] theorem modFlash_tile : (s.modFlash f).tile = s.tile := rfl
@[simp] theorem modFlash_grn : (s.modFlash f).grn = s.grn := rfl
@[simp] theorem modFlash_fab : (s.modFlash f).fab = s.fab := rfl
@[simp] theorem modFlash_mem : (s.modFlash f).mem = s.mem := rfl
@[simp] theorem modFlash_bwr : (s.modFlash f).bwr = s.bwr := rfl
@[simp] theorem modFlash_stp : (s.modFlash f).stp = s.stp := rfl
@[simp] theorem modFlash_srv : (s.modFlash f).srv = s.srv := rfl
@[simp] theorem modFlash_trl : (s.modFlash f).trl = s.trl := rfl
@[simp] theorem modFlash_rhl : (s.modFlash f).rhl = s.rhl := rfl
@[simp] theorem modFlash_pwr : (s.modFlash f).pwr = s.pwr := rfl
@[simp] theorem modFlash_rst : (s.modFlash f).rst = s.rst := rfl
@[simp] theorem modFlash_gln : (s.modFlash f).gln = s.gln := rfl
@[simp] theorem modFlash_flash : (s.modFlash f).flash = f s.flash := rfl
@[simp] theorem modFlash_tel : (s.modFlash f).tel = s.tel := rfl
@[simp] theorem modFlash_hif : (s.modFlash f).hif = s.hif := rfl
@[simp] theorem modFlash_tray : (s.modFlash f).tray = s.tray := rfl
end modFlash

section modTel
variable (s : State) (f : Telemetry → Telemetry)
@[simp] theorem modTel_pending : (s.modTel f).pending = s.pending := rfl
@[simp] theorem modTel_out : (s.modTel f).out = s.out := rfl
@[simp] theorem modTel_free : (s.modTel f).free = s.free := rfl
@[simp] theorem modTel_nextId : (s.modTel f).nextId = s.nextId := rfl
@[simp] theorem modTel_fuses : (s.modTel f).fuses = s.fuses := rfl
@[simp] theorem modTel_tmp : (s.modTel f).tmp = s.tmp := rfl
@[simp] theorem modTel_grade : (s.modTel f).grade = s.grade := rfl
@[simp] theorem modTel_sld : (s.modTel f).sld = s.sld := rfl
@[simp] theorem modTel_str : (s.modTel f).str = s.str := rfl
@[simp] theorem modTel_tile : (s.modTel f).tile = s.tile := rfl
@[simp] theorem modTel_grn : (s.modTel f).grn = s.grn := rfl
@[simp] theorem modTel_fab : (s.modTel f).fab = s.fab := rfl
@[simp] theorem modTel_mem : (s.modTel f).mem = s.mem := rfl
@[simp] theorem modTel_bwr : (s.modTel f).bwr = s.bwr := rfl
@[simp] theorem modTel_stp : (s.modTel f).stp = s.stp := rfl
@[simp] theorem modTel_srv : (s.modTel f).srv = s.srv := rfl
@[simp] theorem modTel_trl : (s.modTel f).trl = s.trl := rfl
@[simp] theorem modTel_rhl : (s.modTel f).rhl = s.rhl := rfl
@[simp] theorem modTel_pwr : (s.modTel f).pwr = s.pwr := rfl
@[simp] theorem modTel_rst : (s.modTel f).rst = s.rst := rfl
@[simp] theorem modTel_gln : (s.modTel f).gln = s.gln := rfl
@[simp] theorem modTel_flash : (s.modTel f).flash = s.flash := rfl
@[simp] theorem modTel_tel : (s.modTel f).tel = f s.tel := rfl
@[simp] theorem modTel_hif : (s.modTel f).hif = s.hif := rfl
@[simp] theorem modTel_tray : (s.modTel f).tray = s.tray := rfl
end modTel

section modHif
variable (s : State) (f : HostPort → HostPort)
@[simp] theorem modHif_pending : (s.modHif f).pending = s.pending := rfl
@[simp] theorem modHif_out : (s.modHif f).out = s.out := rfl
@[simp] theorem modHif_free : (s.modHif f).free = s.free := rfl
@[simp] theorem modHif_nextId : (s.modHif f).nextId = s.nextId := rfl
@[simp] theorem modHif_fuses : (s.modHif f).fuses = s.fuses := rfl
@[simp] theorem modHif_tmp : (s.modHif f).tmp = s.tmp := rfl
@[simp] theorem modHif_grade : (s.modHif f).grade = s.grade := rfl
@[simp] theorem modHif_sld : (s.modHif f).sld = s.sld := rfl
@[simp] theorem modHif_str : (s.modHif f).str = s.str := rfl
@[simp] theorem modHif_tile : (s.modHif f).tile = s.tile := rfl
@[simp] theorem modHif_grn : (s.modHif f).grn = s.grn := rfl
@[simp] theorem modHif_fab : (s.modHif f).fab = s.fab := rfl
@[simp] theorem modHif_mem : (s.modHif f).mem = s.mem := rfl
@[simp] theorem modHif_bwr : (s.modHif f).bwr = s.bwr := rfl
@[simp] theorem modHif_stp : (s.modHif f).stp = s.stp := rfl
@[simp] theorem modHif_srv : (s.modHif f).srv = s.srv := rfl
@[simp] theorem modHif_trl : (s.modHif f).trl = s.trl := rfl
@[simp] theorem modHif_rhl : (s.modHif f).rhl = s.rhl := rfl
@[simp] theorem modHif_pwr : (s.modHif f).pwr = s.pwr := rfl
@[simp] theorem modHif_rst : (s.modHif f).rst = s.rst := rfl
@[simp] theorem modHif_gln : (s.modHif f).gln = s.gln := rfl
@[simp] theorem modHif_flash : (s.modHif f).flash = s.flash := rfl
@[simp] theorem modHif_tel : (s.modHif f).tel = s.tel := rfl
@[simp] theorem modHif_hif : (s.modHif f).hif = f s.hif := rfl
@[simp] theorem modHif_tray : (s.modHif f).tray = s.tray := rfl
end modHif

section modTray
variable (s : State) (f : Tray → Tray)
@[simp] theorem modTray_pending : (s.modTray f).pending = s.pending := rfl
@[simp] theorem modTray_out : (s.modTray f).out = s.out := rfl
@[simp] theorem modTray_free : (s.modTray f).free = s.free := rfl
@[simp] theorem modTray_nextId : (s.modTray f).nextId = s.nextId := rfl
@[simp] theorem modTray_fuses : (s.modTray f).fuses = s.fuses := rfl
@[simp] theorem modTray_tmp : (s.modTray f).tmp = s.tmp := rfl
@[simp] theorem modTray_grade : (s.modTray f).grade = s.grade := rfl
@[simp] theorem modTray_sld : (s.modTray f).sld = s.sld := rfl
@[simp] theorem modTray_str : (s.modTray f).str = s.str := rfl
@[simp] theorem modTray_tile : (s.modTray f).tile = s.tile := rfl
@[simp] theorem modTray_grn : (s.modTray f).grn = s.grn := rfl
@[simp] theorem modTray_fab : (s.modTray f).fab = s.fab := rfl
@[simp] theorem modTray_mem : (s.modTray f).mem = s.mem := rfl
@[simp] theorem modTray_bwr : (s.modTray f).bwr = s.bwr := rfl
@[simp] theorem modTray_stp : (s.modTray f).stp = s.stp := rfl
@[simp] theorem modTray_srv : (s.modTray f).srv = s.srv := rfl
@[simp] theorem modTray_trl : (s.modTray f).trl = s.trl := rfl
@[simp] theorem modTray_rhl : (s.modTray f).rhl = s.rhl := rfl
@[simp] theorem modTray_pwr : (s.modTray f).pwr = s.pwr := rfl
@[simp] theorem modTray_rst : (s.modTray f).rst = s.rst := rfl
@[simp] theorem modTray_gln : (s.modTray f).gln = s.gln := rfl
@[simp] theorem modTray_flash : (s.modTray f).flash = s.flash := rfl
@[simp] theorem modTray_tel : (s.modTray f).tel = s.tel := rfl
@[simp] theorem modTray_hif : (s.modTray f).hif = s.hif := rfl
@[simp] theorem modTray_tray : (s.modTray f).tray = f s.tray := rfl
end modTray

/-- An emission appends to the outputs. -/
@[simp] theorem emit_out (s : State) (o : Output) : (s.emit o).out = s.out ++ [o] := rfl

section emit
variable (s : State) (o : Output)
@[simp] theorem emit_pending : (s.emit o).pending = s.pending := rfl
@[simp] theorem emit_free : (s.emit o).free = s.free := rfl
@[simp] theorem emit_nextId : (s.emit o).nextId = s.nextId := rfl
@[simp] theorem emit_fuses : (s.emit o).fuses = s.fuses := rfl
@[simp] theorem emit_tmp : (s.emit o).tmp = s.tmp := rfl
@[simp] theorem emit_grade : (s.emit o).grade = s.grade := rfl
@[simp] theorem emit_sld : (s.emit o).sld = s.sld := rfl
@[simp] theorem emit_str : (s.emit o).str = s.str := rfl
@[simp] theorem emit_tile : (s.emit o).tile = s.tile := rfl
@[simp] theorem emit_grn : (s.emit o).grn = s.grn := rfl
@[simp] theorem emit_fab : (s.emit o).fab = s.fab := rfl
@[simp] theorem emit_mem : (s.emit o).mem = s.mem := rfl
@[simp] theorem emit_bwr : (s.emit o).bwr = s.bwr := rfl
@[simp] theorem emit_stp : (s.emit o).stp = s.stp := rfl
@[simp] theorem emit_srv : (s.emit o).srv = s.srv := rfl
@[simp] theorem emit_trl : (s.emit o).trl = s.trl := rfl
@[simp] theorem emit_rhl : (s.emit o).rhl = s.rhl := rfl
@[simp] theorem emit_pwr : (s.emit o).pwr = s.pwr := rfl
@[simp] theorem emit_rst : (s.emit o).rst = s.rst := rfl
@[simp] theorem emit_gln : (s.emit o).gln = s.gln := rfl
@[simp] theorem emit_flash : (s.emit o).flash = s.flash := rfl
@[simp] theorem emit_tel : (s.emit o).tel = s.tel := rfl
@[simp] theorem emit_hif : (s.emit o).hif = s.hif := rfl
@[simp] theorem emit_tray : (s.emit o).tray = s.tray := rfl
end emit

end Sys2Proof.Laws
end

