-- ==== Sys2Proof/Laws/OkBase.lean ====
section
/-! SUPPORT. What hardly any operation does: `Ok a s` says that a state s, reached from a state a, has the queue, the fuses and the
cooling outputs of a, and that its device memory is in canonical form if that of a is. Here: what each update of a field and each way of
putting operations together does to it. The files OkMemory to OkTray say it of every shared operation, OkCommands of the commands. The
exceptions are the operations on a key slot and the three cooling commands. -/

namespace Sys2Proof.Laws

open Sys2Proof Sys2Proof.Machine

/-- What the tray's cooling outputs are driven by. -/
@[simp] def cooling (t : Tray) : Bool × Nat × Nat × Nat := (t.wdHold, t.cool0, t.cool1, t.fans)

/-- The parts of the state that hardly any command changes: the queue, the fuses, the cooling outputs. -/
def kept (s : State) : List Instr × Fuses × (Bool × Nat × Nat × Nat) := (s.pending, s.fuses, cooling s.tray)

/-- A state reached from another has its queue, fuses and cooling outputs, and keeps the canonical form of its device memory. -/
def Ok (a s : State) : Prop := kept s = kept a ∧ (a.mem.wf = true → s.mem.wf = true)

variable {a s : State}

theorem ok_refl (a : State) : Ok a a := ⟨rfl, id⟩

theorem id_ok (h : Ok a s) : Ok a (id s) := h

theorem Ok.trans {b : State} (h : Ok a b) (k : Ok b s) : Ok a s := ⟨k.1.trans h.1, fun w => k.2 (h.2 w)⟩

theorem Ok.pending (h : Ok a s) : s.pending = a.pending := congrArg (·.1) h.1
theorem Ok.fuses (h : Ok a s) : s.fuses = a.fuses := congrArg (·.2.1) h.1
theorem Ok.cooling (h : Ok a s) : Laws.cooling s.tray = Laws.cooling a.tray := congrArg (·.2.2) h.1

/-! ## Putting operations together -/

theorem ok_ite {c : Prop} [Decidable c] {x y : State} (h : Ok a x) (k : Ok a y) : Ok a (if c then x else y) := by
  split <;> assumption

theorem ok_iteP {α : Type} {c : Prop} [Decidable c] {x y : State × α} (h : Ok a x.1) (k : Ok a y.1) : Ok a (if c then x else y).1 := by
  split <;> assumption

theorem ok_elim {α : Type} {o : Option α} {x : State} {f : α → State} (h : Ok a x) (k : ∀ v, Ok a (f v)) : Ok a (o.elim x f) := by
  cases o
  · exact h
  · exact k _

theorem ok_elimP {α β : Type} {o : Option α} {x : State × β} {f : α → State × β} (h : Ok a x.1) (k : ∀ v, Ok a (f v).1) :
    Ok a (o.elim x f).1 := by
  cases o
  · exact h
  · exact k _

theorem ok_foldl {α : Type} {f : State → α → State} (k : ∀ s x, Ok a s → Ok a (f s x)) (xs : List α) {s : State} (h : Ok a s) :
    Ok a (xs.foldl f s) := by
  induction xs generalizing s with
  | nil => exact h
  | cons x xs ih => exact ih (k s x h)

/-- A fold over a pair, or any other value that holds a state. -/
theorem ok_foldlP {α σ : Type} (g : σ → State) {f : σ → α → σ} (k : ∀ v x, Ok a (g v) → Ok a (g (f v x))) (xs : List α) {v : σ}
    (h : Ok a (g v)) : Ok a (g (xs.foldl f v)) := by
  induction xs generalizing v with
  | nil => exact h
  | cons x xs ih => exact ih (k v x h)

theorem each_ok {α : Type} {f : State → α → State} {xs : List α} (k : ∀ s x, Ok a s → Ok a (f s x)) (h : Ok a s) :
    Ok a (s.each xs f) := ok_foldl k xs h

theorem when_ok {c : Bool} {f : State → State} (k : ∀ s, Ok a s → Ok a (f s)) (h : Ok a s) : Ok a (s.when c f) := by
  unfold State.when
  split
  · exact k _ h
  · exact h

/-! ## The update of each field -/

theorem modOut_ok {f : List Output → List Output} (h : Ok a s) : Ok a (s.modOut f) := h
theorem modFree_ok {f : Nat → Nat} (h : Ok a s) : Ok a (s.modFree f) := h
theorem modNextId_ok {f : Nat → Nat} (h : Ok a s) : Ok a (s.modNextId f) := h
theorem modTmp_ok {f : Tempo → Tempo} (h : Ok a s) : Ok a (s.modTmp f) := h
theorem modGrade_ok {f : Grades → Grades} (h : Ok a s) : Ok a (s.modGrade f) := h
theorem modSld_ok {f : Loader → Loader} (h : Ok a s) : Ok a (s.modSld f) := h
theorem modStr_ok {f : Option Structure → Option Structure} (h : Ok a s) : Ok a (s.modStr f) := h
theorem modTile_ok {f : Tiles → Tiles} (h : Ok a s) : Ok a (s.modTile f) := h
theorem modGrn_ok {f : Granary → Granary} (h : Ok a s) : Ok a (s.modGrn f) := h
theorem modFab_ok {f : Fabric → Fabric} (h : Ok a s) : Ok a (s.modFab f) := h
theorem modBwr_ok {f : Bwr → Bwr} (h : Ok a s) : Ok a (s.modBwr f) := h
theorem modStp_ok {f : Steps → Steps} (h : Ok a s) : Ok a (s.modStp f) := h
theorem modSrv_ok {f : Serving → Serving} (h : Ok a s) : Ok a (s.modSrv f) := h
theorem modTrl_ok {f : Trellis → Trellis} (h : Ok a s) : Ok a (s.modTrl f) := h
theorem modRhl_ok {f : Ring → Ring} (h : Ok a s) : Ok a (s.modRhl f) := h
theorem modPwr_ok {f : Power → Power} (h : Ok a s) : Ok a (s.modPwr f) := h
theorem modRst_ok {f : Reset → Reset} (h : Ok a s) : Ok a (s.modRst f) := h
theorem modGln_ok {f : Gleaner → Gleaner} (h : Ok a s) : Ok a (s.modGln f) := h
theorem modFlash_ok {f : Flash → Flash} (h : Ok a s) : Ok a (s.modFlash f) := h
theorem modTel_ok {f : Telemetry → Telemetry} (h : Ok a s) : Ok a (s.modTel f) := h
theorem modHif_ok {f : HostPort → HostPort} (h : Ok a s) : Ok a (s.modHif f) := h
theorem emit_ok {o : Output} (h : Ok a s) : Ok a (s.emit o) := h

/-- A change of the memory's registers. -/
theorem modMem_ok {f : Memory → Memory} (k : ∀ m, (f m).cells = m.cells) (h : Ok a s) : Ok a (s.modMem f) :=
  ⟨h.1, fun w => by simpa only [Memory.wf, modMem_mem, k] using h.2 w⟩

/-- A change of the memory that keeps its canonical form. -/
theorem modMem_ok_wf {f : Memory → Memory} (k : ∀ m, m.wf = true → (f m).wf = true) (h : Ok a s) : Ok a (s.modMem f) :=
  ⟨h.1, fun w => by simpa only [modMem_mem] using k _ (h.2 w)⟩

/-- A change of the tray that leaves the cooling outputs alone. -/
theorem modTray_ok {f : Tray → Tray} (k : ∀ t, Laws.cooling (f t) = Laws.cooling t) (h : Ok a s) : Ok a (s.modTray f) :=
  ⟨by simp only [kept, modTray_pending, modTray_fuses, modTray_tray, k]; exact h.1, h.2⟩

end Sys2Proof.Laws
end

