-- ==== Sys2Proof/Laws/OkMemory.lean ====
section
/-! SUPPORT. What `Ok` says of the shared operations on registers, memory, stacks, budgets, tiles and the Granary: one lemma for each. -/

namespace Sys2Proof.Laws

open Sys2Proof Sys2Proof.Machine

/-! ## Machine/Ops.lean -/

theorem modStep_ok (s : State) (id : Nat) (f : Step → Step) {orig : State} (ok0 : Ok orig s) :
    Ok orig (State.modStep s id f) := by
  unfold State.modStep
  repeat' first
    | with_reducible assumption | intro _ | dsimp only | with_reducible apply ok_ite | with_reducible apply ok_iteP
    | with_reducible apply ok_elim | with_reducible apply ok_elimP | with_reducible apply modStp_ok | split

theorem modPart_ok (s : State) (p : Nat) (f : PartSt → PartSt) {orig : State} (ok0 : Ok orig s) :
    Ok orig (State.modPart s p f) := by
  unfold State.modPart
  repeat' first
    | with_reducible assumption | intro _ | dsimp only | with_reducible apply ok_ite | with_reducible apply ok_iteP
    | with_reducible apply ok_elim | with_reducible apply ok_elimP | with_reducible apply modStp_ok | split

theorem fresh_ok (s : State) {orig : State} (ok0 : Ok orig s) :
    Ok orig (State.fresh s) := by
  unfold State.fresh
  repeat' first
    | with_reducible assumption | intro _ | dsimp only | with_reducible apply ok_ite | with_reducible apply ok_iteP
    | with_reducible apply ok_elim | with_reducible apply ok_elimP | with_reducible apply modNextId_ok | split

theorem modStack_ok (s : State) (t : Nat) (f : Stack → Stack) {orig : State} (ok0 : Ok orig s) :
    Ok orig (State.modStack s t f) := by
  unfold State.modStack
  repeat' first
    | with_reducible assumption | intro _ | dsimp only | with_reducible apply ok_ite | with_reducible apply ok_iteP
    | with_reducible apply ok_elim | with_reducible apply ok_elimP | ((with_reducible apply modMem_ok); · intro m; rfl)
    | ((with_reducible apply modMem_ok_wf); · intro m w; rfl) | split

theorem event_ok (s : State) (c : Code) {orig : State} (ok0 : Ok orig s) :
    Ok orig (State.event s c) := by
  unfold State.event
  repeat' first
    | with_reducible assumption | intro _ | dsimp only | with_reducible apply ok_ite | with_reducible apply ok_iteP
    | with_reducible apply ok_elim | with_reducible apply ok_elimP | with_reducible apply modTel_ok | split

theorem partEvent_ok (s : State) (p : Nat) (c : Code) {orig : State} (ok0 : Ok orig s) :
    Ok orig (State.partEvent s p c) := by
  unfold State.partEvent
  repeat' first
    | with_reducible assumption | intro _ | dsimp only | with_reducible apply ok_ite | with_reducible apply ok_iteP
    | with_reducible apply ok_elim | with_reducible apply ok_elimP | with_reducible apply modTel_ok
    | with_reducible apply event_ok | split

theorem partFrame_ok (s : State) (p : Nat) (f : PartFrame → PartFrame) {orig : State} (ok0 : Ok orig s) :
    Ok orig (State.partFrame s p f) := by
  unfold State.partFrame
  repeat' first
    | with_reducible assumption | intro _ | dsimp only | with_reducible apply ok_ite | with_reducible apply ok_iteP
    | with_reducible apply ok_elim | with_reducible apply ok_elimP | with_reducible apply modTel_ok | split

theorem signal_ok (s : State) (fn vec : Nat) {orig : State} (ok0 : Ok orig s) :
    Ok orig (State.signal s fn vec) := by
  unfold State.signal
  repeat' first
    | with_reducible assumption | intro _ | dsimp only | with_reducible apply ok_ite | with_reducible apply ok_iteP
    | with_reducible apply ok_elim | with_reducible apply ok_elimP | with_reducible apply modHif_ok | with_reducible apply emit_ok
    | split

theorem modFn_ok (s : State) (fn : Nat) (f : HifFn → HifFn) {orig : State} (ok0 : Ok orig s) :
    Ok orig (State.modFn s fn f) := by
  unfold State.modFn
  repeat' first
    | with_reducible assumption | intro _ | dsimp only | with_reducible apply ok_ite | with_reducible apply ok_iteP
    | with_reducible apply ok_elim | with_reducible apply ok_elimP | with_reducible apply modHif_ok | split

theorem hifErr_ok (s : State) (fn : Nat) (c : Code) (bar off : Nat) {orig : State} (ok0 : Ok orig s) :
    Ok orig (State.hifErr s fn c bar off) := by
  unfold State.hifErr
  repeat' first
    | with_reducible assumption | intro _ | dsimp only | with_reducible apply ok_ite | with_reducible apply ok_iteP
    | with_reducible apply ok_elim | with_reducible apply ok_elimP | with_reducible apply signal_ok
    | with_reducible apply modFn_ok | split

theorem signalPart_ok (s : State) (p : Nat) {orig : State} (ok0 : Ok orig s) :
    Ok orig (State.signalPart s p) := by
  unfold State.signalPart
  repeat' first
    | with_reducible assumption | intro _ | dsimp only | with_reducible apply ok_ite | with_reducible apply ok_iteP
    | with_reducible apply ok_elim | with_reducible apply ok_elimP | with_reducible apply signal_ok | split

theorem signalPower_ok (s : State) {orig : State} (ok0 : Ok orig s) :
    Ok orig (State.signalPower s) := by
  unfold State.signalPower
  repeat' first
    | with_reducible assumption | intro _ | dsimp only | with_reducible apply ok_ite | with_reducible apply ok_iteP
    | with_reducible apply ok_elim | with_reducible apply ok_elimP | with_reducible apply signal_ok
    | with_reducible refine each_ok (fun _ _ h => ?_) ?_ | split

theorem drawn_ok (s : State) {orig : State} (ok0 : Ok orig s) :
    Ok orig (State.drawn s) := by
  unfold State.drawn
  repeat' first
    | with_reducible assumption | intro _ | dsimp only | with_reducible apply ok_ite | with_reducible apply ok_iteP
    | with_reducible apply ok_elim | with_reducible apply ok_elimP | with_reducible apply modFree_ok | split

theorem unsupportedReq_ok (s : State) (fn : Nat) {orig : State} (ok0 : Ok orig s) :
    Ok orig (State.unsupportedReq s fn) := by
  unfold State.unsupportedReq
  repeat' first
    | with_reducible assumption | intro _ | dsimp only | with_reducible apply ok_ite | with_reducible apply ok_iteP
    | with_reducible apply ok_elim | with_reducible apply ok_elimP | with_reducible apply emit_ok | split

theorem hostAccess_ok (s : State) (fn : Nat) (f : State → State) {orig : State} (hf : ∀ s, Ok orig s → Ok orig (f s)) (ok0 : Ok orig s) :
    Ok orig (hostAccess s fn f) := by
  unfold hostAccess
  repeat' first
    | with_reducible assumption | intro _ | dsimp only | with_reducible apply ok_ite | with_reducible apply ok_iteP
    | with_reducible apply ok_elim | with_reducible apply ok_elimP | with_reducible apply unsupportedReq_ok
    | with_reducible apply hf | split

/-! ## Machine/MemOps.lean -/

theorem writeLine_ok (s : State) (line : Nat) (mask : BitVec 256) (data : List Byte) (poisoned : Bool) (bad : BitVec 8) {orig : State} (ok0 : Ok orig s) :
    Ok orig (writeLine s line mask data poisoned bad) := by
  unfold writeLine
  split
  · exact ok0
  · exact modMem_ok_wf (fun m w => foldl_wf _ (fun m k w => foldl_wf _ (fun m b w => writeBurst_wf _ _ _ _ _ _ _ w) _ _ w) _ _ w) ok0

theorem recordErr_ok (s : State) (line cause : Nat) {orig : State} (ok0 : Ok orig s) :
    Ok orig (recordErr s line cause) := by
  unfold recordErr
  repeat' first
    | with_reducible assumption | intro _ | dsimp only | with_reducible apply ok_ite | with_reducible apply ok_iteP
    | with_reducible apply ok_elim | with_reducible apply ok_elimP | with_reducible apply modStack_ok | split

theorem remapStart_ok (s : State) (x bank row : Nat) {orig : State} (ok0 : Ok orig s) :
    Ok orig (remapStart s x bank row) := by
  unfold remapStart
  repeat' first
    | with_reducible assumption | intro _ | dsimp only | with_reducible apply ok_ite | with_reducible apply ok_iteP
    | with_reducible apply ok_elim | with_reducible apply ok_elimP | with_reducible apply fresh_ok
    | with_reducible apply modStack_ok | with_reducible apply event_ok | ((with_reducible apply modMem_ok); · intro m; rfl)
    | ((with_reducible apply modMem_ok_wf); · intro m w; rfl) | split

theorem countCe_ok (s : State) (x bank row : Nat) {orig : State} (ok0 : Ok orig s) :
    Ok orig (countCe s x bank row) := by
  unfold countCe
  repeat' first
    | with_reducible assumption | intro _ | dsimp only | with_reducible apply ok_ite | with_reducible apply ok_iteP
    | with_reducible apply ok_elim | with_reducible apply ok_elimP | with_reducible apply fresh_ok
    | with_reducible apply remapStart_ok | ((with_reducible apply modMem_ok); · intro m; rfl)
    | ((with_reducible apply modMem_ok_wf); · intro m w; rfl) | split

theorem eccOn_ok (s : State) (line : Nat) (read : Nat → Bool) (found : List Burst) {orig : State} (ok0 : Ok orig s) :
    Ok orig (eccOn s line read found) := by
  unfold eccOn
  repeat' first
    | with_reducible assumption | intro _ | dsimp only | with_reducible apply ok_ite | with_reducible apply ok_iteP
    | with_reducible apply ok_elim | with_reducible apply ok_elimP | with_reducible apply modStack_ok
    | with_reducible apply recordErr_ok | with_reducible apply remapStart_ok | with_reducible apply countCe_ok
    | with_reducible refine ok_foldl (fun _ _ h => ?_) _ ?_
    | with_reducible refine ok_foldlP (fun v => v.1) (fun _ _ h => ?_) _ ?_ | split

theorem eccCount_ok (s : State) (line : Nat) (found : List Burst) {orig : State} (ok0 : Ok orig s) :
    Ok orig (eccCount s line found) := by
  unfold eccCount
  repeat' first
    | with_reducible assumption | intro _ | dsimp only | with_reducible apply ok_ite | with_reducible apply ok_iteP
    | with_reducible apply ok_elim | with_reducible apply ok_elimP | with_reducible apply eccOn_ok | split

theorem mergeLine_ok (s : State) (line : Nat) (mask : BitVec 256) (data : List Byte) (poisoned : Bool) (found : List Burst) {orig : State} (ok0 : Ok orig s) :
    Ok orig (mergeLine s line mask data poisoned found) := by
  unfold mergeLine
  repeat' first
    | with_reducible assumption | intro _ | dsimp only | with_reducible apply ok_ite | with_reducible apply ok_iteP
    | with_reducible apply ok_elim | with_reducible apply ok_elimP | with_reducible apply writeLine_ok
    | with_reducible apply eccOn_ok | split

/-! ## Machine/BwrOps.lean -/

theorem take_ok (s : State) (m g u : Nat) {orig : State} (ok0 : Ok orig s) :
    Ok orig (State.take s m g u) := by
  unfold State.take
  repeat' first
    | with_reducible assumption | intro _ | dsimp only | with_reducible apply ok_ite | with_reducible apply ok_iteP
    | with_reducible apply ok_elim | with_reducible apply ok_elimP | with_reducible apply modBwr_ok | split

theorem violate_ok (s : State) (m u : Nat) {orig : State} (ok0 : Ok orig s) :
    Ok orig (State.violate s m u) := by
  unfold State.violate
  repeat' first
    | with_reducible assumption | intro _ | dsimp only | with_reducible apply ok_ite | with_reducible apply ok_iteP
    | with_reducible apply ok_elim | with_reducible apply ok_elimP | with_reducible apply modBwr_ok
    | with_reducible apply modTel_ok | with_reducible apply partFrame_ok | with_reducible refine each_ok (fun _ _ h => ?_) ?_
    | split

theorem hold_ok (s : State) (m g u : Nat) (c0Read : Bool) (k : HeldKind) {orig : State} (ok0 : Ok orig s) :
    Ok orig (State.hold s m g u c0Read k) := by
  unfold State.hold
  repeat' first
    | with_reducible assumption | intro _ | dsimp only | with_reducible apply ok_ite | with_reducible apply ok_iteP
    | with_reducible apply ok_elim | with_reducible apply ok_elimP | with_reducible apply modBwr_ok
    | with_reducible apply violate_ok | split

theorem charge_ok (s : State) (m g u : Nat) (c0Read : Bool) (k : HeldKind) {orig : State} (ok0 : Ok orig s) :
    Ok orig (State.charge s m g u c0Read k) := by
  unfold State.charge
  repeat' first
    | with_reducible assumption | intro _ | dsimp only | with_reducible apply ok_ite | with_reducible apply ok_iteP
    | with_reducible apply ok_elim | with_reducible apply ok_elimP | with_reducible apply take_ok | with_reducible apply hold_ok
    | split

theorem untagged_ok (s : State) (r : MemReq) {orig : State} (ok0 : Ok orig s) : Ok orig (untagged s r) := by
  unfold untagged
  split
  · exact modTile_ok ok0
  · exact modTile_ok ok0
  · exact ok0

theorem demote_ok (s : State) (r : MemReq) {orig : State} (ok0 : Ok orig s) :
    Ok orig (demote s r).1 := by
  unfold demote
  repeat' first
    | with_reducible assumption | intro _ | dsimp only | with_reducible apply ok_ite | with_reducible apply ok_iteP
    | with_reducible apply ok_elim | with_reducible apply ok_elimP | with_reducible apply untagged_ok
    | with_reducible apply modBwr_ok | split

theorem demoteWaiters_ok (s : State) (ws : List Waiter) {orig : State} (ok0 : Ok orig s) :
    Ok orig (demoteWaiters s ws).1 := by
  unfold demoteWaiters
  exact ok_foldlP (fun st : State × List Waiter => st.1) (fun _ _ h => demote_ok _ _ h) _ ok0

theorem demoteNext_ok (s : State) (n : AfterWb) {orig : State} (ok0 : Ok orig s) :
    Ok orig (demoteNext s n).1 := by
  unfold demoteNext
  split
  · exact demote_ok _ _ ok0
  · exact demote_ok _ _ ok0
  · exact ok0

theorem dlMissed_ok (s : State) (d master group : Nat) (step : Option Nat) {orig : State} (ok0 : Ok orig s) :
    Ok orig (dlMissed s d master group step) := by
  unfold dlMissed
  repeat' first
    | with_reducible assumption | intro _ | dsimp only | with_reducible apply ok_ite | with_reducible apply ok_iteP
    | with_reducible apply ok_elim | with_reducible apply ok_elimP | with_reducible apply modBwr_ok
    | with_reducible apply modTel_ok | with_reducible apply modStep_ok | with_reducible apply partFrame_ok | split

theorem release_ok (s : State) (k : HeldKind) {orig : State} (ok0 : Ok orig s) :
    Ok orig (State.release s k) := by
  unfold State.release
  repeat' first
    | with_reducible assumption | intro _ | dsimp only | with_reducible apply ok_ite | with_reducible apply ok_iteP
    | with_reducible apply ok_elim | with_reducible apply ok_elimP | with_reducible apply modGrn_ok
    | ((with_reducible apply modMem_ok); · intro m; rfl) | with_reducible apply demoteWaiters_ok | with_reducible apply demote_ok
    | with_reducible apply demoteNext_ok | split

theorem releaseHeld_ok (s : State) {orig : State} (ok0 : Ok orig s) : Ok orig (releaseHeld s) := by
  unfold releaseHeld
  refine ok_foldlP (fun st : State × List (Nat × Nat) × List (Nat × Nat) => st.1) (fun st x ok0 => ?_) _ (modBwr_ok ok0)
  dsimp only
  refine ok_iteP ?_ (ok_iteP ?_ ?_)
  · exact release_ok _ _ (take_ok _ _ _ _ ok0)
  · exact release_ok _ _ (take_ok _ _ _ _ ok0)
  · exact modBwr_ok ok0

theorem bwrBoundary_ok (s : State) {orig : State} (ok0 : Ok orig s) :
    Ok orig (bwrBoundary s) := by
  unfold bwrBoundary
  repeat' first
    | with_reducible assumption | intro _ | dsimp only | with_reducible apply ok_ite | with_reducible apply ok_iteP
    | with_reducible apply ok_elim | with_reducible apply ok_elimP | with_reducible apply modBwr_ok
    | with_reducible apply releaseHeld_ok | split

/-! ## Machine/TileOps.lean -/

theorem modGroup_ok (s : State) (tile slot : Nat) (f : Group → Group) {orig : State} (ok0 : Ok orig s) :
    Ok orig (State.modGroup s tile slot f) := by
  unfold State.modGroup
  repeat' first
    | with_reducible assumption | intro _ | dsimp only | with_reducible apply ok_ite | with_reducible apply ok_iteP
    | with_reducible apply ok_elim | with_reducible apply ok_elimP | with_reducible apply modTile_ok | split

theorem faultStepAt_ok (s : State) (id : Nat) (c : Code) (key : Option (Nat × Nat)) {orig : State} (ok0 : Ok orig s) :
    Ok orig (State.faultStepAt s id c key) := by
  unfold State.faultStepAt
  repeat' first
    | with_reducible assumption | intro _ | dsimp only | with_reducible apply ok_ite | with_reducible apply ok_iteP
    | with_reducible apply ok_elim | with_reducible apply ok_elimP | with_reducible apply modStep_ok | split

theorem faultStep_ok (s : State) (id : Nat) (c : Code) {orig : State} (ok0 : Ok orig s) :
    Ok orig (State.faultStep s id c) := by
  unfold State.faultStep
  repeat' first
    | with_reducible assumption | intro _ | dsimp only | with_reducible apply ok_ite | with_reducible apply ok_iteP
    | with_reducible apply ok_elim | with_reducible apply ok_elimP | with_reducible apply faultStepAt_ok | split

theorem settleMxe_ok (s : State) (p : MxeWrite → Bool) {orig : State} (ok0 : Ok orig s) :
    Ok orig (State.settleMxe s p) := by
  unfold State.settleMxe
  repeat' first
    | with_reducible assumption | intro _ | dsimp only | with_reducible apply ok_ite | with_reducible apply ok_iteP
    | with_reducible apply ok_elim | with_reducible apply ok_elimP | with_reducible apply modTile_ok | split

theorem mxeUpTo_ok (s : State) (cycle : Nat) {orig : State} (ok0 : Ok orig s) :
    Ok orig (State.mxeUpTo s cycle) := by
  unfold State.mxeUpTo
  repeat' first
    | with_reducible assumption | intro _ | dsimp only | with_reducible apply ok_ite | with_reducible apply ok_iteP
    | with_reducible apply ok_elim | with_reducible apply ok_elimP | with_reducible apply settleMxe_ok | split

theorem pokeLocal_ok (s : State) (tile a : Nat) (bs : List Byte) {orig : State} (ok0 : Ok orig s) :
    Ok orig (State.pokeLocal s tile a bs) := by
  unfold State.pokeLocal
  repeat' first
    | with_reducible assumption | intro _ | dsimp only | with_reducible apply ok_ite | with_reducible apply ok_iteP
    | with_reducible apply ok_elim | with_reducible apply ok_elimP | with_reducible apply modTile_ok | split

theorem writeLocal_ok (s : State) (tile a : Nat) (bs : List Byte) {orig : State} (ok0 : Ok orig s) :
    Ok orig (State.writeLocal s tile a bs) := by
  unfold State.writeLocal
  repeat' first
    | with_reducible assumption | intro _ | dsimp only | with_reducible apply ok_ite | with_reducible apply ok_iteP
    | with_reducible apply ok_elim | with_reducible apply ok_elimP | with_reducible apply settleMxe_ok
    | with_reducible apply pokeLocal_ok | split

theorem setToken_ok (s : State) (t : Nat) (v : Token) {orig : State} (ok0 : Ok orig s) :
    Ok orig (State.setToken s t v) := by
  unfold State.setToken
  repeat' first
    | with_reducible assumption | intro _ | dsimp only | with_reducible apply ok_ite | with_reducible apply ok_iteP
    | with_reducible apply ok_elim | with_reducible apply ok_elimP | with_reducible apply modTile_ok | split

theorem tokenStatus_ok (s : State) (tile slot dst : Nat) (keep : Option Nat) (lanes : W32) (first rest : W32) {orig : State} (ok0 : Ok orig s) :
    Ok orig (State.tokenStatus s tile slot dst keep lanes first rest) := by
  unfold State.tokenStatus
  repeat' first
    | with_reducible assumption | intro _ | dsimp only | with_reducible apply ok_ite | with_reducible apply ok_iteP
    | with_reducible apply ok_elim | with_reducible apply ok_elimP | with_reducible apply modGroup_ok
    | with_reducible refine ok_foldl (fun _ _ h => ?_) _ ?_
    | with_reducible refine ok_foldlP (fun v => v.1) (fun _ _ h => ?_) _ ?_ | split

theorem grantToken_ok (s : State) (t part tile slot dst : Nat) (keep : Option Nat) (lanes : W32) {orig : State} (ok0 : Ok orig s) :
    Ok orig (State.grantToken s t part tile slot dst keep lanes) := by
  unfold State.grantToken
  repeat' first
    | with_reducible assumption | intro _ | dsimp only | with_reducible apply ok_ite | with_reducible apply ok_iteP
    | with_reducible apply ok_elim | with_reducible apply ok_elimP | with_reducible apply setToken_ok
    | with_reducible apply tokenStatus_ok | split

theorem serveToken_ok (s : State) (t : Nat) {orig : State} (ok0 : Ok orig s) :
    Ok orig (State.serveToken s t) := by
  unfold State.serveToken
  repeat' first
    | with_reducible assumption | intro _ | dsimp only | with_reducible apply ok_ite | with_reducible apply ok_iteP
    | with_reducible apply ok_elim | with_reducible apply ok_elimP | with_reducible apply modTile_ok
    | with_reducible apply hold_ok | with_reducible apply modGroup_ok | with_reducible apply grantToken_ok | split

theorem forfeitTokens_ok (s : State) (tile slot : Nat) {orig : State} (ok0 : Ok orig s) :
    Ok orig (State.forfeitTokens s tile slot) := by
  unfold State.forfeitTokens
  repeat' first
    | with_reducible assumption | intro _ | dsimp only | with_reducible apply ok_ite | with_reducible apply ok_iteP
    | with_reducible apply ok_elim | with_reducible apply ok_elimP | with_reducible apply modTile_ok
    | with_reducible apply serveToken_ok | with_reducible refine each_ok (fun _ _ h => ?_) ?_ | split

theorem dropGroup_ok (s : State) (tile slot : Nat) {orig : State} (ok0 : Ok orig s) :
    Ok orig (State.dropGroup s tile slot) := by
  unfold State.dropGroup
  repeat' first
    | with_reducible assumption | intro _ | dsimp only | with_reducible apply ok_ite | with_reducible apply ok_iteP
    | with_reducible apply ok_elim | with_reducible apply ok_elimP | with_reducible apply modTile_ok | split

theorem groupFault_ok (s : State) (tile slot : Nat) (c : Code) (pc : Nat) (cycle : Option Nat) {orig : State} (ok0 : Ok orig s) :
    Ok orig (State.groupFault s tile slot c pc cycle) := by
  unfold State.groupFault
  repeat' first
    | with_reducible assumption | intro _ | dsimp only | with_reducible apply ok_ite | with_reducible apply ok_iteP
    | with_reducible apply ok_elim | with_reducible apply ok_elimP | with_reducible apply modTile_ok
    | with_reducible apply faultStepAt_ok | with_reducible apply forfeitTokens_ok | with_reducible apply dropGroup_ok | split

theorem sbStore_ok (s : State) (tile group : Nat) (space : Option Nat) (a cycle : Nat) (bs : List Byte) (part step cls : Nat) (deadline : Option Nat) {orig : State} (ok0 : Ok orig s) :
    Ok orig (State.sbStore s tile group space a cycle bs part step cls deadline) := by
  unfold State.sbStore
  repeat' first
    | with_reducible assumption | intro _ | dsimp only | with_reducible apply ok_ite | with_reducible apply ok_iteP
    | with_reducible apply ok_elim | with_reducible apply ok_elimP | with_reducible apply modTile_ok
    | with_reducible apply fresh_ok | split

/-! ## Machine/GranaryOps.lean -/

theorem modSlice_ok (s : State) (n : Nat) (f : Slice → Slice) {orig : State} (ok0 : Ok orig s) :
    Ok orig (State.modSlice s n f) := by
  unfold State.modSlice
  repeat' first
    | with_reducible assumption | intro _ | dsimp only | with_reducible apply ok_ite | with_reducible apply ok_iteP
    | with_reducible apply ok_elim | with_reducible apply ok_elimP | with_reducible apply modGrn_ok | split

theorem countTie_ok (s : State) (a part : Nat) {orig : State} (ok0 : Ok orig s) :
    Ok orig (countTie s a part) := by
  unfold countTie
  repeat' first
    | with_reducible assumption | intro _ | dsimp only | with_reducible apply ok_ite | with_reducible apply ok_iteP
    | with_reducible apply ok_elim | with_reducible apply ok_elimP | with_reducible apply modSlice_ok | split

theorem modLine_ok (s : State) (line part : Nat) (f : GLine → GLine) {orig : State} (ok0 : Ok orig s) :
    Ok orig (State.modLine s line part f) := by
  unfold State.modLine
  repeat' first
    | with_reducible assumption | intro _ | dsimp only | with_reducible apply ok_ite | with_reducible apply ok_iteP
    | with_reducible apply ok_elim | with_reducible apply ok_elimP | with_reducible apply modGrn_ok | split

theorem dropLine_ok (s : State) (line part : Nat) {orig : State} (ok0 : Ok orig s) :
    Ok orig (State.dropLine s line part) := by
  unfold State.dropLine
  repeat' first
    | with_reducible assumption | intro _ | dsimp only | with_reducible apply ok_ite | with_reducible apply ok_iteP
    | with_reducible apply ok_elim | with_reducible apply ok_elimP | with_reducible apply modGrn_ok | split

theorem touch_ok (s : State) (line part : Nat) {orig : State} (ok0 : Ok orig s) :
    Ok orig (State.touch s line part) := by
  unfold State.touch
  repeat' first
    | with_reducible assumption | intro _ | dsimp only | with_reducible apply ok_ite | with_reducible apply ok_iteP
    | with_reducible apply ok_elim | with_reducible apply ok_elimP | with_reducible apply modGrn_ok
    | with_reducible apply modLine_ok | split

theorem installLine_ok (s : State) (l : GLine) (cls : Nat) {orig : State} (ok0 : Ok orig s) :
    Ok orig (State.installLine s l cls) := by
  unfold State.installLine
  repeat' first
    | with_reducible assumption | intro _ | dsimp only | with_reducible apply ok_ite | with_reducible apply ok_iteP
    | with_reducible apply ok_elim | with_reducible apply ok_elimP | with_reducible apply modGrn_ok | split

theorem queueWrite_ok (s : State) (w : WbWait) (charges : List (Nat × Nat)) {orig : State} (ok0 : Ok orig s) :
    Ok orig (State.queueWrite s w charges) := by
  unfold State.queueWrite
  repeat' first
    | with_reducible assumption | intro _ | dsimp only | with_reducible apply ok_ite | with_reducible apply ok_iteP
    | with_reducible apply ok_elim | with_reducible apply ok_elimP | with_reducible apply fresh_ok
    | with_reducible apply charge_ok | ((with_reducible apply modMem_ok); · intro m; rfl)
    | ((with_reducible apply modMem_ok_wf); · intro m w; rfl) | with_reducible refine each_ok (fun _ _ h => ?_) ?_ | split

theorem evict_ok (s : State) (l : GLine) (master : Nat) (next : AfterWb) {orig : State} (ok0 : Ok orig s) :
    Ok orig (State.evict s l master next) := by
  unfold State.evict
  repeat' first
    | with_reducible assumption | intro _ | dsimp only | with_reducible apply ok_ite | with_reducible apply ok_iteP
    | with_reducible apply ok_elim | with_reducible apply ok_elimP | with_reducible apply queueWrite_ok | split

theorem trackMiss_ok (s : State) (a part : Nat) {orig : State} (ok0 : Ok orig s) :
    Ok orig (trackMiss s a part) := by
  unfold trackMiss
  repeat' first
    | with_reducible assumption | intro _ | dsimp only | with_reducible apply ok_ite | with_reducible apply ok_iteP
    | with_reducible apply ok_elim | with_reducible apply ok_elimP | with_reducible apply modGrn_ok
    | with_reducible apply modSlice_ok | split

theorem trackHit_ok (s : State) (a part : Nat) {orig : State} (ok0 : Ok orig s) :
    Ok orig (trackHit s a part) := by
  unfold trackHit
  repeat' first
    | with_reducible assumption | intro _ | dsimp only | with_reducible apply ok_ite | with_reducible apply ok_iteP
    | with_reducible apply ok_elim | with_reducible apply ok_elimP | with_reducible apply modSlice_ok | split

theorem recordKill_ok (s : State) (line part : Nat) {orig : State} (ok0 : Ok orig s) :
    Ok orig (recordKill s line part) := by
  unfold recordKill
  repeat' first
    | with_reducible assumption | intro _ | dsimp only | with_reducible apply ok_ite | with_reducible apply ok_iteP
    | with_reducible apply ok_elim | with_reducible apply ok_elimP | with_reducible apply take_ok
    | with_reducible apply modSlice_ok | split

theorem killLine_ok (s : State) (line part : Nat) {orig : State} (ok0 : Ok orig s) :
    Ok orig (killLine s line part) := by
  unfold killLine
  repeat' first
    | with_reducible assumption | intro _ | dsimp only | with_reducible apply ok_ite | with_reducible apply ok_iteP
    | with_reducible apply ok_elim | with_reducible apply ok_elimP | with_reducible apply dropLine_ok
    | with_reducible apply recordKill_ok | split

theorem unkill_ok (s : State) (line part : Nat) {orig : State} (ok0 : Ok orig s) :
    Ok orig (unkill s line part) := by
  unfold unkill
  repeat' first
    | with_reducible assumption | intro _ | dsimp only | with_reducible apply ok_ite | with_reducible apply ok_iteP
    | with_reducible apply ok_elim | with_reducible apply ok_elimP | with_reducible apply modSlice_ok | split

theorem noteDeadRead_ok (s : State) (line part : Nat) {orig : State} (ok0 : Ok orig s) :
    Ok orig (noteDeadRead s line part) := by
  unfold noteDeadRead
  repeat' first
    | with_reducible assumption | intro _ | dsimp only | with_reducible apply ok_ite | with_reducible apply ok_iteP
    | with_reducible apply ok_elim | with_reducible apply ok_elimP | with_reducible apply modSlice_ok | split

theorem channelFault_ok (s : State) (line : Nat) (step : Option Nat) {orig : State} (ok0 : Ok orig s) :
    Ok orig (channelFault s line step) := by
  unfold channelFault
  repeat' first
    | with_reducible assumption | intro _ | dsimp only | with_reducible apply ok_ite | with_reducible apply ok_iteP
    | with_reducible apply ok_elim | with_reducible apply ok_elimP | with_reducible apply recordErr_ok
    | with_reducible apply faultStep_ok | with_reducible refine each_ok (fun _ _ h => ?_) ?_ | split

theorem engineAnswer_ok (s : State) (job n line : Nat) (data : List Byte) (code : Option Code) {orig : State} (ok0 : Ok orig s) :
    Ok orig (engineAnswer s job n line data code) := by
  unfold engineAnswer
  repeat' first
    | with_reducible assumption | intro _ | dsimp only | with_reducible apply ok_ite | with_reducible apply ok_iteP
    | with_reducible apply ok_elim | with_reducible apply ok_elimP | with_reducible apply modGrn_ok | split

theorem lateTag_ok (s : State) (r : MemReq) {orig : State} (ok0 : Ok orig s) :
    Ok orig (lateTag s r) := by
  unfold lateTag
  repeat' first
    | with_reducible assumption | intro _ | dsimp only | with_reducible apply ok_ite | with_reducible apply ok_iteP
    | with_reducible apply ok_elim | with_reducible apply ok_elimP | with_reducible apply dlMissed_ok | split

theorem answerRead_ok (s : State) (r : MemReq) (data : List Byte) (poison : Bool) {orig : State} (ok0 : Ok orig s) :
    Ok orig (answerRead s r data poison) := by
  unfold answerRead
  repeat' first
    | with_reducible assumption | intro _ | dsimp only | with_reducible apply ok_ite | with_reducible apply ok_iteP
    | with_reducible apply ok_elim | with_reducible apply ok_elimP | with_reducible apply modTile_ok
    | with_reducible apply faultStep_ok | with_reducible apply writeLocal_ok | with_reducible apply engineAnswer_ok
    | with_reducible apply lateTag_ok | with_reducible refine each_ok (fun _ _ h => ?_) ?_ | split

theorem deadReadFault_ok {s : State} {r : MemReq} {orig : State} (ok0 : Ok orig s) (t : State) (e : deadReadFault s r = some t) : Ok orig t := by
  unfold deadReadFault at e
  repeat' (split at e)
  all_goals first | (simp at e; done) | skip
  · rw [← Option.some.inj e]; exact modTile_ok (groupFault_ok _ _ _ _ _ _ ok0)
  · rw [← Option.some.inj e]; exact faultStep_ok _ _ _ ok0
  · rw [← Option.some.inj e]; exact engineAnswer_ok _ _ _ _ _ _ ok0

theorem ackStore_ok (s : State) (r : MemReq) (lost : Bool) {orig : State} (ok0 : Ok orig s) :
    Ok orig (ackStore s r lost) := by
  unfold ackStore
  repeat' first
    | with_reducible assumption | intro _ | dsimp only | with_reducible apply ok_ite | with_reducible apply ok_iteP
    | with_reducible apply ok_elim | with_reducible apply ok_elimP | with_reducible apply modTrl_ok
    | with_reducible apply modHif_ok | with_reducible apply engineAnswer_ok | with_reducible apply lateTag_ok | split

theorem modMiss_ok (s : State) (line part : Nat) (f : Miss → Miss) {orig : State} (ok0 : Ok orig s) :
    Ok orig (State.modMiss s line part f) := by
  unfold State.modMiss
  repeat' first
    | with_reducible assumption | intro _ | dsimp only | with_reducible apply ok_ite | with_reducible apply ok_iteP
    | with_reducible apply ok_elim | with_reducible apply ok_elimP | with_reducible apply modGrn_ok | split

theorem dropMiss_ok (s : State) (line part : Nat) {orig : State} (ok0 : Ok orig s) :
    Ok orig (State.dropMiss s line part) := by
  unfold State.dropMiss
  repeat' first
    | with_reducible assumption | intro _ | dsimp only | with_reducible apply ok_ite | with_reducible apply ok_iteP
    | with_reducible apply ok_elim | with_reducible apply ok_elimP | with_reducible apply modGrn_ok | split

theorem holdPool_ok (s : State) (r : MemReq) {orig : State} (ok0 : Ok orig s) :
    Ok orig (holdPool s r) := by
  unfold holdPool
  repeat' first
    | with_reducible assumption | intro _ | dsimp only | with_reducible apply ok_ite | with_reducible apply ok_iteP
    | with_reducible apply ok_elim | with_reducible apply ok_elimP | with_reducible apply modGrn_ok
    | with_reducible apply modSlice_ok | split

theorem joinMiss_ok (s : State) (m : Miss) (r : MemReq) {orig : State} (ok0 : Ok orig s) :
    Ok orig (joinMiss s m r) := by
  unfold joinMiss
  repeat' first
    | with_reducible assumption | intro _ | dsimp only | with_reducible apply ok_ite | with_reducible apply ok_iteP
    | with_reducible apply ok_elim | with_reducible apply ok_elimP | with_reducible apply modGrn_ok
    | with_reducible apply modSlice_ok | with_reducible apply channelFault_ok | with_reducible apply answerRead_ok
    | with_reducible apply modMiss_ok | with_reducible apply holdPool_ok | split

theorem takeMiss_ok (s : State) (r : MemReq) {orig : State} (ok0 : Ok orig s) :
    Ok orig (takeMiss s r) := by
  unfold takeMiss
  repeat' first
    | with_reducible assumption | intro _ | dsimp only | with_reducible apply ok_ite | with_reducible apply ok_iteP
    | with_reducible apply ok_elim | with_reducible apply ok_elimP | with_reducible apply modGrn_ok
    | with_reducible apply charge_ok | with_reducible apply countTie_ok | with_reducible apply trackMiss_ok
    | with_reducible apply holdPool_ok | split

theorem readMiss_ok (s : State) (r : MemReq) {orig : State} (ok0 : Ok orig s) :
    Ok orig (readMiss s r) := by
  unfold readMiss
  repeat' first
    | with_reducible assumption | intro _ | dsimp only | with_reducible apply ok_ite | with_reducible apply ok_iteP
    | with_reducible apply ok_elim | with_reducible apply ok_elimP | with_reducible apply joinMiss_ok
    | with_reducible apply takeMiss_ok | split

theorem countGr_ok (s : State) (e : GrEcc) {orig : State} (ok0 : Ok orig s) :
    Ok orig (countGr s e) := by
  unfold countGr
  repeat' first
    | with_reducible assumption | intro _ | dsimp only | with_reducible apply ok_ite | with_reducible apply ok_iteP
    | with_reducible apply ok_elim | with_reducible apply ok_elimP | with_reducible apply modGln_ok | split

theorem lineError_ok (s : State) (l : GLine) {orig : State} (ok0 : Ok orig s) :
    Ok orig (lineError s l) := by
  unfold lineError
  repeat' first
    | with_reducible assumption | intro _ | dsimp only | with_reducible apply ok_ite | with_reducible apply ok_iteP
    | with_reducible apply ok_elim | with_reducible apply ok_elimP | with_reducible apply dropLine_ok
    | with_reducible apply queueWrite_ok | split

theorem deadHint_ok (s : State) (line part : Nat) {orig : State} (ok0 : Ok orig s) :
    Ok orig (deadHint s line part) := by
  unfold deadHint
  repeat' first
    | with_reducible assumption | intro _ | dsimp only | with_reducible apply ok_ite | with_reducible apply ok_iteP
    | with_reducible apply ok_elim | with_reducible apply ok_elimP | with_reducible apply killLine_ok
    | with_reducible apply modMiss_ok | split

theorem readHit_ok (s : State) (l : GLine) (r : MemReq) (ecc : GrEcc) {orig : State} (ok0 : Ok orig s) :
    Ok orig (readHit s l r ecc) := by
  unfold readHit
  repeat' first
    | with_reducible assumption | intro _ | dsimp only | with_reducible apply ok_ite | with_reducible apply ok_iteP
    | with_reducible apply ok_elim | with_reducible apply ok_elimP | with_reducible apply touch_ok
    | with_reducible apply trackHit_ok | with_reducible apply recordKill_ok | with_reducible apply answerRead_ok
    | with_reducible apply readMiss_ok | with_reducible apply countGr_ok | with_reducible apply lineError_ok
    | with_reducible apply deadHint_ok | with_reducible refine when_ok (fun _ h => ?_) ?_ | split

theorem readDirect_ok (s : State) (r : MemReq) {orig : State} (ok0 : Ok orig s) :
    Ok orig (readDirect s r) := by
  unfold readDirect
  repeat' first
    | with_reducible assumption | intro _ | dsimp only | with_reducible apply ok_ite | with_reducible apply ok_iteP
    | with_reducible apply ok_elim | with_reducible apply ok_elimP | with_reducible apply modGrn_ok
    | with_reducible apply charge_ok | split

theorem serveLookup_ok (s : State) (r : MemReq) (ecc : GrEcc) {orig : State} (ok0 : Ok orig s) :
    Ok orig (serveLookup s r ecc) := by
  unfold serveLookup
  repeat' first
    | with_reducible assumption | intro _ | dsimp only | with_reducible apply ok_ite | with_reducible apply ok_iteP
    | with_reducible apply ok_elim | with_reducible apply ok_elimP | with_reducible apply answerRead_ok
    | with_reducible apply readMiss_ok | with_reducible apply readHit_ok | split

theorem serveRead_ok (s : State) (r0 : MemReq) (ecc : GrEcc) {orig : State} (ok0 : Ok orig s) : Ok orig (serveRead s r0 ecc) := by
  unfold serveRead
  have ok1 : Ok orig (demote s r0).1 := demote_ok _ _ ok0
  dsimp only
  generalize demote s r0 = p at ok1
  refine ok_ite (readDirect_ok _ _ ok1) ?_
  generalize wasKilled p.1 p.2.line p.2.part = k
  cases k
  · exact serveLookup_ok _ _ _ ok1
  · have ok2 := noteDeadRead_ok p.1 p.2.line p.2.part ok1
    simp only [if_true]
    split
    · exact deadReadFault_ok ok2 _ (by assumption)
    · exact serveLookup_ok _ _ _ ok2

theorem retryPool_ok (s : State) (n k : Nat) {orig : State} (ok0 : Ok orig s) : Ok orig (retryPool s n k) := by
  induction k generalizing s with
  | zero => exact ok0
  | succ k ih =>
    unfold retryPool
    split
    · exact ok0
    · exact ih _ (serveRead_ok _ _ _ (modGrn_ok ok0))

theorem serveMerged_ok (data : Option (List Byte)) (s : State) (r0 : MemReq) {orig : State} (ok0 : Ok orig s) :
    Ok orig (serveMerged data s r0) := by
  unfold serveMerged
  repeat' first
    | with_reducible assumption | intro _ | dsimp only | with_reducible apply ok_ite | with_reducible apply ok_iteP
    | with_reducible apply ok_elim | with_reducible apply ok_elimP | with_reducible apply demote_ok
    | with_reducible apply recordKill_ok | with_reducible apply answerRead_ok | with_reducible apply readHit_ok
    | with_reducible apply serveRead_ok | with_reducible refine when_ok (fun _ h => ?_) ?_
    | (rename_i e; have e1 := congrArg Prod.fst e; dsimp only at e1; subst e1; clear e) | split

theorem serveHeld_ok (s : State) (line part : Nat) (data : Option (List Byte)) {orig : State} (ok0 : Ok orig s) :
    Ok orig (serveHeld s line part data) := by
  unfold serveHeld
  repeat' first
    | with_reducible assumption | intro _ | dsimp only | with_reducible apply ok_ite | with_reducible apply ok_iteP
    | with_reducible apply ok_elim | with_reducible apply ok_elimP | with_reducible apply modGrn_ok
    | with_reducible apply retryPool_ok | with_reducible apply serveMerged_ok | with_reducible refine each_ok (fun _ _ h => ?_) ?_
    | split

theorem answerWaiters_ok (s : State) (m : Miss) (data : List Byte) {orig : State} (ok0 : Ok orig s) :
    Ok orig (answerWaiters s m data) := by
  unfold answerWaiters
  repeat' first
    | with_reducible assumption | intro _ | dsimp only | with_reducible apply ok_ite | with_reducible apply ok_iteP
    | with_reducible apply ok_elim | with_reducible apply ok_elimP | with_reducible apply answerRead_ok
    | with_reducible refine each_ok (fun _ _ h => ?_) ?_ | split

theorem poisonWaiters_ok (s : State) (m : Miss) {orig : State} (ok0 : Ok orig s) :
    Ok orig (poisonWaiters s m) := by
  unfold poisonWaiters
  repeat' first
    | with_reducible assumption | intro _ | dsimp only | with_reducible apply ok_ite | with_reducible apply ok_iteP
    | with_reducible apply ok_elim | with_reducible apply ok_elimP | with_reducible apply channelFault_ok
    | with_reducible apply answerRead_ok | with_reducible refine each_ok (fun _ _ h => ?_) ?_ | split

theorem keepMiss_ok (s : State) (m : Miss) (data : List Byte) {orig : State} (ok0 : Ok orig s) :
    Ok orig (keepMiss s m data) := by
  unfold keepMiss
  repeat' first
    | with_reducible assumption | intro _ | dsimp only | with_reducible apply ok_ite | with_reducible apply ok_iteP
    | with_reducible apply ok_elim | with_reducible apply ok_elimP | with_reducible apply modMiss_ok
    | with_reducible apply retryPool_ok | split

theorem forwardStores_ok (s : State) (m : Miss) {orig : State} (ok0 : Ok orig s) :
    Ok orig (forwardStores s m) := by
  unfold forwardStores
  repeat' first
    | with_reducible assumption | intro _ | dsimp only | with_reducible apply ok_ite | with_reducible apply ok_iteP
    | with_reducible apply ok_elim | with_reducible apply ok_elimP | with_reducible apply queueWrite_ok
    | with_reducible apply evict_ok | split

theorem doneMiss_ok (s : State) (m : Miss) (data : Option (List Byte)) {orig : State} (ok0 : Ok orig s) :
    Ok orig (doneMiss s m data) := by
  unfold doneMiss
  repeat' first
    | with_reducible assumption | intro _ | dsimp only | with_reducible apply ok_ite | with_reducible apply ok_iteP
    | with_reducible apply ok_elim | with_reducible apply ok_elimP | with_reducible apply dropMiss_ok
    | with_reducible apply serveHeld_ok | split

theorem finishFill_ok (s : State) (m : Miss) (data : List Byte) {orig : State} (ok0 : Ok orig s) :
    Ok orig (finishFill s m data) := by
  unfold finishFill
  repeat' first
    | with_reducible assumption | intro _ | dsimp only | with_reducible apply ok_ite | with_reducible apply ok_iteP
    | with_reducible apply ok_elim | with_reducible apply ok_elimP | with_reducible apply modLine_ok
    | with_reducible apply dropLine_ok | with_reducible apply touch_ok | with_reducible apply installLine_ok
    | with_reducible apply evict_ok | with_reducible apply recordKill_ok | with_reducible apply killLine_ok
    | with_reducible apply answerWaiters_ok | with_reducible apply keepMiss_ok | with_reducible apply forwardStores_ok
    | with_reducible apply doneMiss_ok | with_reducible refine when_ok (fun _ h => ?_) ?_ | split

theorem poisonFill_ok (s : State) (m : Miss) {orig : State} (ok0 : Ok orig s) :
    Ok orig (poisonFill s m) := by
  unfold poisonFill
  repeat' first
    | with_reducible assumption | intro _ | dsimp only | with_reducible apply ok_ite | with_reducible apply ok_iteP
    | with_reducible apply ok_elim | with_reducible apply ok_elimP | with_reducible apply recordKill_ok
    | with_reducible apply modMiss_ok | with_reducible apply poisonWaiters_ok | with_reducible apply keepMiss_ok
    | with_reducible apply forwardStores_ok | with_reducible apply doneMiss_ok | with_reducible refine when_ok (fun _ h => ?_) ?_
    | split

theorem fillArrives_ok (s : State) (m : Miss) (found : List Burst) {orig : State} (ok0 : Ok orig s) :
    Ok orig (fillArrives s m found) := by
  unfold fillArrives
  repeat' first
    | with_reducible assumption | intro _ | dsimp only | with_reducible apply ok_ite | with_reducible apply ok_iteP
    | with_reducible apply ok_elim | with_reducible apply ok_elimP | with_reducible apply eccCount_ok
    | with_reducible apply finishFill_ok | with_reducible apply poisonFill_ok | split

theorem directEnds_ok (s : State) (d : Direct) (data : List Byte) (poison : Bool) {orig : State} (ok0 : Ok orig s) :
    Ok orig (directEnds s d data poison) := by
  unfold directEnds
  repeat' first
    | with_reducible assumption | intro _ | dsimp only | with_reducible apply ok_ite | with_reducible apply ok_iteP
    | with_reducible apply ok_elim | with_reducible apply ok_elimP | with_reducible apply modGrn_ok
    | with_reducible apply channelFault_ok | with_reducible apply answerRead_ok | with_reducible refine when_ok (fun _ h => ?_) ?_
    | split

theorem directArrives_ok (s : State) (d : Direct) (found : List Burst) {orig : State} (ok0 : Ok orig s) :
    Ok orig (directArrives s d found) := by
  unfold directArrives
  repeat' first
    | with_reducible assumption | intro _ | dsimp only | with_reducible apply ok_ite | with_reducible apply ok_iteP
    | with_reducible apply ok_elim | with_reducible apply ok_elimP | with_reducible apply eccCount_ok
    | with_reducible apply directEnds_ok | split

theorem forward_ok (s : State) (r : MemReq) (mask : BitVec 256) {orig : State} (ok0 : Ok orig s) :
    Ok orig (State.forward s r mask) := by
  unfold State.forward
  repeat' first
    | with_reducible assumption | intro _ | dsimp only | with_reducible apply ok_ite | with_reducible apply ok_iteP
    | with_reducible apply ok_elim | with_reducible apply ok_elimP | with_reducible apply queueWrite_ok
    | with_reducible apply evict_ok | split

theorem poisonedStore_ok (s : State) (r : MemReq) {orig : State} (ok0 : Ok orig s) :
    Ok orig (poisonedStore s r) := by
  unfold poisonedStore
  repeat' first
    | with_reducible assumption | intro _ | dsimp only | with_reducible apply ok_ite | with_reducible apply ok_iteP
    | with_reducible apply ok_elim | with_reducible apply ok_elimP | with_reducible apply modLine_ok
    | with_reducible apply forward_ok | split

theorem storeHit_ok (s : State) (r : MemReq) {orig : State} (ok0 : Ok orig s) :
    Ok orig (storeHit s r) := by
  unfold storeHit
  repeat' first
    | with_reducible assumption | intro _ | dsimp only | with_reducible apply ok_ite | with_reducible apply ok_iteP
    | with_reducible apply ok_elim | with_reducible apply ok_elimP | with_reducible apply modLine_ok
    | with_reducible apply touch_ok | split

theorem storeMiss_ok (s : State) (r : MemReq) {orig : State} (ok0 : Ok orig s) :
    Ok orig (storeMiss s r) := by
  unfold storeMiss
  repeat' first
    | with_reducible assumption | intro _ | dsimp only | with_reducible apply ok_ite | with_reducible apply ok_iteP
    | with_reducible apply ok_elim | with_reducible apply ok_elimP | with_reducible apply countTie_ok
    | with_reducible apply dropLine_ok | with_reducible apply installLine_ok | with_reducible apply evict_ok
    | with_reducible apply ackStore_ok | with_reducible apply forward_ok | split

theorem serveStore_ok (s : State) (r0 : MemReq) {orig : State} (ok0 : Ok orig s) :
    Ok orig (serveStore s r0) := by
  unfold serveStore
  repeat' first
    | with_reducible assumption | intro _ | dsimp only | with_reducible apply ok_ite | with_reducible apply ok_iteP
    | with_reducible apply ok_elim | with_reducible apply ok_elimP | with_reducible apply demote_ok
    | with_reducible apply unkill_ok | with_reducible apply ackStore_ok | with_reducible apply modMiss_ok
    | with_reducible apply forward_ok | with_reducible apply poisonedStore_ok | with_reducible apply storeHit_ok
    | with_reducible apply storeMiss_ok | (rename_i e; have e1 := congrArg Prod.fst e; dsimp only at e1; subst e1; clear e)
    | split

theorem mergeHome_ok (s : State) (r : MemReq) {orig : State} (ok0 : Ok orig s) :
    Ok orig (mergeHome s r) := by
  unfold mergeHome
  repeat' first
    | with_reducible assumption | intro _ | dsimp only | with_reducible apply ok_ite | with_reducible apply ok_iteP
    | with_reducible apply ok_elim | with_reducible apply ok_elimP | with_reducible apply modLine_ok
    | with_reducible apply modMiss_ok | split

theorem afterGrant_ok (s : State) (w : WbWait) {orig : State} (ok0 : Ok orig s) :
    Ok orig (afterGrant s w) := by
  unfold afterGrant
  repeat' first
    | with_reducible assumption | intro _ | dsimp only | with_reducible apply ok_ite | with_reducible apply ok_iteP
    | with_reducible apply ok_elim | with_reducible apply ok_elimP | with_reducible apply evict_ok
    | with_reducible apply channelFault_ok | with_reducible apply ackStore_ok | with_reducible apply answerWaiters_ok
    | with_reducible apply poisonWaiters_ok | with_reducible apply doneMiss_ok | with_reducible apply finishFill_ok
    | with_reducible apply serveStore_ok | with_reducible apply mergeHome_ok | with_reducible refine each_ok (fun _ _ h => ?_) ?_
    | split

theorem drainWrite_ok (s : State) (w : WbWait) (found : List Burst) {orig : State} (ok0 : Ok orig s) :
    Ok orig (drainWrite s w found) := by
  unfold drainWrite
  repeat' first
    | with_reducible assumption | intro _ | dsimp only | with_reducible apply ok_ite | with_reducible apply ok_iteP
    | with_reducible apply ok_elim | with_reducible apply ok_elimP | with_reducible apply modGrn_ok
    | with_reducible apply mergeLine_ok | with_reducible apply evict_ok | with_reducible apply afterGrant_ok | split

theorem grantWrite_ok (s : State) (w : WbWait) (found : List Burst) {orig : State} (ok0 : Ok orig s) :
    Ok orig (grantWrite s w found) := by
  unfold grantWrite
  repeat' first
    | with_reducible assumption | intro _ | dsimp only | with_reducible apply ok_ite | with_reducible apply ok_iteP
    | with_reducible apply ok_elim | with_reducible apply ok_elimP | with_reducible apply afterGrant_ok
    | with_reducible apply drainWrite_ok | ((with_reducible apply modMem_ok); · intro m; rfl)
    | ((with_reducible apply modMem_ok_wf); · intro m w; rfl) | split

theorem drainBuffers_ok (s : State) (t : Nat) {orig : State} (ok0 : Ok orig s) :
    Ok orig (drainBuffers s t) := by
  unfold drainBuffers
  repeat' first
    | with_reducible assumption | intro _ | dsimp only | with_reducible apply ok_ite | with_reducible apply ok_iteP
    | with_reducible apply ok_elim | with_reducible apply ok_elimP | with_reducible apply mergeLine_ok
    | ((with_reducible apply modMem_ok); · intro m; rfl) | ((with_reducible apply modMem_ok_wf); · intro m w; rfl)
    | with_reducible refine each_ok (fun _ _ h => ?_) ?_ | split

theorem flush_ok (s : State) (line : Nat) (mask : BitVec 256) (data : List Byte) (poisoned : Bool) {orig : State} (ok0 : Ok orig s) :
    Ok orig (State.flush s line mask data poisoned) := by
  unfold State.flush
  repeat' first
    | with_reducible assumption | intro _ | dsimp only | with_reducible apply ok_ite | with_reducible apply ok_iteP
    | with_reducible apply ok_elim | with_reducible apply ok_elimP | with_reducible apply mergeLine_ok
    | with_reducible apply evict_ok | ((with_reducible apply modMem_ok); · intro m; rfl)
    | ((with_reducible apply modMem_ok_wf); · intro m w; rfl) | split

theorem access_ok (s : State) (who : Who) (a n : Nat) (bytes : Option (List Byte)) {orig : State} (ok0 : Ok orig s) :
    Ok orig (State.access s who a n bytes).1 := by
  unfold State.access
  repeat' first
    | with_reducible assumption | intro _ | dsimp only | with_reducible apply ok_ite | with_reducible apply ok_iteP
    | with_reducible apply ok_elim | with_reducible apply ok_elimP | with_reducible apply modGrn_ok | split

theorem rd_ok (s : State) (who : Who) (a n : Nat) {orig : State} (ok0 : Ok orig s) :
    Ok orig (State.rd s who a n).1 := by
  unfold State.rd
  repeat' first
    | with_reducible assumption | intro _ | dsimp only | with_reducible apply ok_ite | with_reducible apply ok_iteP
    | with_reducible apply ok_elim | with_reducible apply ok_elimP | with_reducible apply access_ok
    | (rename_i e; have e1 := congrArg Prod.fst e; dsimp only at e1; subst e1; clear e) | split

theorem wr_ok (s : State) (who : Who) (a : Nat) (bs : List Byte) {orig : State} (ok0 : Ok orig s) :
    Ok orig (State.wr s who a bs).1 := by
  unfold State.wr
  repeat' first
    | with_reducible assumption | intro _ | dsimp only | with_reducible apply ok_ite | with_reducible apply ok_iteP
    | with_reducible apply ok_elim | with_reducible apply ok_elimP | with_reducible apply access_ok
    | (rename_i e; have e1 := congrArg Prod.fst e; dsimp only at e1; subst e1; clear e) | split

theorem makeAccess_ok (s : State) (job : Nat) (acc : EngAcc) {orig : State} (ok0 : Ok orig s) :
    Ok orig (makeAccess s job acc) := by
  unfold makeAccess
  repeat' first
    | with_reducible assumption | intro _ | dsimp only | with_reducible apply ok_ite | with_reducible apply ok_iteP
    | with_reducible apply ok_elim | with_reducible apply ok_elimP | with_reducible apply modGrn_ok
    | with_reducible apply fresh_ok | with_reducible apply serveRead_ok | with_reducible apply serveStore_ok
    | with_reducible refine each_ok (fun _ _ h => ?_) ?_ | split

theorem jobOver_ok (s : State) (job : Nat) {orig : State} (ok0 : Ok orig s) :
    Ok orig (State.jobOver s job) := by
  unfold State.jobOver
  repeat' first
    | with_reducible assumption | intro _ | dsimp only | with_reducible apply ok_ite | with_reducible apply ok_iteP
    | with_reducible apply ok_elim | with_reducible apply ok_elimP | with_reducible apply modGrn_ok | split

/-- A job goes on through what its own function and its accesses do. -/
theorem tryJob_ok (job : Nat) (f : State → State) (k : Nat) (s : State) {orig : State} (kf : ∀ s, Ok orig s → Ok orig (f s)) (ok0 : Ok orig s) :
    Ok orig (tryJob job f k s) := by
  induction k generalizing s with
  | zero => exact ok0
  | succ k ih =>
    unfold tryJob
    dsimp only
    split
    · exact jobOver_ok _ _ (kf _ (modGrn_ok ok0))
    · exact ok_ite (ih _ (makeAccess_ok _ _ _ ok0)) (makeAccess_ok _ _ _ ok0)

theorem post_ok (s : State) (j : EngJob) {orig : State} (ok0 : Ok orig s) :
    Ok orig (State.post s j) := by
  unfold State.post
  repeat' first
    | with_reducible assumption | intro _ | dsimp only | with_reducible apply ok_ite | with_reducible apply ok_iteP
    | with_reducible apply ok_elim | with_reducible apply ok_elimP | with_reducible apply modGrn_ok
    | with_reducible apply fresh_ok | split

theorem postOnce_ok (s : State) (j : EngJob) {orig : State} (ok0 : Ok orig s) :
    Ok orig (State.postOnce s j) := by
  unfold State.postOnce
  repeat' first
    | with_reducible assumption | intro _ | dsimp only | with_reducible apply ok_ite | with_reducible apply ok_iteP
    | with_reducible apply ok_elim | with_reducible apply ok_elimP | with_reducible apply post_ok | split

theorem dropJobs_ok (s : State) (p : EngJob → Bool) {orig : State} (ok0 : Ok orig s) :
    Ok orig (State.dropJobs s p) := by
  unfold State.dropJobs
  repeat' first
    | with_reducible assumption | intro _ | dsimp only | with_reducible apply ok_ite | with_reducible apply ok_iteP
    | with_reducible apply ok_elim | with_reducible apply ok_elimP | with_reducible apply modGrn_ok | split

theorem dropWalks_ok (s : State) (p : Walk → Bool) {orig : State} (ok0 : Ok orig s) :
    Ok orig (State.dropWalks s p) := by
  unfold State.dropWalks
  repeat' first
    | with_reducible assumption | intro _ | dsimp only | with_reducible apply ok_ite | with_reducible apply ok_iteP
    | with_reducible apply ok_elim | with_reducible apply ok_elimP | with_reducible apply modSrv_ok
    | with_reducible apply dropJobs_ok | split

end Sys2Proof.Laws
end

