-- ==== Sys2Proof/Laws/OkCompute.lean ====
section
/-! SUPPORT. What `Ok` says of operands, the tiles' instructions, the step operations, the Trellis, serving and the host port: one lemma for each. -/

namespace Sys2Proof.Laws

open Sys2Proof Sys2Proof.Machine

/-! ## Machine/Operands.lean -/

theorem fetch_ok (s : State) (tile slot : Nat) {orig : State} (ok0 : Ok orig s) :
    Ok orig (State.fetch s tile slot) := by
  unfold State.fetch
  repeat' first
    | with_reducible assumption | intro _ | dsimp only | with_reducible apply ok_ite | with_reducible apply ok_iteP
    | with_reducible apply ok_elim | with_reducible apply ok_elimP | with_reducible apply modTile_ok
    | with_reducible apply modGroup_ok | split

theorem fetched_ok (s : State) (tile : Nat) {orig : State} (ok0 : Ok orig s) :
    Ok orig (State.fetched s tile) := by
  unfold State.fetched
  repeat' first
    | with_reducible assumption | intro _ | dsimp only | with_reducible apply ok_ite | with_reducible apply ok_iteP
    | with_reducible apply ok_elim | with_reducible apply ok_elimP | with_reducible apply modGroup_ok
    | with_reducible refine each_ok (fun _ _ h => ?_) ?_ | split

theorem issued_ok (s : State) (tile slot cycle cost : Nat) {orig : State} (ok0 : Ok orig s) :
    Ok orig (State.issued s tile slot cycle cost) := by
  unfold State.issued
  repeat' first
    | with_reducible assumption | intro _ | dsimp only | with_reducible apply ok_ite | with_reducible apply ok_iteP
    | with_reducible apply ok_elim | with_reducible apply ok_elimP | with_reducible apply modTile_ok | split

theorem faultAt_ok (s : State) (tile slot cycle : Nat) (c : Code) {orig : State} (ok0 : Ok orig s) :
    Ok orig (faultAt s tile slot cycle c) := by
  unfold faultAt
  repeat' first
    | with_reducible assumption | intro _ | dsimp only | with_reducible apply ok_ite | with_reducible apply ok_iteP
    | with_reducible apply ok_elim | with_reducible apply ok_elimP | with_reducible apply groupFault_ok
    | with_reducible apply issued_ok | split

/-! ## Machine/TilesCompute.lean -/

theorem retire_ok (s : State) (tile slot cycle cost : Nat) (f : Group → Group) {orig : State} (ok0 : Ok orig s) :
    Ok orig (State.retire s tile slot cycle cost f) := by
  unfold State.retire
  repeat' first
    | with_reducible assumption | intro _ | dsimp only | with_reducible apply ok_ite | with_reducible apply ok_iteP
    | with_reducible apply ok_elim | with_reducible apply ok_elimP | with_reducible apply modGroup_ok
    | with_reducible apply fetch_ok | with_reducible apply issued_ok | split

theorem execAluInstr_ok (tile : Tile) (slot : GSlot) (cycle : Nat) (legal : Bool) (s : State) : ∀ t, execAluInstr tile slot cycle legal s = .next t → Ok s t := by
  intro t h
  have e : t = _ := (Host.Outcome.next.inj h).symm
  rw [e]; clear e h
  have ok0 : Ok s s := ok_refl _
  repeat' first
    | with_reducible assumption | intro _ | dsimp only | with_reducible apply ok_ite | with_reducible apply ok_iteP
    | with_reducible apply ok_elim | with_reducible apply ok_elimP | with_reducible apply faultAt_ok
    | with_reducible apply retire_ok | split

theorem execConvertInstr_ok (tile : Tile) (slot : GSlot) (cycle : Nat) (legal : Bool) (s : State) : ∀ t, execConvertInstr tile slot cycle legal s = .next t → Ok s t := by
  intro t h
  have e : t = _ := (Host.Outcome.next.inj h).symm
  rw [e]; clear e h
  have ok0 : Ok s s := ok_refl _
  repeat' first
    | with_reducible assumption | intro _ | dsimp only | with_reducible apply ok_ite | with_reducible apply ok_iteP
    | with_reducible apply ok_elim | with_reducible apply ok_elimP | with_reducible apply faultAt_ok
    | with_reducible apply retire_ok | split

theorem execControlInstr_ok (tile : Tile) (slot : GSlot) (cycle : Nat) (legal : Bool) (kind : ControlKind) (s : State) : ∀ t, execControlInstr tile slot cycle legal kind s = .next t → Ok s t := by
  intro t h
  have e : t = _ := (Host.Outcome.next.inj h).symm
  rw [e]; clear e h
  have ok0 : Ok s s := ok_refl _
  repeat' first
    | with_reducible assumption | intro _ | dsimp only | with_reducible apply ok_ite | with_reducible apply ok_iteP
    | with_reducible apply ok_elim | with_reducible apply ok_elimP | with_reducible apply modGroup_ok
    | with_reducible apply fetch_ok | with_reducible apply issued_ok | with_reducible apply faultAt_ok | split

theorem execMxeMma_ok (tile : Tile) (slot : GSlot) (cycle : Nat) (legal : Bool) (s : State) : ∀ t, execMxeMma tile slot cycle legal s = .next t → Ok s t := by
  intro t h
  have e : t = _ := (Host.Outcome.next.inj h).symm
  rw [e]; clear e h
  have ok0 : Ok s s := ok_refl _
  repeat' first
    | with_reducible assumption | intro _ | dsimp only | with_reducible apply ok_ite | with_reducible apply ok_iteP
    | with_reducible apply ok_elim | with_reducible apply ok_elimP | with_reducible apply modTile_ok
    | with_reducible apply faultAt_ok | with_reducible apply retire_ok | split

theorem execMxeSt_ok (tile : Tile) (slot : GSlot) (cycle : Nat) (legal fp32 : Bool) (s : State) : ∀ t, execMxeSt tile slot cycle legal fp32 s = .next t → Ok s t := by
  intro t h
  have e : t = _ := (Host.Outcome.next.inj h).symm
  rw [e]; clear e h
  have ok0 : Ok s s := ok_refl _
  repeat' first
    | with_reducible assumption | intro _ | dsimp only | with_reducible apply ok_ite | with_reducible apply ok_iteP
    | with_reducible apply ok_elim | with_reducible apply ok_elimP | with_reducible apply modTile_ok
    | with_reducible apply faultAt_ok | with_reducible apply retire_ok | split

theorem execLocalLoad_ok (tile : Tile) (slot : GSlot) (cycle : Nat) (legal : Bool) (s : State) : ∀ t, execLocalLoad tile slot cycle legal s = .next t → Ok s t := by
  intro t h
  have e : t = _ := (Host.Outcome.next.inj h).symm
  rw [e]; clear e h
  have ok0 : Ok s s := ok_refl _
  repeat' first
    | with_reducible assumption | intro _ | dsimp only | with_reducible apply ok_ite | with_reducible apply ok_iteP
    | with_reducible apply ok_elim | with_reducible apply ok_elimP | with_reducible apply mxeUpTo_ok
    | with_reducible apply faultAt_ok | with_reducible apply retire_ok | with_reducible refine ok_foldl (fun _ _ h => ?_) _ ?_
    | with_reducible refine ok_foldlP (fun v => v.1) (fun _ _ h => ?_) _ ?_ | split

theorem execLocalStore_ok (tile : Tile) (slot : GSlot) (cycle : Nat) (legal : Bool) (s : State) : ∀ t, execLocalStore tile slot cycle legal s = .next t → Ok s t := by
  intro t h
  have e : t = _ := (Host.Outcome.next.inj h).symm
  rw [e]; clear e h
  have ok0 : Ok s s := ok_refl _
  repeat' first
    | with_reducible assumption | intro _ | dsimp only | with_reducible apply ok_ite | with_reducible apply ok_iteP
    | with_reducible apply ok_elim | with_reducible apply ok_elimP | with_reducible apply hold_ok
    | with_reducible apply modGroup_ok | with_reducible apply sbStore_ok | with_reducible apply faultAt_ok
    | with_reducible apply retire_ok | with_reducible refine each_ok (fun _ _ h => ?_) ?_ | split

theorem execDeviceLoad_ok (tile : Tile) (slot : GSlot) (cycle : Nat) (legal : Bool) (s : State) : ∀ t, execDeviceLoad tile slot cycle legal s = .next t → Ok s t := by
  intro t h
  have e : t = _ := (Host.Outcome.next.inj h).symm
  rw [e]; clear e h
  have ok0 : Ok s s := ok_refl _
  repeat' first
    | with_reducible assumption | intro _ | dsimp only | with_reducible apply ok_ite | with_reducible apply ok_iteP
    | with_reducible apply ok_elim | with_reducible apply ok_elimP | with_reducible apply modNextId_ok
    | with_reducible apply modTile_ok | with_reducible apply modGrn_ok | with_reducible apply faultAt_ok
    | with_reducible apply retire_ok | with_reducible refine ok_foldl (fun _ _ h => ?_) _ ?_
    | with_reducible refine ok_foldlP (fun v => v.1) (fun _ _ h => ?_) _ ?_ | split

theorem execDeviceStore_ok (tile : Tile) (slot : GSlot) (cycle : Nat) (legal : Bool) (s : State) : ∀ t, execDeviceStore tile slot cycle legal s = .next t → Ok s t := by
  intro t h
  have e : t = _ := (Host.Outcome.next.inj h).symm
  rw [e]; clear e h
  have ok0 : Ok s s := ok_refl _
  repeat' first
    | with_reducible assumption | intro _ | dsimp only | with_reducible apply ok_ite | with_reducible apply ok_iteP
    | with_reducible apply ok_elim | with_reducible apply ok_elimP | with_reducible apply hold_ok
    | with_reducible apply modGroup_ok | with_reducible apply sbStore_ok | with_reducible apply faultAt_ok
    | with_reducible apply retire_ok | with_reducible refine each_ok (fun _ _ h => ?_) ?_ | split

/-! ## Machine/TilesOrder.lean -/

theorem settleHolds_ok (s : State) (tile : Nat) {orig : State} (ok0 : Ok orig s) :
    Ok orig (settleHolds s tile) := by
  unfold settleHolds
  repeat' first
    | with_reducible assumption | intro _ | dsimp only | with_reducible apply ok_ite | with_reducible apply ok_iteP
    | with_reducible apply ok_elim | with_reducible apply ok_elimP | with_reducible apply hold_ok
    | with_reducible apply modGroup_ok | with_reducible refine each_ok (fun _ _ h => ?_) ?_ | split

theorem fenceAt_ok (s : State) (tile slot cycle : Nat) (op : Nat) (h : Hold) {orig : State} (ok0 : Ok orig s) :
    Ok orig (fenceAt s tile slot cycle op h) := by
  unfold fenceAt
  repeat' first
    | with_reducible assumption | intro _ | dsimp only | with_reducible apply ok_ite | with_reducible apply ok_iteP
    | with_reducible apply ok_elim | with_reducible apply ok_elimP | with_reducible apply hold_ok
    | with_reducible apply faultAt_ok | with_reducible apply retire_ok | with_reducible apply settleHolds_ok | split

theorem execFenceL_ok (tile : Tile) (slot : GSlot) (cycle : Nat) (s : State) : ∀ t, execFenceL tile slot cycle s = .next t → Ok s t := by
  intro t h
  have e : t = _ := (Host.Outcome.next.inj h).symm
  rw [e]; clear e h
  have ok0 : Ok s s := ok_refl _
  repeat' first
    | with_reducible assumption | intro _ | dsimp only | with_reducible apply ok_ite | with_reducible apply ok_iteP
    | with_reducible apply ok_elim | with_reducible apply ok_elimP | with_reducible apply fenceAt_ok | split

theorem execFenceD_ok (tile : Tile) (slot : GSlot) (cycle : Nat) (s : State) : ∀ t, execFenceD tile slot cycle s = .next t → Ok s t := by
  intro t h
  have e : t = _ := (Host.Outcome.next.inj h).symm
  rw [e]; clear e h
  have ok0 : Ok s s := ok_refl _
  repeat' first
    | with_reducible assumption | intro _ | dsimp only | with_reducible apply ok_ite | with_reducible apply ok_iteP
    | with_reducible apply ok_elim | with_reducible apply ok_elimP | with_reducible apply fenceAt_ok | split

theorem acquire_ok (s : State) (t : Nat) (r : TokenReq) {orig : State} (ok0 : Ok orig s) :
    Ok orig (acquire s t r) := by
  unfold acquire
  repeat' first
    | with_reducible assumption | intro _ | dsimp only | with_reducible apply ok_ite | with_reducible apply ok_iteP
    | with_reducible apply ok_elim | with_reducible apply ok_elimP | with_reducible apply tokenStatus_ok
    | with_reducible apply grantToken_ok | split

theorem awaitToken_ok (s : State) (t : Nat) (r : TokenReq) {orig : State} (ok0 : Ok orig s) :
    Ok orig (awaitToken s t r) := by
  unfold awaitToken
  repeat' first
    | with_reducible assumption | intro _ | dsimp only | with_reducible apply ok_ite | with_reducible apply ok_iteP
    | with_reducible apply ok_elim | with_reducible apply ok_elimP | with_reducible apply modTile_ok
    | with_reducible apply hold_ok | with_reducible apply modGroup_ok | split

theorem serveReq_ok (t : Nat) (s : State) (r : TokenReq) {orig : State} (ok0 : Ok orig s) :
    Ok orig (serveReq t s r) := by
  unfold serveReq
  repeat' first
    | with_reducible assumption | intro _ | dsimp only | with_reducible apply ok_ite | with_reducible apply ok_iteP
    | with_reducible apply ok_elim | with_reducible apply ok_elimP | with_reducible apply setToken_ok
    | with_reducible apply tokenStatus_ok | with_reducible apply serveToken_ok | with_reducible apply acquire_ok
    | with_reducible apply awaitToken_ok | split

theorem undoTurn_ok (s : State) (u : TokenTurn) {orig : State} (ok0 : Ok orig s) :
    Ok orig (undoTurn s u) := by
  unfold undoTurn
  repeat' first
    | with_reducible assumption | intro _ | dsimp only | with_reducible apply ok_ite | with_reducible apply ok_iteP
    | with_reducible apply ok_elim | with_reducible apply ok_elimP | with_reducible apply modTile_ok
    | with_reducible apply hold_ok | with_reducible apply modGroup_ok | with_reducible apply setToken_ok
    | with_reducible refine each_ok (fun _ _ h => ?_) ?_ | split

theorem serveTurn_ok (s : State) (t cycle lat : Nat) (r : TokenReq) {orig : State} (ok0 : Ok orig s) :
    Ok orig (serveTurn s t cycle lat r) := by
  unfold serveTurn
  repeat' first
    | with_reducible assumption | intro _ | dsimp only | with_reducible apply ok_ite | with_reducible apply ok_iteP
    | with_reducible apply ok_elim | with_reducible apply ok_elimP | with_reducible apply modTile_ok
    | with_reducible apply serveReq_ok | with_reducible apply undoTurn_ok | with_reducible refine each_ok (fun _ _ h => ?_) ?_
    | split

theorem tokenAt_ok (s : State) (tile slot cycle op : Nat) (eff : State → Group → Nat → Nat → Nat → State) {orig : State} (heff : ∀ s x1 x2 x3 x4, Ok orig s → Ok orig (eff s x1 x2 x3 x4)) (ok0 : Ok orig s) :
    Ok orig (tokenAt s tile slot cycle op eff) := by
  unfold tokenAt
  repeat' first
    | with_reducible assumption | intro _ | dsimp only | with_reducible apply ok_ite | with_reducible apply ok_iteP
    | with_reducible apply ok_elim | with_reducible apply ok_elimP | with_reducible apply faultAt_ok
    | with_reducible apply retire_ok | with_reducible apply heff | split

theorem tokenRetire_ok (s : State) (tile slot cycle : Nat) (g : Group) (w t : Nat) {orig : State} (ok0 : Ok orig s) :
    Ok orig (tokenRetire s tile slot cycle g w t) := by
  unfold tokenRetire
  repeat' first
    | with_reducible assumption | intro _ | dsimp only | with_reducible apply ok_ite | with_reducible apply ok_iteP
    | with_reducible apply ok_elim | with_reducible apply ok_elimP | with_reducible apply modTile_ok
    | with_reducible apply retire_ok | split

theorem tokenGo_ok (s : State) (tile slot cycle : Nat) (g : Group) (w t : Nat) (op : TokenOp) (limit : Option Nat) {orig : State} (ok0 : Ok orig s) :
    Ok orig (tokenGo s tile slot cycle g w t op limit) := by
  unfold tokenGo
  repeat' first
    | with_reducible assumption | intro _ | dsimp only | with_reducible apply ok_ite | with_reducible apply ok_iteP
    | with_reducible apply ok_elim | with_reducible apply ok_elimP | with_reducible apply tokenStatus_ok
    | with_reducible apply serveTurn_ok | with_reducible apply tokenRetire_ok | split

theorem execTokenAcq_ok (tile : Tile) (slot : GSlot) (cycle : Nat) (s : State) : ∀ t, execTokenAcq tile slot cycle s = .next t → Ok s t := by
  intro t h
  have e : t = _ := (Host.Outcome.next.inj h).symm
  rw [e]; clear e h
  have ok0 : Ok s s := ok_refl _
  repeat' first
    | with_reducible assumption | intro _ | dsimp only | with_reducible apply ok_ite | with_reducible apply ok_iteP
    | with_reducible apply ok_elim | with_reducible apply ok_elimP | with_reducible apply tokenAt_ok
    | with_reducible apply tokenGo_ok | split

theorem execTokenWait_ok (tile : Tile) (slot : GSlot) (cycle : Nat) (s : State) : ∀ t, execTokenWait tile slot cycle s = .next t → Ok s t := by
  intro t h
  have e : t = _ := (Host.Outcome.next.inj h).symm
  rw [e]; clear e h
  have ok0 : Ok s s := ok_refl _
  repeat' first
    | with_reducible assumption | intro _ | dsimp only | with_reducible apply ok_ite | with_reducible apply ok_iteP
    | with_reducible apply ok_elim | with_reducible apply ok_elimP | with_reducible apply faultAt_ok
    | with_reducible apply tokenAt_ok | with_reducible apply tokenGo_ok | split

theorem execTokenRel_ok (tile : Tile) (slot : GSlot) (cycle : Nat) (s : State) : ∀ t, execTokenRel tile slot cycle s = .next t → Ok s t := by
  intro t h
  have e : t = _ := (Host.Outcome.next.inj h).symm
  rw [e]; clear e h
  have ok0 : Ok s s := ok_refl _
  repeat' first
    | with_reducible assumption | intro _ | dsimp only | with_reducible apply ok_ite | with_reducible apply ok_iteP
    | with_reducible apply ok_elim | with_reducible apply ok_elimP | with_reducible apply hold_ok
    | with_reducible apply release_ok | with_reducible apply modGroup_ok | with_reducible apply faultAt_ok
    | with_reducible apply tokenAt_ok | with_reducible apply tokenGo_ok | split

theorem execTokenWaitLimit_ok (tile : Tile) (slot : GSlot) (cycle : Nat) (s : State) : ∀ t, execTokenWaitLimit tile slot cycle s = .next t → Ok s t := by
  intro t h
  have e : t = _ := (Host.Outcome.next.inj h).symm
  rw [e]; clear e h
  have ok0 : Ok s s := ok_refl _
  repeat' first
    | with_reducible assumption | intro _ | dsimp only | with_reducible apply ok_ite | with_reducible apply ok_iteP
    | with_reducible apply ok_elim | with_reducible apply ok_elimP | with_reducible apply modTile_ok
    | with_reducible apply hold_ok | with_reducible apply modGroup_ok | with_reducible apply tokenStatus_ok | split

theorem execGroupExit_ok (tile : Tile) (slot : GSlot) (s : State) : ∀ t, execGroupExit tile slot s = .next t → Ok s t := by
  intro t h
  have e : t = _ := (Host.Outcome.next.inj h).symm
  rw [e]; clear e h
  have ok0 : Ok s s := ok_refl _
  repeat' first
    | with_reducible assumption | intro _ | dsimp only | with_reducible apply ok_ite | with_reducible apply ok_iteP
    | with_reducible apply ok_elim | with_reducible apply ok_elimP | with_reducible apply modTile_ok
    | with_reducible apply modStep_ok | with_reducible apply forfeitTokens_ok | with_reducible apply dropGroup_ok | split

theorem preload_ok (s : State) (tile a : Nat) (ws : List (BitVec 64)) {orig : State} (ok0 : Ok orig s) :
    Ok orig (State.preload s tile a ws) := by
  unfold State.preload
  repeat' first
    | with_reducible assumption | intro _ | dsimp only | with_reducible apply ok_ite | with_reducible apply ok_iteP
    | with_reducible apply ok_elim | with_reducible apply ok_elimP | with_reducible apply modTile_ok
    | with_reducible apply fetched_ok | with_reducible refine ok_foldl (fun _ _ h => ?_) _ ?_
    | with_reducible refine ok_foldlP (fun v => v.1) (fun _ _ h => ?_) _ ?_ | split

theorem fetchLine_ok (s : State) (tile slot words : Nat) {orig : State} (ok0 : Ok orig s) :
    Ok orig (fetchLine s tile slot words) := by
  unfold fetchLine
  repeat' first
    | with_reducible assumption | intro _ | dsimp only | with_reducible apply ok_ite | with_reducible apply ok_iteP
    | with_reducible apply ok_elim | with_reducible apply ok_elimP | with_reducible apply groupFault_ok
    | with_reducible apply rd_ok | with_reducible apply preload_ok
    | (rename_i e; have e1 := congrArg Prod.fst e; dsimp only at e1; subst e1; clear e) | split

theorem execStoreDrainStart_ok (tile : Tile) (cycle : Nat) (s : State) : ∀ t, execStoreDrainStart tile cycle s = .next t → Ok s t := by
  intro t h
  have e : t = _ := (Host.Outcome.next.inj h).symm
  rw [e]; clear e h
  have ok0 : Ok s s := ok_refl _
  repeat' first
    | with_reducible assumption | intro _ | dsimp only | with_reducible apply ok_ite | with_reducible apply ok_iteP
    | with_reducible apply ok_elim | with_reducible apply ok_elimP | with_reducible apply modTile_ok
    | with_reducible apply modGrn_ok | with_reducible apply fresh_ok | split

theorem drainLocal_ok (s : State) (e : SbEntry) (t cycle : Nat) {orig : State} (ok0 : Ok orig s) :
    Ok orig (drainLocal s e t cycle) := by
  unfold drainLocal
  repeat' first
    | with_reducible assumption | intro _ | dsimp only | with_reducible apply ok_ite | with_reducible apply ok_iteP
    | with_reducible apply ok_elim | with_reducible apply ok_elimP | with_reducible apply mxeUpTo_ok
    | with_reducible apply pokeLocal_ok | with_reducible refine each_ok (fun _ _ h => ?_) ?_ | split

theorem freeEntry_ok (s : State) (e : SbEntry) {orig : State} (ok0 : Ok orig s) :
    Ok orig (freeEntry s e) := by
  unfold freeEntry
  repeat' first
    | with_reducible assumption | intro _ | dsimp only | with_reducible apply ok_ite | with_reducible apply ok_iteP
    | with_reducible apply ok_elim | with_reducible apply ok_elimP | with_reducible apply modTile_ok
    | with_reducible apply hold_ok | with_reducible apply modGroup_ok | with_reducible apply settleHolds_ok
    | with_reducible refine each_ok (fun _ _ h => ?_) ?_ | split

theorem execStoreAck_ok (tile : Tile) (entry cycle : Nat) (s : State) : ∀ t, execStoreAck tile entry cycle s = .next t → Ok s t := by
  intro t h
  have e : t = _ := (Host.Outcome.next.inj h).symm
  rw [e]; clear e h
  have ok0 : Ok s s := ok_refl _
  repeat' first
    | with_reducible assumption | intro _ | dsimp only | with_reducible apply ok_ite | with_reducible apply ok_iteP
    | with_reducible apply ok_elim | with_reducible apply ok_elimP | with_reducible apply dlMissed_ok
    | with_reducible apply drainLocal_ok | with_reducible apply freeEntry_ok | split

theorem execLoadResponse_ok (load cycle : Nat) (s : State) : ∀ t, execLoadResponse load cycle s = .next t → Ok s t := by
  intro t h
  have e : t = _ := (Host.Outcome.next.inj h).symm
  rw [e]; clear e h
  have ok0 : Ok s s := ok_refl _
  repeat' first
    | with_reducible assumption | intro _ | dsimp only | with_reducible apply ok_ite | with_reducible apply ok_iteP
    | with_reducible apply ok_elim | with_reducible apply ok_elimP | with_reducible apply modTile_ok
    | with_reducible apply dlMissed_ok | with_reducible apply modGroup_ok | with_reducible apply groupFault_ok
    | with_reducible apply settleHolds_ok | split

/-! ## Machine/StepOps.lean -/

theorem wrFor_ok (s : State) (who : Who) (step a : Nat) (bs : List Byte) {orig : State} (ok0 : Ok orig s) :
    Ok orig (State.wrFor s who step a bs) := by
  unfold State.wrFor
  repeat' first
    | with_reducible assumption | intro _ | dsimp only | with_reducible apply ok_ite | with_reducible apply ok_iteP
    | with_reducible apply ok_elim | with_reducible apply ok_elimP | with_reducible apply faultStep_ok
    | with_reducible apply wr_ok | (rename_i e; have e1 := congrArg Prod.fst e; dsimp only at e1; subst e1; clear e) | split

theorem chargePart_ok (s : State) (p n : Nat) {orig : State} (ok0 : Ok orig s) :
    Ok orig (State.chargePart s p n) := by
  unfold State.chargePart
  repeat' first
    | with_reducible assumption | intro _ | dsimp only | with_reducible apply ok_ite | with_reducible apply ok_iteP
    | with_reducible apply ok_elim | with_reducible apply ok_elimP | with_reducible apply modPart_ok
    | with_reducible apply partFrame_ok | with_reducible apply charge_ok | split

theorem slip_ok (s : State) (id cause endBeat overrun : Nat) {orig : State} (ok0 : Ok orig s) :
    Ok orig (State.slip s id cause endBeat overrun) := by
  unfold State.slip
  repeat' first
    | with_reducible assumption | intro _ | dsimp only | with_reducible apply ok_ite | with_reducible apply ok_iteP
    | with_reducible apply ok_elim | with_reducible apply ok_elimP | with_reducible apply modTmp_ok
    | with_reducible apply modStep_ok | with_reducible apply partFrame_ok | split

theorem modTrlSlot_ok (s : State) (n : Nat) (f : TSlot → TSlot) {orig : State} (ok0 : Ok orig s) :
    Ok orig (State.modTrlSlot s n f) := by
  unfold State.modTrlSlot
  repeat' first
    | with_reducible assumption | intro _ | dsimp only | with_reducible apply ok_ite | with_reducible apply ok_iteP
    | with_reducible apply ok_elim | with_reducible apply ok_elimP | with_reducible apply modTrl_ok | split

theorem issueUp_ok (s : State) (r : UpRead) {orig : State} (ok0 : Ok orig s) :
    Ok orig (State.issueUp s r) := by
  unfold State.issueUp
  repeat' first
    | with_reducible assumption | intro _ | dsimp only | with_reducible apply ok_ite | with_reducible apply ok_iteP
    | with_reducible apply ok_elim | with_reducible apply ok_elimP | with_reducible apply modHif_ok | with_reducible apply emit_ok
    | with_reducible apply fresh_ok | split

theorem sendUp_ok (s : State) {orig : State} (ok0 : Ok orig s) :
    Ok orig (State.sendUp s) := by
  unfold State.sendUp
  repeat' first
    | with_reducible assumption | intro _ | dsimp only | with_reducible apply ok_ite | with_reducible apply ok_iteP
    | with_reducible apply ok_elim | with_reducible apply ok_elimP | with_reducible apply modHif_ok | with_reducible apply take_ok
    | with_reducible apply issueUp_ok | with_reducible refine each_ok (fun _ _ h => ?_) ?_ | split

theorem upstream_ok (s : State) (fn : Nat) (src : UpSrc) (addr len : Nat) {orig : State} (ok0 : Ok orig s) :
    Ok orig (State.upstream s fn src addr len) := by
  unfold State.upstream
  repeat' first
    | with_reducible assumption | intro _ | dsimp only | with_reducible apply ok_ite | with_reducible apply ok_iteP
    | with_reducible apply ok_elim | with_reducible apply ok_elimP | with_reducible apply modHif_ok
    | with_reducible apply sendUp_ok | split

theorem endUp_ok (s : State) (p : Upstream → Bool) {orig : State} (ok0 : Ok orig s) :
    Ok orig (State.endUp s p) := by
  unfold State.endUp
  repeat' first
    | with_reducible assumption | intro _ | dsimp only | with_reducible apply ok_ite | with_reducible apply ok_iteP
    | with_reducible apply ok_elim | with_reducible apply ok_elimP | with_reducible apply modHif_ok
    | with_reducible apply sendUp_ok | with_reducible apply upstream_ok | split

theorem abandonUp_ok (s : State) (p : Nat → UpSrc → Bool) {orig : State} (ok0 : Ok orig s) :
    Ok orig (State.abandonUp s p) := by
  unfold State.abandonUp
  repeat' first
    | with_reducible assumption | intro _ | dsimp only | with_reducible apply ok_ite | with_reducible apply ok_iteP
    | with_reducible apply ok_elim | with_reducible apply ok_elimP | with_reducible apply modHif_ok
    | with_reducible apply upstream_ok | split

theorem startFill_ok (s : State) (n : Nat) (p : TPush) {orig : State} (ok0 : Ok orig s) :
    Ok orig (State.startFill s n p) := by
  unfold State.startFill
  repeat' first
    | with_reducible assumption | intro _ | dsimp only | with_reducible apply ok_ite | with_reducible apply ok_iteP
    | with_reducible apply ok_elim | with_reducible apply ok_elimP | with_reducible apply modTrlSlot_ok
    | with_reducible apply upstream_ok | split

theorem tryPending_ok (s : State) (n : Nat) {orig : State} (ok0 : Ok orig s) :
    Ok orig (State.tryPending s n) := by
  unfold State.tryPending
  repeat' first
    | with_reducible assumption | intro _ | dsimp only | with_reducible apply ok_ite | with_reducible apply ok_iteP
    | with_reducible apply ok_elim | with_reducible apply ok_elimP | with_reducible apply modTrlSlot_ok
    | with_reducible apply startFill_ok | split

theorem unpin_ok (s : State) (step : Nat) {orig : State} (ok0 : Ok orig s) :
    Ok orig (State.unpin s step) := by
  unfold State.unpin
  repeat' first
    | with_reducible assumption | intro _ | dsimp only | with_reducible apply ok_ite | with_reducible apply ok_iteP
    | with_reducible apply ok_elim | with_reducible apply ok_elimP | with_reducible apply modTrl_ok
    | with_reducible apply tryPending_ok | with_reducible refine each_ok (fun _ _ h => ?_) ?_ | split

theorem setCtxField_ok (s : State) (c off len v : Nat) {orig : State} (ok0 : Ok orig s) :
    Ok orig (State.setCtxField s c off len v) := by
  unfold State.setCtxField
  repeat' first
    | with_reducible assumption | intro _ | dsimp only | with_reducible apply ok_ite | with_reducible apply ok_iteP
    | with_reducible apply ok_elim | with_reducible apply ok_elimP | with_reducible apply modSrv_ok | split

theorem openCtxs_ok (s : State) (t : Step) {orig : State} (ok0 : Ok orig s) :
    Ok orig (State.openCtxs s t) := by
  unfold State.openCtxs
  repeat' first
    | with_reducible assumption | intro _ | dsimp only | with_reducible apply ok_ite | with_reducible apply ok_iteP
    | with_reducible apply ok_elim | with_reducible apply ok_elimP | with_reducible apply modSrv_ok
    | with_reducible apply setCtxField_ok | with_reducible refine each_ok (fun _ _ h => ?_) ?_ | split

theorem writeRecord_ok (s : State) (p : Nat) (irq : Bool) (r : CqRecord) {orig : State} (ok0 : Ok orig s) :
    Ok orig (State.writeRecord s p irq r) := by
  unfold State.writeRecord
  repeat' first
    | with_reducible assumption | intro _ | dsimp only | with_reducible apply ok_ite | with_reducible apply ok_iteP
    | with_reducible apply ok_elim | with_reducible apply ok_elimP | with_reducible apply emit_ok
    | with_reducible apply modPart_ok | with_reducible apply partFrame_ok | with_reducible apply signal_ok
    | with_reducible apply modFn_ok | split

theorem clearStep_ok (s : State) (id : Nat) {orig : State} (ok0 : Ok orig s) :
    Ok orig (State.clearStep s id) := by
  unfold State.clearStep
  repeat' first
    | with_reducible assumption | intro _ | dsimp only | with_reducible apply ok_ite | with_reducible apply ok_iteP
    | with_reducible apply ok_elim | with_reducible apply ok_elimP | with_reducible apply modFab_ok
    | with_reducible apply modSrv_ok | with_reducible apply modRhl_ok | with_reducible apply forfeitTokens_ok
    | with_reducible apply dropGroup_ok | with_reducible apply dropJobs_ok | with_reducible apply dropWalks_ok
    | with_reducible apply abandonUp_ok | with_reducible refine each_ok (fun _ _ h => ?_) ?_ | split

theorem completeStep_ok (s : State) (id : Nat) {orig : State} (ok0 : Ok orig s) :
    Ok orig (State.completeStep s id) := by
  unfold State.completeStep
  repeat' first
    | with_reducible assumption | intro _ | dsimp only | with_reducible apply ok_ite | with_reducible apply ok_iteP
    | with_reducible apply ok_elim | with_reducible apply ok_elimP | with_reducible apply modStp_ok
    | with_reducible apply modRhl_ok | with_reducible apply charge_ok | with_reducible apply chargePart_ok
    | with_reducible apply unpin_ok | with_reducible apply writeRecord_ok | with_reducible apply clearStep_ok | split

theorem endStep_ok (s : State) (id : Nat) (c : Code) {orig : State} (ok0 : Ok orig s) :
    Ok orig (State.endStep s id c) := by
  unfold State.endStep
  repeat' first
    | with_reducible assumption | intro _ | dsimp only | with_reducible apply ok_ite | with_reducible apply ok_iteP
    | with_reducible apply ok_elim | with_reducible apply ok_elimP | with_reducible apply faultStep_ok
    | with_reducible apply completeStep_ok | split

theorem refuseStep_ok (s : State) (id : Nat) (c : Code) {orig : State} (ok0 : Ok orig s) :
    Ok orig (State.refuseStep s id c) := by
  unfold State.refuseStep
  repeat' first
    | with_reducible assumption | intro _ | dsimp only | with_reducible apply ok_ite | with_reducible apply ok_iteP
    | with_reducible apply ok_elim | with_reducible apply ok_elimP | with_reducible apply endStep_ok | split

theorem endPartSteps_ok (s : State) (p : Nat) (which : Step → Bool) (c : Code) {orig : State} (ok0 : Ok orig s) :
    Ok orig (State.endPartSteps s p which c) := by
  unfold State.endPartSteps
  repeat' first
    | with_reducible assumption | intro _ | dsimp only | with_reducible apply ok_ite | with_reducible apply ok_iteP
    | with_reducible apply ok_elim | with_reducible apply ok_elimP | with_reducible apply endStep_ok
    | with_reducible refine each_ok (fun _ _ h => ?_) ?_ | split

/-! ## Machine/Trellis.lean -/

theorem trlDenied_ok (s : State) {orig : State} (ok0 : Ok orig s) :
    Ok orig (trlDenied s) := by
  unfold trlDenied
  repeat' first
    | with_reducible assumption | intro _ | dsimp only | with_reducible apply ok_ite | with_reducible apply ok_iteP
    | with_reducible apply ok_elim | with_reducible apply ok_elimP | with_reducible apply modTrl_ok | split

theorem dropFill_ok (s : State) (n : Nat) {orig : State} (ok0 : Ok orig s) :
    Ok orig (dropFill s n) := by
  unfold dropFill
  repeat' first
    | with_reducible assumption | intro _ | dsimp only | with_reducible apply ok_ite | with_reducible apply ok_iteP
    | with_reducible apply ok_elim | with_reducible apply ok_elimP | with_reducible apply abandonUp_ok | split

theorem failFill_ok (s : State) (n : Nat) {orig : State} (ok0 : Ok orig s) :
    Ok orig (failFill s n) := by
  unfold failFill
  repeat' first
    | with_reducible assumption | intro _ | dsimp only | with_reducible apply ok_ite | with_reducible apply ok_iteP
    | with_reducible apply ok_elim | with_reducible apply ok_elimP | with_reducible apply modTrlSlot_ok
    | with_reducible apply tryPending_ok | with_reducible apply dropFill_ok | split

theorem trlSetOwner_ok (s : State) (fn n : Nat) (value : W32) {orig : State} (ok0 : Ok orig s) :
    Ok orig (trlSetOwner s fn n value) := by
  unfold trlSetOwner
  repeat' first
    | with_reducible assumption | intro _ | dsimp only | with_reducible apply ok_ite | with_reducible apply ok_iteP
    | with_reducible apply ok_elim | with_reducible apply ok_elimP | with_reducible apply modTrlSlot_ok
    | with_reducible apply trlDenied_ok | split

theorem execTrlSlotOwnerWrite_ok (fn : Fn) (n : Fin 64) (value : W32) (s : State) : ∀ t, execTrlSlotOwnerWrite fn n value s = .next t → Ok s t := by
  intro t h
  have e : t = _ := (Host.Outcome.next.inj h).symm
  rw [e]; clear e h
  have ok0 : Ok s s := ok_refl _
  repeat' first
    | with_reducible assumption | intro _ | dsimp only | with_reducible apply ok_ite | with_reducible apply ok_iteP
    | with_reducible apply ok_elim | with_reducible apply ok_elimP | with_reducible apply hostAccess_ok
    | with_reducible apply trlSetOwner_ok | split

theorem trlConfigure_ok (s : State) (fn n : Nat) (value : BitVec 128) {orig : State} (ok0 : Ok orig s) :
    Ok orig (trlConfigure s fn n value) := by
  unfold trlConfigure
  repeat' first
    | with_reducible assumption | intro _ | dsimp only | with_reducible apply ok_ite | with_reducible apply ok_iteP
    | with_reducible apply ok_elim | with_reducible apply ok_elimP | with_reducible apply fresh_ok
    | with_reducible apply modTrlSlot_ok | with_reducible apply trlDenied_ok | split

theorem execTrlSlotCfgWrite_ok (fn : Fn) (n : Fin 64) (value : BitVec 128) (s : State) : ∀ t, execTrlSlotCfgWrite fn n value s = .next t → Ok s t := by
  intro t h
  have e : t = _ := (Host.Outcome.next.inj h).symm
  rw [e]; clear e h
  have ok0 : Ok s s := ok_refl _
  repeat' first
    | with_reducible assumption | intro _ | dsimp only | with_reducible apply ok_ite | with_reducible apply ok_iteP
    | with_reducible apply ok_elim | with_reducible apply ok_elimP | with_reducible apply hostAccess_ok
    | with_reducible apply trlConfigure_ok | split

theorem trlPushTo_ok (s : State) (fn n len : Nat) {orig : State} (ok0 : Ok orig s) :
    Ok orig (trlPushTo s fn n len) := by
  unfold trlPushTo
  repeat' first
    | with_reducible assumption | intro _ | dsimp only | with_reducible apply ok_ite | with_reducible apply ok_iteP
    | with_reducible apply ok_elim | with_reducible apply ok_elimP | with_reducible apply modTrlSlot_ok
    | with_reducible apply startFill_ok | with_reducible apply trlDenied_ok | split

theorem execTrlPush_ok (fn : Fn) (n : Fin 64) (len : W32) (s : State) : ∀ t, execTrlPush fn n len s = .next t → Ok s t := by
  intro t h
  have e : t = _ := (Host.Outcome.next.inj h).symm
  rw [e]; clear e h
  have ok0 : Ok s s := ok_refl _
  repeat' first
    | with_reducible assumption | intro _ | dsimp only | with_reducible apply ok_ite | with_reducible apply ok_iteP
    | with_reducible apply ok_elim | with_reducible apply ok_elimP | with_reducible apply hostAccess_ok
    | with_reducible apply trlPushTo_ok | split

theorem ingSend_ok (s : State) (r : MemReq) {orig : State} (ok0 : Ok orig s) :
    Ok orig (State.ingSend s r) := by
  unfold State.ingSend
  repeat' first
    | with_reducible assumption | intro _ | dsimp only | with_reducible apply ok_ite | with_reducible apply ok_iteP
    | with_reducible apply ok_elim | with_reducible apply ok_elimP | with_reducible apply modGrn_ok
    | with_reducible apply modFab_ok | split

theorem fillData_ok (s : State) (n : Nat) (data : List Byte) {orig : State} (ok0 : Ok orig s) :
    Ok orig (fillData s n data) := by
  unfold fillData
  repeat' first
    | with_reducible assumption | intro _ | dsimp only | with_reducible apply ok_ite | with_reducible apply ok_iteP
    | with_reducible apply ok_elim | with_reducible apply ok_elimP | with_reducible apply modNextId_ok
    | with_reducible apply take_ok | with_reducible apply modTrlSlot_ok | with_reducible apply endUp_ok
    | with_reducible apply ingSend_ok | with_reducible refine each_ok (fun _ _ h => ?_) ?_ | split

theorem execTrellisFillData_ok (n : Fin 64) (data : List Byte) (s : State) : ∀ t, execTrellisFillData n data s = .next t → Ok s t := by
  intro t h
  have e : t = _ := (Host.Outcome.next.inj h).symm
  rw [e]; clear e h
  have ok0 : Ok s s := ok_refl _
  repeat' first
    | with_reducible assumption | intro _ | dsimp only | with_reducible apply ok_ite | with_reducible apply ok_iteP
    | with_reducible apply ok_elim | with_reducible apply ok_elimP | with_reducible apply fillData_ok | split

theorem pinAll_ok (s : State) (step p : Nat) {orig : State} (ok0 : Ok orig s) :
    Ok orig (pinAll s step p) := by
  unfold pinAll
  repeat' first
    | with_reducible assumption | intro _ | dsimp only | with_reducible apply ok_ite | with_reducible apply ok_iteP
    | with_reducible apply ok_elim | with_reducible apply ok_elimP | with_reducible apply modTrlSlot_ok
    | with_reducible refine each_ok (fun _ _ h => ?_) ?_ | split

theorem execBufferComplete_ok (n : Fin 64) (s : State) : ∀ t, execBufferComplete n s = .next t → Ok s t := by
  intro t h
  have e : t = _ := (Host.Outcome.next.inj h).symm
  rw [e]; clear e h
  have ok0 : Ok s s := ok_refl _
  repeat' first
    | with_reducible assumption | intro _ | dsimp only | with_reducible apply ok_ite | with_reducible apply ok_iteP
    | with_reducible apply ok_elim | with_reducible apply ok_elimP | with_reducible apply modTrlSlot_ok
    | with_reducible apply tryPending_ok | split

theorem snapEnds_ok (s : State) (t : Step) (c : Code) {orig : State} (ok0 : Ok orig s) :
    Ok orig (snapEnds s t c) := by
  unfold snapEnds
  repeat' first
    | with_reducible assumption | intro _ | dsimp only | with_reducible apply ok_ite | with_reducible apply ok_iteP
    | with_reducible apply ok_elim | with_reducible apply ok_elimP | with_reducible apply modStep_ok | split

theorem takeSnapshot_ok (s : State) (t : Step) {orig : State} (ok0 : Ok orig s) :
    Ok orig (takeSnapshot s t) := by
  unfold takeSnapshot
  repeat' first
    | with_reducible assumption | intro _ | dsimp only | with_reducible apply ok_ite | with_reducible apply ok_iteP
    | with_reducible apply ok_elim | with_reducible apply ok_elimP | with_reducible apply modStep_ok
    | with_reducible apply post_ok | with_reducible apply pinAll_ok | with_reducible apply snapEnds_ok | split

theorem dropSnap_ok (s : State) (t : Step) {orig : State} (ok0 : Ok orig s) :
    Ok orig (dropSnap s t) := by
  unfold dropSnap
  repeat' first
    | with_reducible assumption | intro _ | dsimp only | with_reducible apply ok_ite | with_reducible apply ok_iteP
    | with_reducible apply ok_elim | with_reducible apply ok_elimP | with_reducible apply modStep_ok
    | with_reducible apply dropJobs_ok | with_reducible apply unpin_ok | split

theorem refuseIngest_ok (s : State) (t : Step) (c : Code) {orig : State} (ok0 : Ok orig s) :
    Ok orig (refuseIngest s t c) := by
  unfold refuseIngest
  repeat' first
    | with_reducible assumption | intro _ | dsimp only | with_reducible apply ok_ite | with_reducible apply ok_iteP
    | with_reducible apply ok_elim | with_reducible apply ok_elimP | with_reducible apply modTrl_ok
    | with_reducible apply refuseStep_ok | split

theorem writeView_ok (s : State) (step addr : Nat) (bytes : List Byte) {orig : State} (ok0 : Ok orig s) :
    Ok orig (writeView s step addr bytes) := by
  unfold writeView
  repeat' first
    | with_reducible assumption | intro _ | dsimp only | with_reducible apply ok_ite | with_reducible apply ok_iteP
    | with_reducible apply ok_elim | with_reducible apply ok_elimP | with_reducible apply wrFor_ok | split

theorem applyChannel_ok (w : Who) (step mode a : Nat) (new : W32) (s : State) {orig : State} (ok0 : Ok orig s) :
    Ok orig (applyChannel w step mode a new s) := by
  unfold applyChannel
  repeat' first
    | with_reducible assumption | intro _ | dsimp only | with_reducible apply ok_ite | with_reducible apply ok_iteP
    | with_reducible apply ok_elim | with_reducible apply ok_elimP | with_reducible apply faultStep_ok
    | with_reducible apply rd_ok | with_reducible apply wrFor_ok
    | (rename_i e; have e1 := congrArg Prod.fst e; dsimp only at e1; subst e1; clear e) | split

theorem applyPoint_ok (w : Who) (step : Nat) (s : State) (d : GridDesc) (pt : List Byte) {orig : State} (ok0 : Ok orig s) :
    Ok orig (applyPoint w step s d pt) := by
  unfold applyPoint
  repeat' first
    | with_reducible assumption | intro _ | dsimp only | with_reducible apply ok_ite | with_reducible apply ok_iteP
    | with_reducible apply ok_elim | with_reducible apply ok_elimP | with_reducible apply modTrl_ok
    | with_reducible apply applyChannel_ok | with_reducible refine each_ok (fun _ _ h => ?_) ?_ | split

theorem gridStart_ok (s : State) (t : Step) (w : Who) (addr op : Nat) {orig : State} (ok0 : Ok orig s) :
    Ok orig (gridStart s t w addr op).1 := by
  unfold gridStart
  repeat' first
    | with_reducible assumption | intro _ | dsimp only | with_reducible apply ok_ite | with_reducible apply ok_iteP
    | with_reducible apply ok_elim | with_reducible apply ok_elimP | with_reducible apply rd_ok
    | (rename_i e; have e1 := congrArg Prod.fst e; dsimp only at e1; subst e1; clear e) | split

theorem scatterPoints_ok (s : State) (t : Step) (w : Who) (d : GridDesc) (a len : Nat) {orig : State} (ok0 : Ok orig s) :
    Ok orig (scatterPoints s t w d a len) := by
  unfold scatterPoints
  repeat' first
    | with_reducible assumption | intro _ | dsimp only | with_reducible apply ok_ite | with_reducible apply ok_iteP
    | with_reducible apply ok_elim | with_reducible apply ok_elimP | with_reducible apply faultStep_ok
    | with_reducible apply rd_ok | with_reducible apply applyPoint_ok | with_reducible refine each_ok (fun _ _ h => ?_) ?_
    | (rename_i e; have e1 := congrArg Prod.fst e; dsimp only at e1; subst e1; clear e) | split

theorem trlScatter_ok (s : State) (t : Step) (w : Who) (addr : Nat) {orig : State} (ok0 : Ok orig s) :
    Ok orig (trlScatter s t w addr) := by
  unfold trlScatter
  repeat' first
    | with_reducible assumption | intro _ | dsimp only | with_reducible apply ok_ite | with_reducible apply ok_iteP
    | with_reducible apply ok_elim | with_reducible apply ok_elimP | with_reducible apply faultStep_ok
    | with_reducible apply gridStart_ok | with_reducible apply scatterPoints_ok
    | (rename_i e; have e1 := congrArg Prod.fst e; dsimp only at e1; subst e1; clear e) | split

theorem shiftCells_ok (s : State) (t : Step) (w : Who) (d : GridDesc) (src : List Byte) {orig : State} (ok0 : Ok orig s) :
    Ok orig (shiftCells s t w d src) := by
  unfold shiftCells
  repeat' first
    | with_reducible assumption | intro _ | dsimp only | with_reducible apply ok_ite | with_reducible apply ok_iteP
    | with_reducible apply ok_elim | with_reducible apply ok_elimP | with_reducible apply wrFor_ok
    | with_reducible refine each_ok (fun _ _ h => ?_) ?_ | split

theorem trlShift_ok (s : State) (t : Step) (w : Who) (addr : Nat) {orig : State} (ok0 : Ok orig s) :
    Ok orig (trlShift s t w addr) := by
  unfold trlShift
  repeat' first
    | with_reducible assumption | intro _ | dsimp only | with_reducible apply ok_ite | with_reducible apply ok_iteP
    | with_reducible apply ok_elim | with_reducible apply ok_elimP | with_reducible apply faultStep_ok
    | with_reducible apply rd_ok | with_reducible apply gridStart_ok | with_reducible apply shiftCells_ok
    | (rename_i e; have e1 := congrArg Prod.fst e; dsimp only at e1; subst e1; clear e) | split

/-! ## Machine/Serving.lean -/

theorem modSrvFn_ok (s : State) (fn : Nat) (f : SrvFn → SrvFn) {orig : State} (ok0 : Ok orig s) :
    Ok orig (State.modSrvFn s fn f) := by
  unfold State.modSrvFn
  repeat' first
    | with_reducible assumption | intro _ | dsimp only | with_reducible apply ok_ite | with_reducible apply ok_iteP
    | with_reducible apply ok_elim | with_reducible apply ok_elimP | with_reducible apply modSrv_ok | split

theorem ctxCode_ok (s : State) (fn : Nat) (c : Code) {orig : State} (ok0 : Ok orig s) :
    Ok orig (ctxCode s fn c) := by
  unfold ctxCode
  repeat' first
    | with_reducible assumption | intro _ | dsimp only | with_reducible apply ok_ite | with_reducible apply ok_iteP
    | with_reducible apply ok_elim | with_reducible apply ok_elimP | with_reducible apply modSrvFn_ok | split

theorem ctxRead_ok (s : State) (fn : Nat) {orig : State} (ok0 : Ok orig s) :
    Ok orig (ctxRead s fn) := by
  unfold ctxRead
  repeat' first
    | with_reducible assumption | intro _ | dsimp only | with_reducible apply ok_ite | with_reducible apply ok_iteP
    | with_reducible apply ok_elim | with_reducible apply ok_elimP | with_reducible apply modSrvFn_ok
    | with_reducible apply ctxCode_ok | split

theorem execSrvCtxRead_ok (fn : Fn) (s : State) : ∀ t, execSrvCtxRead fn s = .next t → Ok s t := by
  intro t h
  have e : t = _ := (Host.Outcome.next.inj h).symm
  rw [e]; clear e h
  have ok0 : Ok s s := ok_refl _
  repeat' first
    | with_reducible assumption | intro _ | dsimp only | with_reducible apply ok_ite | with_reducible apply ok_iteP
    | with_reducible apply ok_elim | with_reducible apply ok_elimP | with_reducible apply hostAccess_ok
    | with_reducible apply ctxRead_ok | split

theorem ctxWrite_ok (s : State) (fn : Nat) {orig : State} (ok0 : Ok orig s) :
    Ok orig (ctxWrite s fn) := by
  unfold ctxWrite
  repeat' first
    | with_reducible assumption | intro _ | dsimp only | with_reducible apply ok_ite | with_reducible apply ok_iteP
    | with_reducible apply ok_elim | with_reducible apply ok_elimP | with_reducible apply modSrv_ok
    | with_reducible apply ctxCode_ok | split

theorem execSrvCtxWrite_ok (fn : Fn) (s : State) : ∀ t, execSrvCtxWrite fn s = .next t → Ok s t := by
  intro t h
  have e : t = _ := (Host.Outcome.next.inj h).symm
  rw [e]; clear e h
  have ok0 : Ok s s := ok_refl _
  repeat' first
    | with_reducible assumption | intro _ | dsimp only | with_reducible apply ok_ite | with_reducible apply ok_iteP
    | with_reducible apply ok_elim | with_reducible apply ok_elimP | with_reducible apply hostAccess_ok
    | with_reducible apply ctxWrite_ok | split

theorem ctxTruncate_ok (s : State) (fn : Nat) {orig : State} (ok0 : Ok orig s) :
    Ok orig (ctxTruncate s fn) := by
  unfold ctxTruncate
  repeat' first
    | with_reducible assumption | intro _ | dsimp only | with_reducible apply ok_ite | with_reducible apply ok_iteP
    | with_reducible apply ok_elim | with_reducible apply ok_elimP | with_reducible apply setCtxField_ok
    | with_reducible apply ctxCode_ok | split

theorem execSrvCtxTruncate_ok (fn : Fn) (s : State) : ∀ t, execSrvCtxTruncate fn s = .next t → Ok s t := by
  intro t h
  have e : t = _ := (Host.Outcome.next.inj h).symm
  rw [e]; clear e h
  have ok0 : Ok s s := ok_refl _
  repeat' first
    | with_reducible assumption | intro _ | dsimp only | with_reducible apply ok_ite | with_reducible apply ok_iteP
    | with_reducible apply ok_elim | with_reducible apply ok_elimP | with_reducible apply hostAccess_ok
    | with_reducible apply ctxTruncate_ok | split

theorem pageNext_ok (w : Who) (p a : Nat) (s : State) {orig : State} (ok0 : Ok orig s) :
    Ok orig (pageNext w p a s).1 := by
  unfold pageNext
  repeat' first
    | with_reducible assumption | intro _ | dsimp only | with_reducible apply ok_ite | with_reducible apply ok_iteP
    | with_reducible apply ok_elim | with_reducible apply ok_elimP | with_reducible apply rd_ok
    | (rename_i e; have e1 := congrArg Prod.fst e; dsimp only at e1; subst e1; clear e) | split

theorem pageBlock_ok (w : Who) (p addr k : Nat) (s : State) {orig : State} (ok0 : Ok orig s) : Ok orig (pageBlock w p addr k s).1 := by
  induction k generalizing addr s with
  | zero => exact ok0
  | succ k ih =>
    unfold pageBlock
    have ok1 := pageNext_ok w p addr s ok0
    generalize pageNext w p addr s = x at ok1
    dsimp only
    split
    · exact ok1
    · exact ih _ _ ok1

theorem setCursor_ok (s : State) (c k a : Nat) {orig : State} (ok0 : Ok orig s) :
    Ok orig (State.setCursor s c k a) := by
  unfold State.setCursor
  repeat' first
    | with_reducible assumption | intro _ | dsimp only | with_reducible apply ok_ite | with_reducible apply ok_iteP
    | with_reducible apply ok_elim | with_reducible apply ok_elimP | with_reducible apply modSrv_ok | split

theorem resolvePage_ok (s : State) (w : Who) (p c i : Nat) {orig : State} (ok0 : Ok orig s) : Ok orig (resolvePage s w p c i).1 := by
  unfold resolvePage
  refine ok_iteP ok0 ?_
  dsimp only
  split <;> rename_i e <;> have ok1 := pageBlock_ok w p (listStart s c (i / 511)).2 (i / 511 - (listStart s c (i / 511)).1) s ok0 <;>
    rw [e] at ok1
  · exact ok1
  · split
    · exact setCursor_ok _ _ _ _ ok1
    · exact rd_ok _ _ _ _ (setCursor_ok _ _ _ _ ok1)

theorem kvPut_ok (w : Who) (step : Nat) (s : State) (k : KvPlace) (bs : List Byte) {orig : State} (ok0 : Ok orig s) :
    Ok orig (kvPut w step s k bs) := by
  unfold kvPut
  repeat' first
    | with_reducible assumption | intro _ | dsimp only | with_reducible apply ok_ite | with_reducible apply ok_iteP
    | with_reducible apply ok_elim | with_reducible apply ok_elimP | with_reducible apply writeLocal_ok
    | with_reducible apply wrFor_ok | split

theorem kvGet_ok (w : Who) (s : State) (k : KvPlace) (n : Nat) {orig : State} (ok0 : Ok orig s) :
    Ok orig (kvGet w s k n).1 := by
  unfold kvGet
  repeat' first
    | with_reducible assumption | intro _ | dsimp only | with_reducible apply ok_ite | with_reducible apply ok_iteP
    | with_reducible apply ok_elim | with_reducible apply ok_elimP | with_reducible apply rd_ok
    | (rename_i e; have e1 := congrArg Prod.fst e; dsimp only at e1; subst e1; clear e) | split

theorem gatherHost_ok (s : State) (t : Step) (w : Who) (c a n : Nat) (k : KvPlace) {orig : State} (ok0 : Ok orig s) :
    Ok orig (gatherHost s t w c a n k) := by
  unfold gatherHost
  repeat' first
    | with_reducible assumption | intro _ | dsimp only | with_reducible apply ok_ite | with_reducible apply ok_iteP
    | with_reducible apply ok_elim | with_reducible apply ok_elimP | with_reducible apply faultStep_ok
    | with_reducible apply upstream_ok | split

theorem gatherDevice_ok (s : State) (t : Step) (w : Who) (a n : Nat) (k : KvPlace) {orig : State} (ok0 : Ok orig s) :
    Ok orig (gatherDevice s t w a n k) := by
  unfold gatherDevice
  repeat' first
    | with_reducible assumption | intro _ | dsimp only | with_reducible apply ok_ite | with_reducible apply ok_iteP
    | with_reducible apply ok_elim | with_reducible apply ok_elimP | with_reducible apply faultStep_ok
    | with_reducible apply rd_ok | with_reducible apply kvPut_ok
    | (rename_i e; have e1 := congrArg Prod.fst e; dsimp only at e1; subst e1; clear e) | split

theorem gatherToken_ok (s : State) (t : Step) (w : Who) (c token : Nat) (k : KvPlace) {orig : State} (ok0 : Ok orig s) :
    Ok orig (gatherToken s t w c token k) := by
  unfold gatherToken
  repeat' first
    | with_reducible assumption | intro _ | dsimp only | with_reducible apply ok_ite | with_reducible apply ok_iteP
    | with_reducible apply ok_elim | with_reducible apply ok_elimP | with_reducible apply faultStep_ok
    | with_reducible apply resolvePage_ok | with_reducible apply gatherHost_ok | with_reducible apply gatherDevice_ok
    | (rename_i e; have e1 := congrArg Prod.fst e; dsimp only at e1; subst e1; clear e) | split

theorem scatterDevice_ok (s : State) (t : Step) (w : Who) (a n : Nat) (k : KvPlace) {orig : State} (ok0 : Ok orig s) :
    Ok orig (scatterDevice s t w a n k) := by
  unfold scatterDevice
  repeat' first
    | with_reducible assumption | intro _ | dsimp only | with_reducible apply ok_ite | with_reducible apply ok_iteP
    | with_reducible apply ok_elim | with_reducible apply ok_elimP | with_reducible apply faultStep_ok
    | with_reducible apply wrFor_ok | with_reducible apply kvGet_ok
    | (rename_i e; have e1 := congrArg Prod.fst e; dsimp only at e1; subst e1; clear e) | split

theorem scatterToken_ok (s : State) (t : Step) (w : Who) (c token : Nat) (k : KvPlace) {orig : State} (ok0 : Ok orig s) :
    Ok orig (scatterToken s t w c token k) := by
  unfold scatterToken
  repeat' first
    | with_reducible assumption | intro _ | dsimp only | with_reducible apply ok_ite | with_reducible apply ok_iteP
    | with_reducible apply ok_elim | with_reducible apply ok_elimP | with_reducible apply faultStep_ok
    | with_reducible apply resolvePage_ok | with_reducible apply scatterDevice_ok
    | (rename_i e; have e1 := congrArg Prod.fst e; dsimp only at e1; subst e1; clear e) | split

theorem kvTransfer_ok (s : State) (t : Step) (w : Who) (gather : Bool) (c token count : Nat) (k : KvPlace) {orig : State} (ok0 : Ok orig s) :
    Ok orig (kvTransfer s t w gather c token count k) := by
  unfold kvTransfer
  repeat' first
    | with_reducible assumption | intro _ | dsimp only | with_reducible apply ok_ite | with_reducible apply ok_iteP
    | with_reducible apply ok_elim | with_reducible apply ok_elimP | with_reducible apply faultStep_ok
    | with_reducible apply gatherToken_ok | with_reducible apply scatterToken_ok
    | with_reducible refine each_ok (fun _ _ h => ?_) ?_ | split

theorem modWalk_ok (s : State) (slot : Nat) (f : Walk → Walk) {orig : State} (ok0 : Ok orig s) :
    Ok orig (State.modWalk s slot f) := by
  unfold State.modWalk
  repeat' first
    | with_reducible assumption | intro _ | dsimp only | with_reducible apply ok_ite | with_reducible apply ok_iteP
    | with_reducible apply ok_elim | with_reducible apply ok_elimP | with_reducible apply modSrv_ok | split

theorem startWalk_ok (s : State) (slot part : Nat) (fn step last : Option Nat) (req : Nat) {orig : State} (ok0 : Ok orig s) :
    Ok orig (startWalk s slot part fn step last req) := by
  unfold startWalk
  repeat' first
    | with_reducible assumption | intro _ | dsimp only | with_reducible apply ok_ite | with_reducible apply ok_iteP
    | with_reducible apply ok_elim | with_reducible apply ok_elimP | with_reducible apply modSrv_ok | with_reducible apply post_ok
    | split

theorem walkRequest_ok (s : State) (slot : Nat) {orig : State} (ok0 : Ok orig s) :
    Ok orig (walkRequest s slot) := by
  unfold walkRequest
  repeat' first
    | with_reducible assumption | intro _ | dsimp only | with_reducible apply ok_ite | with_reducible apply ok_iteP
    | with_reducible apply ok_elim | with_reducible apply ok_elimP | with_reducible apply rd_ok | with_reducible apply modWalk_ok
    | (rename_i e; have e1 := congrArg Prod.fst e; dsimp only at e1; subst e1; clear e) | split

theorem submitWalk_ok (s : State) (fn req : Nat) {orig : State} (ok0 : Ok orig s) :
    Ok orig (submitWalk s fn req) := by
  unfold submitWalk
  repeat' first
    | with_reducible assumption | intro _ | dsimp only | with_reducible apply ok_ite | with_reducible apply ok_iteP
    | with_reducible apply ok_elim | with_reducible apply ok_elimP | with_reducible apply modSrvFn_ok
    | with_reducible apply startWalk_ok | split

theorem walkGo_ok (s : State) (fn : Nat) {orig : State} (ok0 : Ok orig s) :
    Ok orig (walkGo s fn) := by
  unfold walkGo
  repeat' first
    | with_reducible assumption | intro _ | dsimp only | with_reducible apply ok_ite | with_reducible apply ok_iteP
    | with_reducible apply ok_elim | with_reducible apply ok_elimP | with_reducible apply modSrv_ok
    | with_reducible apply submitWalk_ok | split

theorem settleGo_ok (s : State) {orig : State} (ok0 : Ok orig s) :
    Ok orig (settleGo s) := by
  unfold settleGo
  repeat' first
    | with_reducible assumption | intro _ | dsimp only | with_reducible apply ok_ite | with_reducible apply ok_iteP
    | with_reducible apply ok_elim | with_reducible apply ok_elimP | with_reducible apply modSrv_ok
    | with_reducible apply submitWalk_ok | with_reducible refine each_ok (fun _ _ h => ?_) ?_ | split

theorem planWalk_ok (s : State) (t : Step) (last req : Nat) {orig : State} (ok0 : Ok orig s) :
    Ok orig (planWalk s t last req) := by
  unfold planWalk
  repeat' first
    | with_reducible assumption | intro _ | dsimp only | with_reducible apply ok_ite | with_reducible apply ok_iteP
    | with_reducible apply ok_elim | with_reducible apply ok_elimP | with_reducible apply modSrv_ok
    | with_reducible apply faultStep_ok | with_reducible apply startWalk_ok | split

theorem walkFrom_ok (s : State) (w : Walk) (b : List Byte) (exts : Nat) {orig : State} (ok0 : Ok orig s) :
    Ok orig (walkFrom s w b exts).1 := by
  unfold walkFrom
  repeat' first
    | with_reducible assumption | intro _ | dsimp only | with_reducible apply ok_ite | with_reducible apply ok_iteP
    | with_reducible apply ok_elim | with_reducible apply ok_elimP | with_reducible apply rd_ok
    | (rename_i e; have e1 := congrArg Prod.fst e; dsimp only at e1; subst e1; clear e) | split

theorem walkOn_ok (s : State) (w : Walk) (b : List Byte) (exts : Nat) {orig : State} (ok0 : Ok orig s) :
    Ok orig (State.walkOn s w b exts) := by
  unfold State.walkOn
  repeat' first
    | with_reducible assumption | intro _ | dsimp only | with_reducible apply ok_ite | with_reducible apply ok_iteP
    | with_reducible apply ok_elim | with_reducible apply ok_elimP | with_reducible apply modWalk_ok
    | with_reducible apply walkFrom_ok | (rename_i e; have e1 := congrArg Prod.fst e; dsimp only at e1; subst e1; clear e) | split

theorem walkMatched_ok (s : State) (w : Walk) (a : Nat) (b : List Byte) {orig : State} (ok0 : Ok orig s) :
    Ok orig (walkMatched s w a b) := by
  unfold walkMatched
  repeat' first
    | with_reducible assumption | intro _ | dsimp only | with_reducible apply ok_ite | with_reducible apply ok_iteP
    | with_reducible apply ok_elim | with_reducible apply ok_elimP | with_reducible apply wr_ok | with_reducible apply modWalk_ok
    | with_reducible apply walkOn_ok | (rename_i e; have e1 := congrArg Prod.fst e; dsimp only at e1; subst e1; clear e) | split

theorem walkChild_ok (s : State) (w : Walk) (a : Nat) (b : List Byte) {orig : State} (ok0 : Ok orig s) :
    Ok orig (walkChild s w a b) := by
  unfold walkChild
  repeat' first
    | with_reducible assumption | intro _ | dsimp only | with_reducible apply ok_ite | with_reducible apply ok_iteP
    | with_reducible apply ok_elim | with_reducible apply ok_elimP | with_reducible apply rd_ok | with_reducible apply modWalk_ok
    | with_reducible apply walkMatched_ok | (rename_i e; have e1 := congrArg Prod.fst e; dsimp only at e1; subst e1; clear e)
    | split

theorem walkNodeRead_ok (s : State) (w : Walk) (b : List Byte) {orig : State} (ok0 : Ok orig s) :
    Ok orig (walkNodeRead s w b) := by
  unfold walkNodeRead
  repeat' first
    | with_reducible assumption | intro _ | dsimp only | with_reducible apply ok_ite | with_reducible apply ok_iteP
    | with_reducible apply ok_elim | with_reducible apply ok_elimP | with_reducible apply modWalk_ok
    | with_reducible apply walkOn_ok | with_reducible apply walkChild_ok | split

theorem walkStep_ok (s : State) (slot : Nat) {orig : State} (ok0 : Ok orig s) :
    Ok orig (walkStep s slot) := by
  unfold walkStep
  repeat' first
    | with_reducible assumption | intro _ | dsimp only | with_reducible apply ok_ite | with_reducible apply ok_iteP
    | with_reducible apply ok_elim | with_reducible apply ok_elimP | with_reducible apply rd_ok | with_reducible apply modWalk_ok
    | with_reducible apply walkNodeRead_ok | (rename_i e; have e1 := congrArg Prod.fst e; dsimp only at e1; subst e1; clear e)
    | split

theorem freeWalkSlot_ok (s : State) (slot part : Nat) {orig : State} (ok0 : Ok orig s) :
    Ok orig (freeWalkSlot s slot part) := by
  unfold freeWalkSlot
  repeat' first
    | with_reducible assumption | intro _ | dsimp only | with_reducible apply ok_ite | with_reducible apply ok_iteP
    | with_reducible apply ok_elim | with_reducible apply ok_elimP | with_reducible apply modSrv_ok
    | with_reducible apply startWalk_ok | split

theorem walkOver_ok (s : State) (w : Walk) (c : Code) {orig : State} (ok0 : Ok orig s) :
    Ok orig (walkOver s w c) := by
  unfold walkOver
  repeat' first
    | with_reducible assumption | intro _ | dsimp only | with_reducible apply ok_ite | with_reducible apply ok_iteP
    | with_reducible apply ok_elim | with_reducible apply ok_elimP | with_reducible apply modSrv_ok
    | with_reducible apply signal_ok | with_reducible apply faultStep_ok | with_reducible apply freeWalkSlot_ok | split

theorem walkDone_ok (s : State) (slot : Nat) {orig : State} (ok0 : Ok orig s) :
    Ok orig (walkDone s slot) := by
  unfold walkDone
  repeat' first
    | with_reducible assumption | intro _ | dsimp only | with_reducible apply ok_ite | with_reducible apply ok_iteP
    | with_reducible apply ok_elim | with_reducible apply ok_elimP | with_reducible apply wr_ok | with_reducible apply walkOver_ok
    | (rename_i e; have e1 := congrArg Prod.fst e; dsimp only at e1; subst e1; clear e) | split

theorem winnowRecord_ok {s : State} {t : Step} {earlier : List Nat} {b : List Byte} {orig : State} (ok0 : Ok orig s) (p : State × List Byte)
    (e : winnowRecord s t earlier b = .inr p) : Ok orig p.1 := by
  have err : ∀ {c : List Byte}, Sum.inr (α := Code) (s.modSrv fun x => { x with wnwRecords := x.wnwRecords + 1, wnwErrors := x.wnwErrors + 1 }, c) = .inr p →
      Ok orig p.1 := fun e => Sum.inr.inj e ▸ modSrv_ok ok0
  unfold winnowRecord at e
  dsimp only at e
  split at e
  · exact err e
  · split at e
    · exact err e
    · split at e
      · cases e
      · split at e
        · cases e
        · split at e
          · exact err e
          · exact Sum.inr.inj e ▸ modSrv_ok (setCtxField_ok _ _ _ _ _ (setCtxField_ok _ _ _ _ _ (setCtxField_ok _ _ _ _ _ ok0)))

theorem winnowWrite_ok (s : State) (t : Step) (w : Who) (out : Nat) (seen : List Nat) (b : List Byte) {orig : State} (ok0 : Ok orig s) :
    Ok orig (winnowWrite s t w out seen b) := by
  unfold winnowWrite
  split
  · exact faultStep_ok _ _ _ ok0
  · rename_i e
    exact wrFor_ok _ _ _ _ _ (winnowRecord_ok ok0 _ e)

theorem winnowAll_ok (t : Step) (w : Who) (inA outA k i : Nat) (seen : List Nat) (s : State) {orig : State} (ok0 : Ok orig s) :
    Ok orig (winnowAll t w inA outA k i seen s) := by
  induction k generalizing i seen s with
  | zero => exact ok0
  | succ k ih =>
    unfold winnowAll
    refine ok_ite ok0 ?_
    split
    rename_i e
    have ok1 := rd_ok s w (inA + 512 * i) 512 ok0
    rw [e] at ok1
    split
    · exact faultStep_ok _ _ _ ok1
    · exact ih _ _ _ (winnowWrite_ok _ _ _ _ _ _ ok1)

theorem winnowVerify_ok (s : State) (t : Step) (w : Who) (inA outA count : Nat) {orig : State} (ok0 : Ok orig s) :
    Ok orig (winnowVerify s t w inA outA count) := by
  unfold winnowVerify
  repeat' first
    | with_reducible assumption | intro _ | dsimp only | with_reducible apply ok_ite | with_reducible apply ok_iteP
    | with_reducible apply ok_elim | with_reducible apply ok_elimP | with_reducible apply faultStep_ok
    | with_reducible apply winnowAll_ok | split

/-! ## Machine/HostOps.lean -/

theorem barRange_ok (s : State) (fn bar off : Nat) {orig : State} (ok0 : Ok orig s) :
    Ok orig (State.barRange s fn bar off) := by
  unfold State.barRange
  repeat' first
    | with_reducible assumption | intro _ | dsimp only | with_reducible apply ok_ite | with_reducible apply ok_iteP
    | with_reducible apply ok_elim | with_reducible apply ok_elimP | with_reducible apply emit_ok | with_reducible apply hifErr_ok
    | split

theorem bar2Answer_ok (s : State) (fn off len : Nat) {orig : State} (ok0 : Ok orig s) :
    Ok orig (bar2Answer s fn off len) := by
  unfold bar2Answer
  repeat' first
    | with_reducible assumption | intro _ | dsimp only | with_reducible apply ok_ite | with_reducible apply ok_iteP
    | with_reducible apply ok_elim | with_reducible apply ok_elimP | with_reducible apply modFree_ok
    | with_reducible apply emit_ok | with_reducible apply rd_ok
    | (rename_i e; have e1 := congrArg Prod.fst e; dsimp only at e1; subst e1; clear e) | split

theorem settleBar2_ok (s : State) {orig : State} (ok0 : Ok orig s) :
    Ok orig (settleBar2 s) := by
  unfold settleBar2
  repeat' first
    | with_reducible assumption | intro _ | dsimp only | with_reducible apply ok_ite | with_reducible apply ok_iteP
    | with_reducible apply ok_elim | with_reducible apply ok_elimP | with_reducible apply modHif_ok | with_reducible apply post_ok
    | with_reducible refine each_ok (fun _ _ h => ?_) ?_ | split

theorem dbError_ok (s : State) (p : Nat) {orig : State} (ok0 : Ok orig s) :
    Ok orig (State.dbError s p) := by
  unfold State.dbError
  repeat' first
    | with_reducible assumption | intro _ | dsimp only | with_reducible apply ok_ite | with_reducible apply ok_iteP
    | with_reducible apply ok_elim | with_reducible apply ok_elimP | with_reducible apply modPart_ok | split

theorem cfgError_ok (s : State) (p : Nat) {orig : State} (ok0 : Ok orig s) :
    Ok orig (State.cfgError s p) := by
  unfold State.cfgError
  repeat' first
    | with_reducible assumption | intro _ | dsimp only | with_reducible apply ok_ite | with_reducible apply ok_iteP
    | with_reducible apply ok_elim | with_reducible apply ok_elimP | with_reducible apply modPart_ok | split

theorem modQueue_ok (s : State) (q : Nat) (f : Queue → Queue) {orig : State} (ok0 : Ok orig s) :
    Ok orig (State.modQueue s q f) := by
  unfold State.modQueue
  repeat' first
    | with_reducible assumption | intro _ | dsimp only | with_reducible apply ok_ite | with_reducible apply ok_iteP
    | with_reducible apply ok_elim | with_reducible apply ok_elimP | with_reducible apply modStp_ok | split

theorem actDoorbell_ok (s : State) (p cls tail : Nat) {orig : State} (ok0 : Ok orig s) :
    Ok orig (actDoorbell s p cls tail) := by
  unfold actDoorbell
  repeat' first
    | with_reducible assumption | intro _ | dsimp only | with_reducible apply ok_ite | with_reducible apply ok_iteP
    | with_reducible apply ok_elim | with_reducible apply ok_elimP | with_reducible apply dbError_ok
    | with_reducible apply modQueue_ok | split

theorem takeDoorbell_ok (s : State) (fn p cls tail : Nat) {orig : State} (ok0 : Ok orig s) :
    Ok orig (takeDoorbell s fn p cls tail) := by
  unfold takeDoorbell
  repeat' first
    | with_reducible assumption | intro _ | dsimp only | with_reducible apply ok_ite | with_reducible apply ok_iteP
    | with_reducible apply ok_elim | with_reducible apply ok_elimP | with_reducible apply modStp_ok
    | with_reducible apply dbError_ok | with_reducible apply actDoorbell_ok | split

theorem settleBells_ok (s : State) {orig : State} (ok0 : Ok orig s) :
    Ok orig (settleBells s) := by
  unfold settleBells
  repeat' first
    | with_reducible assumption | intro _ | dsimp only | with_reducible apply ok_ite | with_reducible apply ok_iteP
    | with_reducible apply ok_elim | with_reducible apply ok_elimP | with_reducible apply modStp_ok
    | with_reducible apply actDoorbell_ok | with_reducible refine each_ok (fun _ _ h => ?_) ?_ | split

theorem settlePosted_ok (s : State) {orig : State} (ok0 : Ok orig s) :
    Ok orig (settlePosted s) := by
  unfold settlePosted
  repeat' first
    | with_reducible assumption | intro _ | dsimp only | with_reducible apply ok_ite | with_reducible apply ok_iteP
    | with_reducible apply ok_elim | with_reducible apply ok_elimP | with_reducible apply settleGo_ok
    | with_reducible apply settleBar2_ok | with_reducible apply settleBells_ok | split

theorem doorbellWrite_ok (s : State) (fn : Nat) (bar4 : Bool) (p : Nat) (v : W32) {orig : State} (ok0 : Ok orig s) :
    Ok orig (doorbellWrite s fn bar4 p v) := by
  unfold doorbellWrite
  repeat' first
    | with_reducible assumption | intro _ | dsimp only | with_reducible apply ok_ite | with_reducible apply ok_iteP
    | with_reducible apply ok_elim | with_reducible apply ok_elimP | with_reducible apply barRange_ok
    | with_reducible apply dbError_ok | with_reducible apply takeDoorbell_ok | split

end Sys2Proof.Laws
end

