-- ==== Sys2Proof/Laws/OkPower.lean ====
section
/-! SUPPORT. What `Ok` says of power, the ring, the fabric, resets and the power stages: one lemma for each. -/

namespace Sys2Proof.Laws

open Sys2Proof Sys2Proof.Machine

/-! ## Machine/PowerOps.lean -/

theorem powerEvent_ok (s : State) (b : Nat) {orig : State} (ok0 : Ok orig s) :
    Ok orig (State.powerEvent s b) := by
  unfold State.powerEvent
  repeat' first
    | with_reducible assumption | intro _ | dsimp only | with_reducible apply ok_ite | with_reducible apply ok_iteP
    | with_reducible apply ok_elim | with_reducible apply ok_elimP | with_reducible apply modPwr_ok
    | with_reducible apply event_ok | split

theorem capChange_ok (s : State) (f : State → State) {orig : State} (hf : ∀ s, Ok orig s → Ok orig (f s)) (ok0 : Ok orig s) :
    Ok orig (State.capChange s f) := by
  unfold State.capChange
  repeat' first
    | with_reducible assumption | intro _ | dsimp only | with_reducible apply ok_ite | with_reducible apply ok_iteP
    | with_reducible apply ok_elim | with_reducible apply ok_elimP | with_reducible apply powerEvent_ok | with_reducible apply hf
    | split

theorem rackHold_ok (s : State) (kind : Bool) (rack host : Nat) {orig : State} (ok0 : Ok orig s) :
    Ok orig (State.rackHold s kind rack host) := by
  unfold State.rackHold
  repeat' first
    | with_reducible assumption | intro _ | dsimp only | with_reducible apply ok_ite | with_reducible apply ok_iteP
    | with_reducible apply ok_elim | with_reducible apply ok_elimP | with_reducible apply modPwr_ok
    | with_reducible apply powerEvent_ok | split

theorem refreshGood_ok (s : State) {orig : State} (ok0 : Ok orig s) :
    Ok orig (State.refreshGood s) := by
  unfold State.refreshGood
  repeat' first
    | with_reducible assumption | intro _ | dsimp only | with_reducible apply ok_ite | with_reducible apply ok_iteP
    | with_reducible apply ok_elim | with_reducible apply ok_elimP | with_reducible apply modRst_ok | split

theorem setVolts_ok (s : State) (k : Nat) {orig : State} (ok0 : Ok orig s) :
    Ok orig (State.setVolts s k) := by
  unfold State.setVolts
  repeat' first
    | with_reducible assumption | intro _ | dsimp only | with_reducible apply ok_ite | with_reducible apply ok_iteP
    | with_reducible apply ok_elim | with_reducible apply ok_elimP | with_reducible apply modPwr_ok | split

theorem switchClock_ok (s : State) (k : Nat) {orig : State} (ok0 : Ok orig s) :
    Ok orig (State.switchClock s k) := by
  unfold State.switchClock
  repeat' first
    | with_reducible assumption | intro _ | dsimp only | with_reducible apply ok_ite | with_reducible apply ok_iteP
    | with_reducible apply ok_elim | with_reducible apply ok_elimP | with_reducible apply modGrade_ok
    | with_reducible apply emit_ok | with_reducible apply setVolts_ok | split

theorem syncClock_ok (s : State) {orig : State} (ok0 : Ok orig s) :
    Ok orig (State.syncClock s) := by
  unfold State.syncClock
  repeat' first
    | with_reducible assumption | intro _ | dsimp only | with_reducible apply ok_ite | with_reducible apply ok_iteP
    | with_reducible apply ok_elim | with_reducible apply ok_elimP | with_reducible apply switchClock_ok | split

/-! ## Machine/RingOps.lean -/

theorem modLink_ok (s : State) (l : Nat) (f : LinkSt → LinkSt) {orig : State} (ok0 : Ok orig s) :
    Ok orig (State.modLink s l f) := by
  unfold State.modLink
  repeat' first
    | with_reducible assumption | intro _ | dsimp only | with_reducible apply ok_ite | with_reducible apply ok_iteP
    | with_reducible apply ok_elim | with_reducible apply ok_elimP | with_reducible apply modRhl_ok | split

theorem sendWord_ok (s : State) (bs : List Byte) (p : Nat → Bool) {orig : State} (ok0 : Ok orig s) :
    Ok orig (State.sendWord s bs p) := by
  unfold State.sendWord
  repeat' first
    | with_reducible assumption | intro _ | dsimp only | with_reducible apply ok_ite | with_reducible apply ok_iteP
    | with_reducible apply ok_elim | with_reducible apply ok_elimP | with_reducible apply emit_ok
    | with_reducible refine each_ok (fun _ _ h => ?_) ?_ | split

theorem sendConsensus_ok (s : State) {orig : State} (ok0 : Ok orig s) :
    Ok orig (State.sendConsensus s) := by
  unfold State.sendConsensus
  repeat' first
    | with_reducible assumption | intro _ | dsimp only | with_reducible apply ok_ite | with_reducible apply ok_iteP
    | with_reducible apply ok_elim | with_reducible apply ok_elimP | with_reducible apply sendWord_ok | split

theorem sendUpdate_ok (s : State) (w : CWord) {orig : State} (ok0 : Ok orig s) :
    Ok orig (State.sendUpdate s w) := by
  unfold State.sendUpdate
  repeat' first
    | with_reducible assumption | intro _ | dsimp only | with_reducible apply ok_ite | with_reducible apply ok_iteP
    | with_reducible apply ok_elim | with_reducible apply ok_elimP | with_reducible apply modRhl_ok
    | with_reducible apply sendWord_ok | split

theorem announce_ok (s : State) (g : Nat) {orig : State} (ok0 : Ok orig s) :
    Ok orig (State.announce s g) := by
  unfold State.announce
  repeat' first
    | with_reducible assumption | intro _ | dsimp only | with_reducible apply ok_ite | with_reducible apply ok_iteP
    | with_reducible apply ok_elim | with_reducible apply ok_elimP | with_reducible apply modGrade_ok
    | with_reducible apply sendUpdate_ok | split

theorem announceDue_ok (s : State) {orig : State} (ok0 : Ok orig s) :
    Ok orig (State.announceDue s) := by
  unfold State.announceDue
  repeat' first
    | with_reducible assumption | intro _ | dsimp only | with_reducible apply ok_ite | with_reducible apply ok_iteP
    | with_reducible apply ok_elim | with_reducible apply ok_elimP | with_reducible apply announce_ok | split

theorem takeEffect_ok (s : State) (k : Nat) {orig : State} (ok0 : Ok orig s) : Ok orig (takeEffect s k) := by
  induction k generalizing s with
  | zero => exact syncClock_ok _ ok0
  | succ k ih =>
    unfold takeEffect
    split
    · exact syncClock_ok _ ok0
    · exact ih _ (modGrade_ok ok0)

theorem endColls_ok (s : State) (mask : BitVec 8) (c : Code) {orig : State} (ok0 : Ok orig s) :
    Ok orig (State.endColls s mask c) := by
  unfold State.endColls
  repeat' first
    | with_reducible assumption | intro _ | dsimp only | with_reducible apply ok_ite | with_reducible apply ok_iteP
    | with_reducible apply ok_elim | with_reducible apply ok_elimP | with_reducible apply endStep_ok
    | with_reducible refine each_ok (fun _ _ h => ?_) ?_ | split

theorem floodReshape_ok (s : State) (link : Option Nat) (joins leaves : List Nat) {orig : State} (ok0 : Ok orig s) :
    Ok orig (State.floodReshape s link joins leaves) := by
  unfold State.floodReshape
  repeat' first
    | with_reducible assumption | intro _ | dsimp only | with_reducible apply ok_ite | with_reducible apply ok_iteP
    | with_reducible apply ok_elim | with_reducible apply ok_elimP | with_reducible apply modRhl_ok
    | with_reducible apply sendUpdate_ok | split

theorem reshapeEvent_ok (s : State) (link : Option Nat) (joins leaves : List Nat) {orig : State} (ok0 : Ok orig s) :
    Ok orig (State.reshapeEvent s link joins leaves) := by
  unfold State.reshapeEvent
  repeat' first
    | with_reducible assumption | intro _ | dsimp only | with_reducible apply ok_ite | with_reducible apply ok_iteP
    | with_reducible apply ok_elim | with_reducible apply ok_elimP | with_reducible apply floodReshape_ok | split

theorem realignLink_ok (s : State) {orig : State} (ok0 : Ok orig s) :
    Ok orig (State.realignLink s) := by
  unfold State.realignLink
  repeat' first
    | with_reducible assumption | intro _ | dsimp only | with_reducible apply ok_ite | with_reducible apply ok_iteP
    | with_reducible apply ok_elim | with_reducible apply ok_elimP | with_reducible apply modTmp_ok | split

theorem moveLink_ok (s : State) (l : Nat) (next : LinkState) (f : LinkSt → LinkSt) {orig : State} (ok0 : Ok orig s) :
    Ok orig (State.moveLink s l next f) := by
  unfold State.moveLink
  repeat' first
    | with_reducible assumption | intro _ | dsimp only | with_reducible apply ok_ite | with_reducible apply ok_iteP
    | with_reducible apply ok_elim | with_reducible apply ok_elimP | with_reducible apply modLink_ok
    | with_reducible apply reshapeEvent_ok | with_reducible apply realignLink_ok | split

theorem linkDown_ok (s : State) (l : Nat) (c : Code) {orig : State} (ok0 : Ok orig s) :
    Ok orig (State.linkDown s l c) := by
  unfold State.linkDown
  repeat' first
    | with_reducible assumption | intro _ | dsimp only | with_reducible apply ok_ite | with_reducible apply ok_iteP
    | with_reducible apply ok_elim | with_reducible apply ok_elimP | with_reducible apply moveLink_ok | split

theorem addMember_ok (s : State) (r : Nat) {orig : State} (ok0 : Ok orig s) :
    Ok orig (State.addMember s r) := by
  unfold State.addMember
  repeat' first
    | with_reducible assumption | intro _ | dsimp only | with_reducible apply ok_ite | with_reducible apply ok_iteP
    | with_reducible apply ok_elim | with_reducible apply ok_elimP | with_reducible apply modGrade_ok
    | with_reducible apply modRhl_ok | split

theorem dropMember_ok (s : State) (r : Nat) {orig : State} (ok0 : Ok orig s) :
    Ok orig (State.dropMember s r) := by
  unfold State.dropMember
  repeat' first
    | with_reducible assumption | intro _ | dsimp only | with_reducible apply ok_ite | with_reducible apply ok_iteP
    | with_reducible apply ok_elim | with_reducible apply ok_elimP | with_reducible apply modGrade_ok
    | with_reducible apply modRhl_ok | split

theorem remaster_ok (s : State) {orig : State} (ok0 : Ok orig s) :
    Ok orig (State.remaster s) := by
  unfold State.remaster
  repeat' first
    | with_reducible assumption | intro _ | dsimp only | with_reducible apply ok_ite | with_reducible apply ok_iteP
    | with_reducible apply ok_elim | with_reducible apply ok_elimP | with_reducible apply modTmp_ok
    | with_reducible apply modRhl_ok | with_reducible apply realignLink_ok | with_reducible refine ok_foldl (fun _ _ h => ?_) _ ?_
    | with_reducible refine ok_foldlP (fun v => v.1) (fun _ _ h => ?_) _ ?_ | split

theorem join_ok (s : State) {orig : State} (ok0 : Ok orig s) :
    Ok orig (State.join s) := by
  unfold State.join
  repeat' first
    | with_reducible assumption | intro _ | dsimp only | with_reducible apply ok_ite | with_reducible apply ok_iteP
    | with_reducible apply ok_elim | with_reducible apply ok_elimP | with_reducible apply modGrade_ok
    | with_reducible apply modRhl_ok | with_reducible apply addMember_ok | with_reducible refine each_ok (fun _ _ h => ?_) ?_
    | split

theorem leaveDomain_ok (s : State) {orig : State} (ok0 : Ok orig s) :
    Ok orig (State.leaveDomain s) := by
  unfold State.leaveDomain
  repeat' first
    | with_reducible assumption | intro _ | dsimp only | with_reducible apply ok_ite | with_reducible apply ok_iteP
    | with_reducible apply ok_elim | with_reducible apply ok_elimP | with_reducible apply modGrade_ok
    | with_reducible apply modRhl_ok | split

theorem applyReshape_ok (s : State) (e : Reshape) {orig : State} (ok0 : Ok orig s) :
    Ok orig (State.applyReshape s e) := by
  unfold State.applyReshape
  repeat' first
    | with_reducible assumption | intro _ | dsimp only | with_reducible apply ok_ite | with_reducible apply ok_iteP
    | with_reducible apply ok_elim | with_reducible apply ok_elimP | with_reducible apply addMember_ok
    | with_reducible apply dropMember_ok | with_reducible apply join_ok | with_reducible apply leaveDomain_ok
    | with_reducible refine each_ok (fun _ _ h => ?_) ?_ | split

theorem applyDue_ok (s : State) (due : List Reshape) {orig : State} (ok0 : Ok orig s) :
    Ok orig (State.applyDue s due) := by
  unfold State.applyDue
  repeat' first
    | with_reducible assumption | intro _ | dsimp only | with_reducible apply ok_ite | with_reducible apply ok_iteP
    | with_reducible apply ok_elim | with_reducible apply ok_elimP | with_reducible apply modGrade_ok
    | with_reducible apply modRhl_ok | with_reducible apply signal_ok | with_reducible apply applyReshape_ok
    | with_reducible refine each_ok (fun _ _ h => ?_) ?_ | split

theorem remasterDue_ok (s : State) {orig : State} (ok0 : Ok orig s) :
    Ok orig (State.remasterDue s) := by
  unfold State.remasterDue
  repeat' first
    | with_reducible assumption | intro _ | dsimp only | with_reducible apply ok_ite | with_reducible apply ok_iteP
    | with_reducible apply ok_elim | with_reducible apply ok_elimP | with_reducible apply remaster_ok | split

theorem ringDown_ok (s : State) {orig : State} (ok0 : Ok orig s) :
    Ok orig (State.ringDown s) := by
  unfold State.ringDown
  repeat' first
    | with_reducible assumption | intro _ | dsimp only | with_reducible apply ok_ite | with_reducible apply ok_iteP
    | with_reducible apply ok_elim | with_reducible apply ok_elimP | with_reducible apply modRhl_ok
    | with_reducible apply refreshGood_ok | with_reducible apply realignLink_ok | with_reducible apply leaveDomain_ok | split

theorem restartTraining_ok (s : State) {orig : State} (ok0 : Ok orig s) :
    Ok orig (State.restartTraining s) := by
  unfold State.restartTraining
  repeat' first
    | with_reducible assumption | intro _ | dsimp only | with_reducible apply ok_ite | with_reducible apply ok_iteP
    | with_reducible apply ok_elim | with_reducible apply ok_elimP | with_reducible apply modRhl_ok
    | with_reducible apply reshapeEvent_ok | with_reducible apply ringDown_ok | split

theorem writeRank_ok (s : State) (id slot : Nat) {orig : State} (ok0 : Ok orig s) :
    Ok orig (State.writeRank s id slot) := by
  unfold State.writeRank
  repeat' first
    | with_reducible assumption | intro _ | dsimp only | with_reducible apply ok_ite | with_reducible apply ok_iteP
    | with_reducible apply ok_elim | with_reducible apply ok_elimP | with_reducible apply modRhl_ok
    | with_reducible apply ringDown_ok | with_reducible apply restartTraining_ok | split

theorem modColl_ok (s : State) (step : Nat) (f : Coll → Coll) {orig : State} (ok0 : Ok orig s) :
    Ok orig (State.modColl s step f) := by
  unfold State.modColl
  repeat' first
    | with_reducible assumption | intro _ | dsimp only | with_reducible apply ok_ite | with_reducible apply ok_iteP
    | with_reducible apply ok_elim | with_reducible apply ok_elimP | with_reducible apply modRhl_ok | split

theorem collPut_ok (s : State) (c : Coll) (e : Nat) (ws : List W32) {orig : State} (ok0 : Ok orig s) :
    Ok orig (State.collPut s c e ws) := by
  unfold State.collPut
  repeat' first
    | with_reducible assumption | intro _ | dsimp only | with_reducible apply ok_ite | with_reducible apply ok_iteP
    | with_reducible apply ok_elim | with_reducible apply ok_elimP | with_reducible apply writeLocal_ok | split

theorem reserveCredits_ok (s : State) (l : Nat) (red : Bool) (c : Coll) (n : Nat) {orig : State} (ok0 : Ok orig s) :
    Ok orig (State.reserveCredits s l red c n) := by
  unfold State.reserveCredits
  repeat' first
    | with_reducible assumption | intro _ | dsimp only | with_reducible apply ok_ite | with_reducible apply ok_iteP
    | with_reducible apply ok_elim | with_reducible apply ok_elimP | with_reducible apply modLink_ok | split

theorem returnCredits_ok (s : State) (step : Nat) {orig : State} (ok0 : Ok orig s) :
    Ok orig (State.returnCredits s step) := by
  unfold State.returnCredits
  repeat' first
    | with_reducible assumption | intro _ | dsimp only | with_reducible apply ok_ite | with_reducible apply ok_iteP
    | with_reducible apply ok_elim | with_reducible apply ok_elimP | with_reducible apply modRhl_ok | split

theorem collSend_ok (s : State) (step : Nat) (y : Bool) (f : RingFlit) {orig : State} (ok0 : Ok orig s) :
    Ok orig (State.collSend s step y f) := by
  unfold State.collSend
  repeat' first
    | with_reducible assumption | intro _ | dsimp only | with_reducible apply ok_ite | with_reducible apply ok_iteP
    | with_reducible apply ok_elim | with_reducible apply ok_elimP | with_reducible apply emit_ok
    | with_reducible apply modColl_ok | split

theorem flushWaiting_ok (s : State) {orig : State} (ok0 : Ok orig s) :
    Ok orig (State.flushWaiting s) := by
  unfold State.flushWaiting
  repeat' first
    | with_reducible assumption | intro _ | dsimp only | with_reducible apply ok_ite | with_reducible apply ok_iteP
    | with_reducible apply ok_elim | with_reducible apply ok_elimP | with_reducible apply modColl_ok
    | with_reducible apply reserveCredits_ok | with_reducible apply collSend_ok
    | with_reducible refine each_ok (fun _ _ h => ?_) ?_ | split

theorem sendChunk_ok (s : State) (c : Coll) (ph : CollPhase) (red : Bool) (chunk lo n : Nat) {orig : State} (ok0 : Ok orig s) :
    Ok orig (State.sendChunk s c ph red chunk lo n) := by
  unfold State.sendChunk
  repeat' first
    | with_reducible assumption | intro _ | dsimp only | with_reducible apply ok_ite | with_reducible apply ok_iteP
    | with_reducible apply ok_elim | with_reducible apply ok_elimP | with_reducible apply collSend_ok
    | with_reducible refine each_ok (fun _ _ h => ?_) ?_ | split

theorem collFlit_ok (s : State) (c : Coll) (ph : CollPhase) (f : RingFlit) {orig : State} (ok0 : Ok orig s) :
    Ok orig (State.collFlit s c ph f) := by
  unfold State.collFlit
  repeat' first
    | with_reducible assumption | intro _ | dsimp only | with_reducible apply ok_ite | with_reducible apply ok_iteP
    | with_reducible apply ok_elim | with_reducible apply ok_elimP | with_reducible apply faultStep_ok
    | with_reducible apply modColl_ok | with_reducible apply collPut_ok | with_reducible apply collSend_ok | split

theorem beginPhase_ok (s : State) (c : Coll) (ph : CollPhase) {orig : State} (ok0 : Ok orig s) :
    Ok orig (State.beginPhase s c ph) := by
  unfold State.beginPhase
  repeat' first
    | with_reducible assumption | intro _ | dsimp only | with_reducible apply ok_ite | with_reducible apply ok_iteP
    | with_reducible apply ok_elim | with_reducible apply ok_elimP | with_reducible apply modColl_ok
    | with_reducible apply reserveCredits_ok | with_reducible apply returnCredits_ok | with_reducible apply sendChunk_ok | split

theorem runEarly_ok (s : State) (c : Coll) (ph : CollPhase) {orig : State} (ok0 : Ok orig s) :
    Ok orig (State.runEarly s c ph) := by
  unfold State.runEarly
  repeat' first
    | with_reducible assumption | intro _ | dsimp only | with_reducible apply ok_ite | with_reducible apply ok_iteP
    | with_reducible apply ok_elim | with_reducible apply ok_elimP | with_reducible apply modColl_ok
    | with_reducible apply collFlit_ok | with_reducible refine each_ok (fun _ _ h => ?_) ?_ | split

theorem advanceColl_ok (s : State) (step k : Nat) {orig : State} (ok0 : Ok orig s) : Ok orig (State.advanceColl s step k) := by
  induction k generalizing s with
  | zero => exact ok0
  | succ k ih =>
    unfold State.advanceColl
    split
    · exact ok0
    · refine ok_ite ok0 ?_
      dsimp only
      split
      · exact ok_ite (returnCredits_ok _ _ (modRhl_ok ok0)) ok0
      · exact ih _ (runEarly_ok _ _ _ (beginPhase_ok _ _ _ (modColl_ok _ _ _ ok0)))

theorem startColl_ok (s : State) (t : Step) (op : CollOp) (dim : CollDim) (int32 : Bool) (n root tile laddr : Nat) {orig : State} (ok0 : Ok orig s) :
    Ok orig (State.startColl s t op dim int32 n root tile laddr) := by
  unfold State.startColl
  repeat' first
    | with_reducible assumption | intro _ | dsimp only | with_reducible apply ok_ite | with_reducible apply ok_iteP
    | with_reducible apply ok_elim | with_reducible apply ok_elimP | with_reducible apply modRhl_ok
    | with_reducible apply faultStep_ok | with_reducible apply endStep_ok | with_reducible apply advanceColl_ok | split

/-! ## Machine/FabricOps.lean -/

theorem modRed_ok (s : State) (id : Nat) (f : Red → Red) {orig : State} (ok0 : Ok orig s) :
    Ok orig (State.modRed s id f) := by
  unfold State.modRed
  repeat' first
    | with_reducible assumption | intro _ | dsimp only | with_reducible apply ok_ite | with_reducible apply ok_iteP
    | with_reducible apply ok_elim | with_reducible apply ok_elimP | with_reducible apply modFab_ok | split

theorem redFault_ok (s : State) (r : Red) (c : Code) {orig : State} (ok0 : Ok orig s) :
    Ok orig (State.redFault s r c) := by
  unfold State.redFault
  repeat' first
    | with_reducible assumption | intro _ | dsimp only | with_reducible apply ok_ite | with_reducible apply ok_iteP
    | with_reducible apply ok_elim | with_reducible apply ok_elimP | with_reducible apply faultStep_ok
    | with_reducible apply modRed_ok | split

theorem rootOutput_ok (s : State) (r : Red) (t : TreeEntry) (poison : Bool) (ws : List W32) {orig : State} (ok0 : Ok orig s) :
    Ok orig (rootOutput s r t poison ws) := by
  unfold rootOutput
  repeat' first
    | with_reducible assumption | intro _ | dsimp only | with_reducible apply ok_ite | with_reducible apply ok_iteP
    | with_reducible apply ok_elim | with_reducible apply ok_elimP | with_reducible apply emit_ok
    | with_reducible apply writeLocal_ok | with_reducible apply redFault_ok | with_reducible refine each_ok (fun _ _ h => ?_) ?_
    | split

theorem countPoison_ok (s : State) (site : Nat) {orig : State} (ok0 : Ok orig s) :
    Ok orig (countPoison s site) := by
  unfold countPoison
  repeat' first
    | with_reducible assumption | intro _ | dsimp only | with_reducible apply ok_ite | with_reducible apply ok_iteP
    | with_reducible apply ok_elim | with_reducible apply ok_elimP | with_reducible apply modFab_ok
    | with_reducible refine each_ok (fun _ _ h => ?_) ?_ | split

theorem emitNode_ok (s : State) (r : Red) (t : TreeEntry) (node : Nat) {orig : State} (ok0 : Ok orig s) :
    Ok orig (emitNode s r t node) := by
  unfold emitNode
  repeat' first
    | with_reducible assumption | intro _ | dsimp only | with_reducible apply ok_ite | with_reducible apply ok_iteP
    | with_reducible apply ok_elim | with_reducible apply ok_elimP | with_reducible apply modFab_ok | with_reducible apply take_ok
    | with_reducible apply modRed_ok | with_reducible apply redFault_ok | with_reducible apply rootOutput_ok
    | with_reducible apply countPoison_ok | with_reducible refine ok_foldl (fun _ _ h => ?_) _ ?_
    | with_reducible refine ok_foldlP (fun v => v.1) (fun _ _ h => ?_) _ ?_ | split

theorem setPort_ok (s : State) (p : Port) {orig : State} (ok0 : Ok orig s) :
    Ok orig (State.setPort s p) := by
  unfold State.setPort
  repeat' first
    | with_reducible assumption | intro _ | dsimp only | with_reducible apply ok_ite | with_reducible apply ok_iteP
    | with_reducible apply ok_elim | with_reducible apply ok_elimP | with_reducible apply modFab_ok | split

theorem takeBuffer_ok (s : State) (node port : Nat) (x : FabFlit) {orig : State} (ok0 : Ok orig s) :
    Ok orig (takeBuffer s node port x) := by
  unfold takeBuffer
  repeat' first
    | with_reducible assumption | intro _ | dsimp only | with_reducible apply ok_ite | with_reducible apply ok_iteP
    | with_reducible apply ok_elim | with_reducible apply ok_elimP | with_reducible apply modFab_ok
    | with_reducible apply setPort_ok | split

theorem moveFlit_ok (s : State) (node out : Nat) {orig : State} (ok0 : Ok orig s) :
    Ok orig (moveFlit s node out) := by
  unfold moveFlit
  repeat' first
    | with_reducible assumption | intro _ | dsimp only | with_reducible apply ok_ite | with_reducible apply ok_iteP
    | with_reducible apply ok_elim | with_reducible apply ok_elimP | with_reducible apply modFab_ok
    | with_reducible apply setPort_ok | split

theorem moveAll_ok (k : Nat) (s : State) {orig : State} (ok0 : Ok orig s) : Ok orig (moveAll k s) := by
  induction k generalizing s with
  | zero => exact ok0
  | succ k ih =>
    unfold moveAll
    exact ok_ite ok0 (ih _ (each_ok (fun _ _ ok0 => moveFlit_ok _ _ _ ok0) ok0))

theorem modFabDie_ok (s : State) (n : Nat) (f : FabDie → FabDie) {orig : State} (ok0 : Ok orig s) :
    Ok orig (State.modFabDie s n f) := by
  unfold State.modFabDie
  repeat' first
    | with_reducible assumption | intro _ | dsimp only | with_reducible apply ok_ite | with_reducible apply ok_iteP
    | with_reducible apply ok_elim | with_reducible apply ok_elimP | with_reducible apply modFab_ok | split

/-! ## Machine/ResetOps.lean -/

theorem endDma_ok (s : State) (e : Nat) (c : Code) (done : Nat) {orig : State} (ok0 : Ok orig s) :
    Ok orig (State.endDma s e c done) := by
  unfold State.endDma
  repeat' first
    | with_reducible assumption | intro _ | dsimp only | with_reducible apply ok_ite | with_reducible apply ok_iteP
    | with_reducible apply ok_elim | with_reducible apply ok_elimP | with_reducible apply modHif_ok
    | with_reducible apply signal_ok | with_reducible apply dropJobs_ok | with_reducible apply abandonUp_ok | split

theorem abortDma_ok (s : State) (p : Nat → Bool) {orig : State} (ok0 : Ok orig s) :
    Ok orig (State.abortDma s p) := by
  unfold State.abortDma
  repeat' first
    | with_reducible assumption | intro _ | dsimp only | with_reducible apply ok_ite | with_reducible apply ok_iteP
    | with_reducible apply ok_elim | with_reducible apply ok_elimP | with_reducible apply endDma_ok
    | with_reducible refine each_ok (fun _ _ h => ?_) ?_ | split

theorem fencePorts_ok (s : State) (k : Party) {orig : State} (ok0 : Ok orig s) :
    Ok orig (fencePorts s k) := by
  unfold fencePorts
  repeat' first
    | with_reducible assumption | intro _ | dsimp only | with_reducible apply ok_ite | with_reducible apply ok_iteP
    | with_reducible apply ok_elim | with_reducible apply ok_elimP | with_reducible apply modGrn_ok
    | with_reducible apply dropJobs_ok | with_reducible apply dropWalks_ok | with_reducible apply fetch_ok
    | with_reducible apply abortDma_ok | split

theorem fenceAnswers_ok (s : State) (k : Party) {orig : State} (ok0 : Ok orig s) :
    Ok orig (fenceAnswers s k) := by
  unfold fenceAnswers
  repeat' first
    | with_reducible assumption | intro _ | dsimp only | with_reducible apply ok_ite | with_reducible apply ok_iteP
    | with_reducible apply ok_elim | with_reducible apply ok_elimP | with_reducible apply modTile_ok
    | with_reducible apply modGrn_ok | with_reducible apply hold_ok | with_reducible apply modGroup_ok
    | with_reducible apply tokenStatus_ok | with_reducible apply retryPool_ok | with_reducible apply modRed_ok
    | with_reducible refine each_ok (fun _ _ h => ?_) ?_ | split

theorem fenceRevoke_ok (s : State) (k : Party) {orig : State} (ok0 : Ok orig s) :
    Ok orig (fenceRevoke s k) := by
  unfold fenceRevoke
  repeat' first
    | with_reducible assumption | intro _ | dsimp only | with_reducible apply ok_ite | with_reducible apply ok_iteP
    | with_reducible apply ok_elim | with_reducible apply ok_elimP | with_reducible apply modTile_ok
    | with_reducible apply modSrv_ok | with_reducible apply modRhl_ok | with_reducible apply serveToken_ok
    | with_reducible refine each_ok (fun _ _ h => ?_) ?_ | split

theorem fence_ok (s : State) (k : Party) {orig : State} (ok0 : Ok orig s) :
    Ok orig (fence s k) := by
  unfold fence
  repeat' first
    | with_reducible assumption | intro _ | dsimp only | with_reducible apply ok_ite | with_reducible apply ok_iteP
    | with_reducible apply ok_elim | with_reducible apply ok_elimP | with_reducible apply modRst_ok
    | with_reducible apply event_ok | with_reducible apply partEvent_ok | with_reducible apply signal_ok
    | with_reducible apply fencePorts_ok | with_reducible apply fenceAnswers_ok | with_reducible apply fenceRevoke_ok | split

theorem clearTiles_ok (s : State) (p : Nat → Bool) {orig : State} (ok0 : Ok orig s) :
    Ok orig (State.clearTiles s p) := by
  unfold State.clearTiles
  repeat' first
    | with_reducible assumption | intro _ | dsimp only | with_reducible apply ok_ite | with_reducible apply ok_iteP
    | with_reducible apply ok_elim | with_reducible apply ok_elimP | with_reducible apply modTile_ok | split

theorem setCause_ok (s : State) (c : Code) (type source target : Nat) {orig : State} (ok0 : Ok orig s) :
    Ok orig (State.setCause s c type source target) := by
  unfold State.setCause
  repeat' first
    | with_reducible assumption | intro _ | dsimp only | with_reducible apply ok_ite | with_reducible apply ok_iteP
    | with_reducible apply ok_elim | with_reducible apply ok_elimP | with_reducible apply modRst_ok | split

theorem setPartState_ok (s : State) (p : Nat) (v : PartState) {orig : State} (ok0 : Ok orig s) :
    Ok orig (State.setPartState s p v) := by
  unfold State.setPartState
  repeat' first
    | with_reducible assumption | intro _ | dsimp only | with_reducible apply ok_ite | with_reducible apply ok_iteP
    | with_reducible apply ok_elim | with_reducible apply ok_elimP | with_reducible apply modPart_ok
    | with_reducible apply signalPart_ok | split

theorem clearQueues_ok (s : State) (p : Nat) {orig : State} (ok0 : Ok orig s) :
    Ok orig (clearQueues s p) := by
  unfold clearQueues
  repeat' first
    | with_reducible assumption | intro _ | dsimp only | with_reducible apply ok_ite | with_reducible apply ok_iteP
    | with_reducible apply ok_elim | with_reducible apply ok_elimP | with_reducible apply modStp_ok
    | with_reducible apply modPart_ok | split

theorem partReset_ok (s : State) (p source : Nat) {orig : State} (ok0 : Ok orig s) :
    Ok orig (partReset s p source) := by
  unfold partReset
  repeat' first
    | with_reducible assumption | intro _ | dsimp only | with_reducible apply ok_ite | with_reducible apply ok_iteP
    | with_reducible apply ok_elim | with_reducible apply ok_elimP | with_reducible apply modRst_ok
    | with_reducible apply modPart_ok | with_reducible apply signalPart_ok | with_reducible apply endPartSteps_ok
    | with_reducible apply fence_ok | with_reducible apply clearTiles_ok | with_reducible apply setCause_ok
    | with_reducible apply clearQueues_ok | split

theorem resetThreshers_ok (s : State) (n : Nat) {orig : State} (ok0 : Ok orig s) :
    Ok orig (resetThreshers s n) := by
  unfold resetThreshers
  repeat' first
    | with_reducible assumption | intro _ | dsimp only | with_reducible apply ok_ite | with_reducible apply ok_iteP
    | with_reducible apply ok_elim | with_reducible apply ok_elimP | with_reducible apply modFab_ok | split

theorem dieDown_ok (s : State) (n : Nat) (c : Code) {orig : State} (ok0 : Ok orig s) :
    Ok orig (dieDown s n c) := by
  unfold dieDown
  repeat' first
    | with_reducible assumption | intro _ | dsimp only | with_reducible apply ok_ite | with_reducible apply ok_iteP
    | with_reducible apply ok_elim | with_reducible apply ok_elimP | with_reducible apply endStep_ok
    | with_reducible apply fence_ok | with_reducible apply clearTiles_ok | with_reducible apply setPartState_ok
    | with_reducible apply resetThreshers_ok | with_reducible refine each_ok (fun _ _ h => ?_) ?_ | split

theorem dieReset_ok (s : State) (n : Nat) (c : Code) (source : Nat) {orig : State} (ok0 : Ok orig s) :
    Ok orig (dieReset s n c source) := by
  unfold dieReset
  repeat' first
    | with_reducible assumption | intro _ | dsimp only | with_reducible apply ok_ite | with_reducible apply ok_iteP
    | with_reducible apply ok_elim | with_reducible apply ok_elimP | with_reducible apply modFabDie_ok
    | with_reducible apply setCause_ok | with_reducible apply dieDown_ok | split

theorem dieReload_ok (s : State) (n : Nat) (c : Code) (source : Nat) {orig : State} (ok0 : Ok orig s) :
    Ok orig (dieReload s n c source) := by
  unfold dieReload
  repeat' first
    | with_reducible assumption | intro _ | dsimp only | with_reducible apply ok_ite | with_reducible apply ok_iteP
    | with_reducible apply ok_elim | with_reducible apply ok_elimP | with_reducible apply event_ok
    | with_reducible apply modFabDie_ok | with_reducible apply dieDown_ok | with_reducible apply dieReset_ok | split

theorem railsOn_ok (s : State) (m : BitVec 64) {orig : State} (ok0 : Ok orig s) :
    Ok orig (State.railsOn s m) := by
  unfold State.railsOn
  repeat' first
    | with_reducible assumption | intro _ | dsimp only | with_reducible apply ok_ite | with_reducible apply ok_iteP
    | with_reducible apply ok_elim | with_reducible apply ok_elimP | with_reducible apply modRst_ok | split

theorem railsOff_ok (s : State) (m : BitVec 64) {orig : State} (ok0 : Ok orig s) :
    Ok orig (State.railsOff s m) := by
  unfold State.railsOff
  repeat' first
    | with_reducible assumption | intro _ | dsimp only | with_reducible apply ok_ite | with_reducible apply ok_iteP
    | with_reducible apply ok_elim | with_reducible apply ok_elimP | with_reducible apply modRst_ok | split

theorem powerGood_ok (s : State) (m : BitVec 64) {orig : State} (ok0 : Ok orig s) :
    Ok orig (State.powerGood s m) := by
  unfold State.powerGood
  repeat' first
    | with_reducible assumption | intro _ | dsimp only | with_reducible apply ok_ite | with_reducible apply ok_iteP
    | with_reducible apply ok_elim | with_reducible apply ok_elimP | with_reducible apply modRst_ok | split

theorem modDie_ok (s : State) (n : Nat) (f : DieWake → DieWake) {orig : State} (ok0 : Ok orig s) :
    Ok orig (State.modDie s n f) := by
  unfold State.modDie
  repeat' first
    | with_reducible assumption | intro _ | dsimp only | with_reducible apply ok_ite | with_reducible apply ok_iteP
    | with_reducible apply ok_elim | with_reducible apply ok_elimP | with_reducible apply modRst_ok | split

theorem seqOp_ok (s : State) (n : Nat) (o : SeqOp) {orig : State} (ok0 : Ok orig s) :
    Ok orig (seqOp s n o) := by
  unfold seqOp
  repeat' first
    | with_reducible assumption | intro _ | dsimp only | with_reducible apply ok_ite | with_reducible apply ok_iteP
    | with_reducible apply ok_elim | with_reducible apply ok_elimP | with_reducible apply railsOn_ok
    | with_reducible apply railsOff_ok | with_reducible apply modDie_ok | split

theorem seqDown_ok (s : State) (n : Nat) {orig : State} (ok0 : Ok orig s) :
    Ok orig (seqDown s n) := by
  unfold seqDown
  repeat' first
    | with_reducible assumption | intro _ | dsimp only | with_reducible apply ok_ite | with_reducible apply ok_iteP
    | with_reducible apply ok_elim | with_reducible apply ok_elimP | with_reducible apply seqOp_ok
    | with_reducible refine each_ok (fun _ _ h => ?_) ?_ | split

theorem seqUpAll_ok (s : State) (n : Nat) {orig : State} (ok0 : Ok orig s) :
    Ok orig (seqUpAll s n) := by
  unfold seqUpAll
  repeat' first
    | with_reducible assumption | intro _ | dsimp only | with_reducible apply ok_ite | with_reducible apply ok_iteP
    | with_reducible apply ok_elim | with_reducible apply ok_elimP | with_reducible apply powerGood_ok
    | with_reducible apply seqOp_ok | with_reducible refine each_ok (fun _ _ h => ?_) ?_ | split

theorem flushLine_ok (s : State) (l : GLine) {orig : State} (ok0 : Ok orig s) :
    Ok orig (flushLine s l) := by
  unfold flushLine
  repeat' first
    | with_reducible assumption | intro _ | dsimp only | with_reducible apply ok_ite | with_reducible apply ok_iteP
    | with_reducible apply ok_elim | with_reducible apply ok_elimP | with_reducible apply flush_ok | split

theorem flushWaiters_ok (s : State) (m : Miss) {orig : State} (ok0 : Ok orig s) :
    Ok orig (flushWaiters s m) := by
  unfold flushWaiters
  repeat' first
    | with_reducible assumption | intro _ | dsimp only | with_reducible apply ok_ite | with_reducible apply ok_iteP
    | with_reducible apply ok_elim | with_reducible apply ok_elimP | with_reducible apply answerWaiters_ok
    | with_reducible apply poisonWaiters_ok | with_reducible apply fillData_ok | split

theorem flushMiss_ok (s : State) (m : Miss) {orig : State} (ok0 : Ok orig s) :
    Ok orig (flushMiss s m) := by
  unfold flushMiss
  repeat' first
    | with_reducible assumption | intro _ | dsimp only | with_reducible apply ok_ite | with_reducible apply ok_iteP
    | with_reducible apply ok_elim | with_reducible apply ok_elimP | with_reducible apply flush_ok
    | with_reducible apply flushWaiters_ok | split

theorem sliceLeaves_ok (s : State) (n : Nat) {orig : State} (ok0 : Ok orig s) :
    Ok orig (sliceLeaves s n) := by
  unfold sliceLeaves
  repeat' first
    | with_reducible assumption | intro _ | dsimp only | with_reducible apply ok_ite | with_reducible apply ok_iteP
    | with_reducible apply ok_elim | with_reducible apply ok_elimP | with_reducible apply modGrn_ok
    | with_reducible apply readDirect_ok | with_reducible apply serveStore_ok | with_reducible apply fillData_ok
    | with_reducible apply flushLine_ok | with_reducible apply flushMiss_ok | ((with_reducible apply modMem_ok); · intro m; rfl)
    | ((with_reducible apply modMem_ok_wf); · intro m w; rfl) | with_reducible refine each_ok (fun _ _ h => ?_) ?_ | split

theorem railsLost_ok (s : State) (cold : Bool) {orig : State} (ok0 : Ok orig s) : Ok orig (railsLost s cold) :=
  ⟨ok0.1, fun _ => by cases cold <;> rfl⟩

theorem lockout_ok (s : State) {orig : State} (ok0 : Ok orig s) :
    Ok orig (lockout s) := by
  unfold lockout
  repeat' first
    | with_reducible assumption | intro _ | dsimp only | with_reducible apply ok_ite | with_reducible apply ok_iteP
    | with_reducible apply ok_elim | with_reducible apply ok_elimP | with_reducible apply modRst_ok
    | with_reducible apply railsLost_ok | split

theorem stageOneFail_ok (s : State) {orig : State} (ok0 : Ok orig s) :
    Ok orig (stageOneFail s) := by
  unfold stageOneFail
  repeat' first
    | with_reducible assumption | intro _ | dsimp only | with_reducible apply ok_ite | with_reducible apply ok_iteP
    | with_reducible apply ok_elim | with_reducible apply ok_elimP | with_reducible apply modRst_ok
    | with_reducible apply event_ok | with_reducible apply railsLost_ok | with_reducible apply lockout_ok | split

theorem hubStep_ok (s : State) (k : Nat) {orig : State} (ok0 : Ok orig s) :
    Ok orig (hubStep s k) := by
  unfold hubStep
  repeat' first
    | with_reducible assumption | intro _ | dsimp only | with_reducible apply ok_ite | with_reducible apply ok_iteP
    | with_reducible apply ok_elim | with_reducible apply ok_elimP | with_reducible apply modRst_ok
    | with_reducible apply railsOn_ok | with_reducible apply stageOneFail_ok | split

theorem stepFailed_ok (s : State) (step tries die : Nat) {orig : State} (ok0 : Ok orig s) :
    Ok orig (stepFailed s step tries die) := by
  unfold stepFailed
  repeat' first
    | with_reducible assumption | intro _ | dsimp only | with_reducible apply ok_ite | with_reducible apply ok_iteP
    | with_reducible apply ok_elim | with_reducible apply ok_elimP | with_reducible apply modRst_ok | split

theorem settleStage2_ok (s : State) {orig : State} (ok0 : Ok orig s) :
    Ok orig (settleStage2 s) := by
  unfold settleStage2
  repeat' first
    | with_reducible assumption | intro _ | dsimp only | with_reducible apply ok_ite | with_reducible apply ok_iteP
    | with_reducible apply ok_elim | with_reducible apply ok_elimP | with_reducible apply modRst_ok
    | with_reducible apply lockout_ok | with_reducible refine ok_foldl (fun _ _ h => ?_) _ ?_
    | with_reducible refine ok_foldlP (fun v => v.1) (fun _ _ h => ?_) _ ?_ | split

theorem failStacks_ok (s : State) (n : Nat) {orig : State} (ok0 : Ok orig s) :
    Ok orig (failStacks s n) := by
  unfold failStacks
  repeat' first
    | with_reducible assumption | intro _ | dsimp only | with_reducible apply ok_ite | with_reducible apply ok_iteP
    | with_reducible apply ok_elim | with_reducible apply ok_elimP | with_reducible apply modStack_ok | split

theorem dropBoot_ok (s : State) {orig : State} (ok0 : Ok orig s) :
    Ok orig (dropBoot s) := by
  unfold dropBoot
  repeat' first
    | with_reducible assumption | intro _ | dsimp only | with_reducible apply ok_ite | with_reducible apply ok_iteP
    | with_reducible apply ok_elim | with_reducible apply ok_elimP | with_reducible apply modSld_ok | split

theorem dieRailsOff_ok (s : State) (n : Nat) {orig : State} (ok0 : Ok orig s) :
    Ok orig (dieRailsOff s n) := by
  unfold dieRailsOff
  repeat' first
    | with_reducible assumption | intro _ | dsimp only | with_reducible apply ok_ite | with_reducible apply ok_iteP
    | with_reducible apply ok_elim | with_reducible apply ok_elimP | with_reducible apply railsOff_ok
    | with_reducible apply seqDown_ok | split

theorem stageTwoFail_ok (s : State) (n : Nat) {orig : State} (ok0 : Ok orig s) :
    Ok orig (stageTwoFail s n) := by
  unfold stageTwoFail
  repeat' first
    | with_reducible assumption | intro _ | dsimp only | with_reducible apply ok_ite | with_reducible apply ok_iteP
    | with_reducible apply ok_elim | with_reducible apply ok_elimP | with_reducible apply modRst_ok
    | with_reducible apply event_ok | with_reducible apply modDie_ok | with_reducible apply settleStage2_ok
    | with_reducible apply failStacks_ok | with_reducible apply dropBoot_ok | with_reducible apply dieRailsOff_ok | split

theorem seqRun_ok (n : Nat) (os : List SeqOp) (i : Nat) (s : State) {orig : State} (ok0 : Ok orig s) : Ok orig (seqRun n os i s) := by
  induction os generalizing i s with
  | nil => exact settleStage2_ok _ (modDie_ok _ _ _ ok0)
  | cons o os ih =>
    unfold seqRun
    exact ok_ite (modDie_ok _ _ _ ok0) (ok_ite (stageTwoFail_ok _ _ ok0) (ih _ _ (seqOp_ok _ _ _ ok0)))

theorem startDie_ok (s : State) (n : Nat) {orig : State} (ok0 : Ok orig s) :
    Ok orig (startDie s n) := by
  unfold startDie
  repeat' first
    | with_reducible assumption | intro _ | dsimp only | with_reducible apply ok_ite | with_reducible apply ok_iteP
    | with_reducible apply ok_elim | with_reducible apply ok_elimP | with_reducible apply modDie_ok
    | with_reducible apply seqRun_ok | split

theorem seqResume_ok (s : State) (n : Nat) {orig : State} (ok0 : Ok orig s) :
    Ok orig (seqResume s n) := by
  unfold seqResume
  repeat' first
    | with_reducible assumption | intro _ | dsimp only | with_reducible apply ok_ite | with_reducible apply ok_iteP
    | with_reducible apply ok_elim | with_reducible apply ok_elimP | with_reducible apply powerGood_ok
    | with_reducible apply seqRun_ok | split

theorem startStage2_ok (s : State) {orig : State} (ok0 : Ok orig s) :
    Ok orig (startStage2 s) := by
  unfold startStage2
  repeat' first
    | with_reducible assumption | intro _ | dsimp only | with_reducible apply ok_ite | with_reducible apply ok_iteP
    | with_reducible apply ok_elim | with_reducible apply ok_elimP | with_reducible apply settleStage2_ok
    | with_reducible apply startDie_ok | with_reducible refine each_ok (fun _ _ h => ?_) ?_ | split

theorem writeBackAll_ok (s : State) {orig : State} (ok0 : Ok orig s) :
    Ok orig (writeBackAll s) := by
  unfold writeBackAll
  repeat' first
    | with_reducible assumption | intro _ | dsimp only | with_reducible apply ok_ite | with_reducible apply ok_iteP
    | with_reducible apply ok_elim | with_reducible apply ok_elimP | with_reducible apply flush_ok
    | with_reducible apply flushLine_ok | with_reducible refine each_ok (fun _ _ h => ?_) ?_ | split

theorem warmHub_ok (s : State) (keep : Bool) {orig : State} (ok0 : Ok orig s) :
    Ok orig (warmHub s keep) := by
  unfold warmHub
  repeat' first
    | with_reducible assumption | intro _ | dsimp only | with_reducible apply ok_ite | with_reducible apply ok_iteP
    | with_reducible apply ok_elim | with_reducible apply ok_elimP | with_reducible apply modBwr_ok
    | with_reducible apply modStp_ok | with_reducible apply modSrv_ok | with_reducible apply modTrl_ok
    | with_reducible apply modHif_ok | with_reducible apply emit_ok | with_reducible apply abandonUp_ok
    | with_reducible refine each_ok (fun _ _ h => ?_) ?_ | split

theorem warmDies_ok (s : State) (keep : Bool) {orig : State} (ok0 : Ok orig s) :
    Ok orig (warmDies s keep) := by
  unfold warmDies
  repeat' first
    | with_reducible assumption | intro _ | dsimp only | with_reducible apply ok_ite | with_reducible apply ok_iteP
    | with_reducible apply ok_elim | with_reducible apply ok_elimP | with_reducible apply modTile_ok
    | with_reducible apply modGrn_ok | with_reducible apply modFab_ok | with_reducible apply groupFault_ok
    | with_reducible apply writeBackAll_ok | ((with_reducible apply modMem_ok); · intro m; rfl)
    | ((with_reducible apply modMem_ok_wf); · intro m w; rfl) | split

theorem warmStart_ok (s : State) (keep commit : Bool) (source : Nat) {orig : State} (ok0 : Ok orig s) :
    Ok orig (warmStart s keep commit source) := by
  unfold warmStart
  repeat' first
    | with_reducible assumption | intro _ | dsimp only | with_reducible apply ok_ite | with_reducible apply ok_iteP
    | with_reducible apply ok_elim | with_reducible apply ok_elimP | with_reducible apply modPwr_ok
    | with_reducible apply modRst_ok | with_reducible apply signalPart_ok | with_reducible apply endStep_ok
    | with_reducible apply refreshGood_ok | with_reducible apply ringDown_ok | with_reducible apply abortDma_ok
    | with_reducible apply setCause_ok | with_reducible apply startStage2_ok | with_reducible apply warmHub_ok
    | with_reducible apply warmDies_ok | with_reducible refine each_ok (fun _ _ h => ?_) ?_ | split

/-! ## Machine/PowerStage.lean -/

theorem writeWear_ok (s : State) {orig : State} (ok0 : Ok orig s) :
    Ok orig (writeWear s) := by
  unfold writeWear
  repeat' first
    | with_reducible assumption | intro _ | dsimp only | with_reducible apply ok_ite | with_reducible apply ok_iteP
    | with_reducible apply ok_elim | with_reducible apply ok_elimP | with_reducible apply modFlash_ok | split

theorem beginWake_ok (s : State) (kind : WakeKind) (step : Nat) {orig : State} (ok0 : Ok orig s) :
    Ok orig (beginWake s kind step) := by
  unfold beginWake
  repeat' first
    | with_reducible assumption | intro _ | dsimp only | with_reducible apply ok_ite | with_reducible apply ok_iteP
    | with_reducible apply ok_elim | with_reducible apply ok_elimP | with_reducible apply modRst_ok
    | with_reducible apply hubStep_ok | split

theorem dropSteps_ok (s : State) {orig : State} (ok0 : Ok orig s) :
    Ok orig (dropSteps s) := by
  unfold dropSteps
  repeat' first
    | with_reducible assumption | intro _ | dsimp only | with_reducible apply ok_ite | with_reducible apply ok_iteP
    | with_reducible apply ok_elim | with_reducible apply ok_elimP | with_reducible apply modStp_ok
    | with_reducible apply unpin_ok | with_reducible apply clearStep_ok | with_reducible refine each_ok (fun _ _ h => ?_) ?_
    | split

theorem enterOff_ok (s : State) {orig : State} (ok0 : Ok orig s) :
    Ok orig (enterOff s) := by
  unfold enterOff
  repeat' first
    | with_reducible assumption | intro _ | dsimp only | with_reducible apply ok_ite | with_reducible apply ok_iteP
    | with_reducible apply ok_elim | with_reducible apply ok_elimP | with_reducible apply modPwr_ok | with_reducible apply emit_ok
    | with_reducible apply refreshGood_ok | with_reducible apply writeWear_ok | with_reducible apply dropSteps_ok | split

theorem enterStandby_ok (s : State) {orig : State} (ok0 : Ok orig s) :
    Ok orig (enterStandby s) := by
  unfold enterStandby
  repeat' first
    | with_reducible assumption | intro _ | dsimp only | with_reducible apply ok_ite | with_reducible apply ok_iteP
    | with_reducible apply ok_elim | with_reducible apply ok_elimP | with_reducible apply modPwr_ok
    | with_reducible apply railsLost_ok | with_reducible apply writeWear_ok | split

theorem leaveStandby_ok (s : State) {orig : State} (ok0 : Ok orig s) :
    Ok orig (leaveStandby s) := by
  unfold leaveStandby
  repeat' first
    | with_reducible assumption | intro _ | dsimp only | with_reducible apply ok_ite | with_reducible apply ok_iteP
    | with_reducible apply ok_elim | with_reducible apply ok_elimP | with_reducible apply modPwr_ok
    | with_reducible apply setCause_ok | with_reducible apply beginWake_ok | split

theorem leavePark_ok (s : State) {orig : State} (ok0 : Ok orig s) :
    Ok orig (leavePark s) := by
  unfold leavePark
  repeat' first
    | with_reducible assumption | intro _ | dsimp only | with_reducible apply ok_ite | with_reducible apply ok_iteP
    | with_reducible apply ok_elim | with_reducible apply ok_elimP | with_reducible apply modPwr_ok
    | with_reducible apply modRst_ok | with_reducible apply seqUpAll_ok | ((with_reducible apply modMem_ok); · intro m; rfl)
    | ((with_reducible apply modMem_ok_wf); · intro m w; rfl) | with_reducible refine each_ok (fun _ _ h => ?_) ?_ | split

theorem enterPark_ok (s : State) {orig : State} (ok0 : Ok orig s) :
    Ok orig (enterPark s) := by
  unfold enterPark
  repeat' first
    | with_reducible assumption | intro _ | dsimp only | with_reducible apply ok_ite | with_reducible apply ok_iteP
    | with_reducible apply ok_elim | with_reducible apply ok_elimP | with_reducible apply modGrn_ok
    | with_reducible apply modFab_ok | with_reducible apply modTrl_ok | with_reducible apply modRhl_ok
    | with_reducible apply modPwr_ok | with_reducible apply modRst_ok | with_reducible apply modHif_ok
    | with_reducible apply settlePosted_ok | with_reducible apply reshapeEvent_ok | with_reducible apply clearTiles_ok
    | with_reducible apply seqDown_ok | with_reducible apply writeBackAll_ok | ((with_reducible apply modMem_ok); · intro m; rfl)
    | ((with_reducible apply modMem_ok_wf); · intro m w; rfl) | with_reducible refine each_ok (fun _ _ h => ?_) ?_ | split

theorem settlePower_ok (s : State) {orig : State} (ok0 : Ok orig s) :
    Ok orig (settlePower s) := by
  unfold settlePower
  repeat' first
    | with_reducible assumption | intro _ | dsimp only | with_reducible apply ok_ite | with_reducible apply ok_iteP
    | with_reducible apply ok_elim | with_reducible apply ok_elimP | with_reducible apply modPwr_ok
    | with_reducible apply refreshGood_ok | with_reducible apply enterOff_ok | with_reducible apply enterStandby_ok
    | with_reducible apply leaveStandby_ok | with_reducible apply leavePark_ok | split

theorem order_ok (s : State) (f : Orders → Orders) {orig : State} (ok0 : Ok orig s) :
    Ok orig (State.order s f) := by
  unfold State.order
  repeat' first
    | with_reducible assumption | intro _ | dsimp only | with_reducible apply ok_ite | with_reducible apply ok_iteP
    | with_reducible apply ok_elim | with_reducible apply ok_elimP | with_reducible apply modPwr_ok
    | with_reducible apply powerEvent_ok | with_reducible apply capChange_ok | with_reducible apply settlePower_ok | split

theorem stageBoundary_ok (s : State) {orig : State} (ok0 : Ok orig s) :
    Ok orig (stageBoundary s) := by
  unfold stageBoundary
  repeat' first
    | with_reducible assumption | intro _ | dsimp only | with_reducible apply ok_ite | with_reducible apply ok_iteP
    | with_reducible apply ok_elim | with_reducible apply ok_elimP | with_reducible apply modStp_ok
    | with_reducible apply modPwr_ok | split

end Sys2Proof.Laws
end

