-- ==== Sys2Proof/Laws/OkEngines.lean ====
section
/-! SUPPORT. What `Ok` says of the commands of the Granary and of steps, of placing, of host data and of the engine jobs: one lemma for each. -/

namespace Sys2Proof.Laws

open Sys2Proof Sys2Proof.Machine

/-! ## Machine/GranaryCmds.lean -/

theorem dropReq_ok (s : State) (id : Nat) {orig : State} (ok0 : Ok orig s) :
    Ok orig (State.dropReq s id) := by
  unfold State.dropReq
  repeat' first
    | with_reducible assumption | intro _ | dsimp only | with_reducible apply ok_ite | with_reducible apply ok_iteP
    | with_reducible apply ok_elim | with_reducible apply ok_elimP | with_reducible apply modGrn_ok | split

theorem granaryRead_ok (s : State) (req : Nat) (ecc : GrEcc) {orig : State} (ok0 : Ok orig s) :
    Ok orig (granaryRead s req ecc) := by
  unfold granaryRead
  repeat' first
    | with_reducible assumption | intro _ | dsimp only | with_reducible apply ok_ite | with_reducible apply ok_iteP
    | with_reducible apply ok_elim | with_reducible apply ok_elimP | with_reducible apply serveRead_ok
    | with_reducible apply dropReq_ok | split

theorem granaryFill_ok (s : State) (line : Nat) (bursts : List Burst) {orig : State} (ok0 : Ok orig s) :
    Ok orig (granaryFill s line bursts) := by
  unfold granaryFill
  repeat' first
    | with_reducible assumption | intro _ | dsimp only | with_reducible apply ok_ite | with_reducible apply ok_iteP
    | with_reducible apply ok_elim | with_reducible apply ok_elimP | with_reducible apply fillArrives_ok
    | with_reducible apply directArrives_ok | split

theorem granaryStore_ok (s : State) (req : Nat) {orig : State} (ok0 : Ok orig s) :
    Ok orig (granaryStore s req) := by
  unfold granaryStore
  repeat' first
    | with_reducible assumption | intro _ | dsimp only | with_reducible apply ok_ite | with_reducible apply ok_iteP
    | with_reducible apply ok_elim | with_reducible apply ok_elimP | with_reducible apply serveStore_ok
    | with_reducible apply settlePosted_ok | with_reducible apply dropReq_ok | split

theorem wbGrant_ok (s : State) (x : Nat) (found : List Burst) {orig : State} (ok0 : Ok orig s) :
    Ok orig (wbGrant s x found) := by
  unfold wbGrant
  repeat' first
    | with_reducible assumption | intro _ | dsimp only | with_reducible apply ok_ite | with_reducible apply ok_iteP
    | with_reducible apply ok_elim | with_reducible apply ok_elimP | with_reducible apply grantWrite_ok
    | with_reducible apply settlePosted_ok | split

theorem winDenied_ok (s : State) (via : Nat) {orig : State} (ok0 : Ok orig s) :
    Ok orig (winDenied s via) := by
  unfold winDenied
  repeat' first
    | with_reducible assumption | intro _ | dsimp only | with_reducible apply ok_ite | with_reducible apply ok_iteP
    | with_reducible apply ok_elim | with_reducible apply ok_elimP | with_reducible apply modSlice_ok | split

theorem stageWindow_ok (s : State) (fn via n : Nat) (isLimit : Bool) (v : Nat) {orig : State} (ok0 : Ok orig s) :
    Ok orig (stageWindow s fn via n isLimit v) := by
  unfold stageWindow
  repeat' first
    | with_reducible assumption | intro _ | dsimp only | with_reducible apply ok_ite | with_reducible apply ok_iteP
    | with_reducible apply ok_elim | with_reducible apply ok_elimP | with_reducible apply modGrn_ok
    | with_reducible apply winDenied_ok | split

theorem controlWindow_ok (s : State) (fn via n : Nat) (v : W32) {orig : State} (ok0 : Ok orig s) :
    Ok orig (controlWindow s fn via n v) := by
  unfold controlWindow
  repeat' first
    | with_reducible assumption | intro _ | dsimp only | with_reducible apply ok_ite | with_reducible apply ok_iteP
    | with_reducible apply ok_elim | with_reducible apply ok_elimP | with_reducible apply modGrn_ok
    | with_reducible apply winDenied_ok | split

theorem commitWindows_ok (s : State) {orig : State} (ok0 : Ok orig s) :
    Ok orig (commitWindows s) := by
  unfold commitWindows
  repeat' first
    | with_reducible assumption | intro _ | dsimp only | with_reducible apply ok_ite | with_reducible apply ok_iteP
    | with_reducible apply ok_elim | with_reducible apply ok_elimP | with_reducible apply modGrn_ok
    | with_reducible refine ok_foldl (fun _ _ h => ?_) _ ?_
    | with_reducible refine ok_foldlP (fun v => v.1) (fun _ _ h => ?_) _ ?_ | split

theorem writeQuota_ok (s : State) (fn via p : Nat) (v : W32) {orig : State} (ok0 : Ok orig s) :
    Ok orig (writeQuota s fn via p v) := by
  unfold writeQuota
  repeat' first
    | with_reducible assumption | intro _ | dsimp only | with_reducible apply ok_ite | with_reducible apply ok_iteP
    | with_reducible apply ok_elim | with_reducible apply ok_elimP | with_reducible apply modGrn_ok
    | with_reducible apply modSlice_ok | with_reducible apply winDenied_ok | split

theorem execGrnWinStageWrite_ok (fn : Fn) (via : Die) (n : Fin 64) (isLimit : Bool) (value : W64) (s : State) : ∀ t, execGrnWinStageWrite fn via n isLimit value s = .next t → Ok s t := by
  intro t h
  have e : t = _ := (Host.Outcome.next.inj h).symm
  rw [e]; clear e h
  have ok0 : Ok s s := ok_refl _
  repeat' first
    | with_reducible assumption | intro _ | dsimp only | with_reducible apply ok_ite | with_reducible apply ok_iteP
    | with_reducible apply ok_elim | with_reducible apply ok_elimP | with_reducible apply hostAccess_ok
    | with_reducible apply stageWindow_ok | split

theorem execGrnWinCtrlWrite_ok (fn : Fn) (via : Die) (n : Fin 64) (value : W32) (s : State) : ∀ t, execGrnWinCtrlWrite fn via n value s = .next t → Ok s t := by
  intro t h
  have e : t = _ := (Host.Outcome.next.inj h).symm
  rw [e]; clear e h
  have ok0 : Ok s s := ok_refl _
  repeat' first
    | with_reducible assumption | intro _ | dsimp only | with_reducible apply ok_ite | with_reducible apply ok_iteP
    | with_reducible apply ok_elim | with_reducible apply ok_elimP | with_reducible apply hostAccess_ok
    | with_reducible apply controlWindow_ok | split

theorem execWindowCommit_ok (s : State) : ∀ t, execWindowCommit s = .next t → Ok s t := by
  intro t h
  have e : t = _ := (Host.Outcome.next.inj h).symm
  rw [e]; clear e h
  have ok0 : Ok s s := ok_refl _
  repeat' first
    | with_reducible assumption | intro _ | dsimp only | with_reducible apply ok_ite | with_reducible apply ok_iteP
    | with_reducible apply ok_elim | with_reducible apply ok_elimP | with_reducible apply commitWindows_ok | split

theorem execGrnQuotaWrite_ok (fn : Fn) (via : Die) (p : Part) (value : W32) (s : State) : ∀ t, execGrnQuotaWrite fn via p value s = .next t → Ok s t := by
  intro t h
  have e : t = _ := (Host.Outcome.next.inj h).symm
  rw [e]; clear e h
  have ok0 : Ok s s := ok_refl _
  repeat' first
    | with_reducible assumption | intro _ | dsimp only | with_reducible apply ok_ite | with_reducible apply ok_iteP
    | with_reducible apply ok_elim | with_reducible apply ok_elimP | with_reducible apply hostAccess_ok
    | with_reducible apply writeQuota_ok | split

theorem planWindow_ok (s : State) (t : Step) (n base limit : Nat) (ctrl : W32) {orig : State} (ok0 : Ok orig s) :
    Ok orig (planWindow s t n base limit ctrl) := by
  unfold planWindow
  repeat' first
    | with_reducible assumption | intro _ | dsimp only | with_reducible apply ok_ite | with_reducible apply ok_iteP
    | with_reducible apply ok_elim | with_reducible apply ok_elimP | with_reducible apply modGrn_ok
    | with_reducible apply faultStep_ok | split

theorem execStreamTrackerTimeout_ok (slice : Die) (tracker : Fin 32) (s : State) : ∀ t, execStreamTrackerTimeout slice tracker s = .next t → Ok s t := by
  intro t h
  have e : t = _ := (Host.Outcome.next.inj h).symm
  rw [e]; clear e h
  have ok0 : Ok s s := ok_refl _
  repeat' first
    | with_reducible assumption | intro _ | dsimp only | with_reducible apply ok_ite | with_reducible apply ok_iteP
    | with_reducible apply ok_elim | with_reducible apply ok_elimP | with_reducible apply modSlice_ok
    | with_reducible apply join_ok | split

theorem execMatchTieClear_ok (slice : Die) (s : State) : ∀ t, execMatchTieClear slice s = .next t → Ok s t := by
  intro t h
  have e : t = _ := (Host.Outcome.next.inj h).symm
  rw [e]; clear e h
  have ok0 : Ok s s := ok_refl _
  repeat' first
    | with_reducible assumption | intro _ | dsimp only | with_reducible apply ok_ite | with_reducible apply ok_iteP
    | with_reducible apply ok_elim | with_reducible apply ok_elimP | with_reducible apply modSlice_ok | split

/-! ## Machine/StepCmds.lean -/

theorem descBytes_ok (s : State) (q a : Nat) {orig : State} (ok0 : Ok orig s) :
    Ok orig (descBytes s q a).1 := by
  unfold descBytes
  repeat' first
    | with_reducible assumption | intro _ | dsimp only | with_reducible apply ok_ite | with_reducible apply ok_iteP
    | with_reducible apply ok_elim | with_reducible apply ok_elimP | with_reducible apply rd_ok
    | (rename_i e; have e1 := congrArg Prod.fst e; dsimp only at e1; subst e1; clear e) | split

theorem readDescriptor_ok (s : State) (q : Nat) {orig : State} (ok0 : Ok orig s) :
    Ok orig (readDescriptor s q) := by
  unfold readDescriptor
  repeat' first
    | with_reducible assumption | intro _ | dsimp only | with_reducible apply ok_ite | with_reducible apply ok_iteP
    | with_reducible apply ok_elim | with_reducible apply ok_elimP | with_reducible apply modFree_ok
    | with_reducible apply modStp_ok | with_reducible apply fresh_ok | with_reducible apply drawn_ok
    | with_reducible apply refuseStep_ok | with_reducible apply modQueue_ok | with_reducible apply descBytes_ok
    | (rename_i e; have e1 := congrArg Prod.fst e; dsimp only at e1; subst e1; clear e) | split

theorem descriptorIn_ok (s : State) (q : Nat) {orig : State} (ok0 : Ok orig s) :
    Ok orig (descriptorIn s q) := by
  unfold descriptorIn
  repeat' first
    | with_reducible assumption | intro _ | dsimp only | with_reducible apply ok_ite | with_reducible apply ok_iteP
    | with_reducible apply ok_elim | with_reducible apply ok_elimP | with_reducible apply readDescriptor_ok | split

theorem execStpDoorbell_ok (fn : Fn) (bar4 : Bool) (p : Part) (value : W32) (s : State) : ∀ t, execStpDoorbell fn bar4 p value s = .next t → Ok s t := by
  intro t h
  have e : t = _ := (Host.Outcome.next.inj h).symm
  rw [e]; clear e h
  have ok0 : Ok s s := ok_refl _
  repeat' first
    | with_reducible assumption | intro _ | dsimp only | with_reducible apply ok_ite | with_reducible apply ok_iteP
    | with_reducible apply ok_elim | with_reducible apply ok_elimP | with_reducible apply hostAccess_ok
    | with_reducible apply doorbellWrite_ok | split

theorem startStep_ok (s : State) (t : Step) (r : PlanRec) (g : PlanGrade) {orig : State} (ok0 : Ok orig s) :
    Ok orig (startStep s t r g) := by
  unfold startStep
  repeat' first
    | with_reducible assumption | intro _ | dsimp only | with_reducible apply ok_ite | with_reducible apply ok_iteP
    | with_reducible apply ok_elim | with_reducible apply ok_elimP | with_reducible apply modStep_ok
    | with_reducible apply charge_ok | with_reducible apply chargePart_ok | with_reducible apply openCtxs_ok | split

theorem deferStep_ok (s : State) (t : Step) {orig : State} (ok0 : Ok orig s) :
    Ok orig (deferStep s t) := by
  unfold deferStep
  repeat' first
    | with_reducible assumption | intro _ | dsimp only | with_reducible apply ok_ite | with_reducible apply ok_iteP
    | with_reducible apply ok_elim | with_reducible apply ok_elimP | with_reducible apply modStep_ok
    | with_reducible apply slip_ok | with_reducible apply dropSnap_ok | split

theorem admitPlaced_ok (s : State) (t : Step) {orig : State} (ok0 : Ok orig s) :
    Ok orig (admitPlaced s t) := by
  unfold admitPlaced
  repeat' first
    | with_reducible assumption | intro _ | dsimp only | with_reducible apply ok_ite | with_reducible apply ok_iteP
    | with_reducible apply ok_elim | with_reducible apply ok_elimP | with_reducible apply refuseStep_ok
    | with_reducible apply refuseIngest_ok | with_reducible apply startStep_ok | with_reducible apply deferStep_ok | split

theorem execStepAdmit_ok (step : Nat) (s : State) : ∀ t, execStepAdmit step s = .next t → Ok s t := by
  intro t h
  have e : t = _ := (Host.Outcome.next.inj h).symm
  rw [e]; clear e h
  have ok0 : Ok s s := ok_refl _
  repeat' first
    | with_reducible assumption | intro _ | dsimp only | with_reducible apply ok_ite | with_reducible apply ok_iteP
    | with_reducible apply ok_elim | with_reducible apply ok_elimP | with_reducible apply admitPlaced_ok | split

theorem c0Head_ok (s : State) (t : Step) {orig : State} (ok0 : Ok orig s) :
    Ok orig (c0Head s t).1 := by
  unfold c0Head
  repeat' first
    | with_reducible assumption | intro _ | dsimp only | with_reducible apply ok_ite | with_reducible apply ok_iteP
    | with_reducible apply ok_elim | with_reducible apply ok_elimP | with_reducible apply refuseStep_ok
    | with_reducible apply refuseIngest_ok | with_reducible apply startStep_ok | split

theorem c0Admit_ok (s : State) (ts : List Step) {orig : State} (ok0 : Ok orig s) : Ok orig (c0Admit s ts) := by
  induction ts generalizing s with
  | nil => exact ok0
  | cons t ts ih =>
    unfold c0Admit
    have ok1 := c0Head_ok s t ok0
    split <;> rename_i e <;> rw [e] at ok1
    · exact ih _ ok1
    · exact ok1

theorem c0Late_ok (s : State) (p : Nat) {orig : State} (ok0 : Ok orig s) :
    Ok orig (c0Late s p) := by
  unfold c0Late
  repeat' first
    | with_reducible assumption | intro _ | dsimp only | with_reducible apply ok_ite | with_reducible apply ok_iteP
    | with_reducible apply ok_elim | with_reducible apply ok_elimP | with_reducible apply refuseStep_ok
    | with_reducible refine each_ok (fun _ _ h => ?_) ?_ | split

theorem c0Resnap_ok (s : State) (p : Nat) {orig : State} (ok0 : Ok orig s) :
    Ok orig (c0Resnap s p) := by
  unfold c0Resnap
  repeat' first
    | with_reducible assumption | intro _ | dsimp only | with_reducible apply ok_ite | with_reducible apply ok_iteP
    | with_reducible apply ok_elim | with_reducible apply ok_elimP | with_reducible apply dropSnap_ok
    | with_reducible refine each_ok (fun _ _ h => ?_) ?_ | split

theorem execC0SlotStart_ok (s : State) : ∀ t, execC0SlotStart s = .next t → Ok s t := by
  intro t h
  have e : t = _ := (Host.Outcome.next.inj h).symm
  rw [e]; clear e h
  have ok0 : Ok s s := ok_refl _
  repeat' first
    | with_reducible assumption | intro _ | dsimp only | with_reducible apply ok_ite | with_reducible apply ok_iteP
    | with_reducible apply ok_elim | with_reducible apply ok_elimP | with_reducible apply modStp_ok
    | with_reducible apply c0Admit_ok | with_reducible apply c0Late_ok | with_reducible apply c0Resnap_ok
    | with_reducible refine each_ok (fun _ _ h => ?_) ?_ | split

theorem launchKernel_ok (s : State) (t : Step) (last tile slot codeId pc words : Nat) (args : List W32) {orig : State} (ok0 : Ok orig s) :
    Ok orig (launchKernel s t last tile slot codeId pc words args) := by
  unfold launchKernel
  repeat' first
    | with_reducible assumption | intro _ | dsimp only | with_reducible apply ok_ite | with_reducible apply ok_iteP
    | with_reducible apply ok_elim | with_reducible apply ok_elimP | with_reducible apply modTile_ok
    | with_reducible apply fresh_ok | with_reducible apply faultStep_ok | with_reducible apply rd_ok
    | with_reducible apply fetch_ok | with_reducible apply preload_ok
    | (rename_i e; have e1 := congrArg Prod.fst e; dsimp only at e1; subst e1; clear e) | split

theorem multicastRead_ok (s : State) (t : Step) (last entry tile laddr dev : Nat) {orig : State} (ok0 : Ok orig s) :
    Ok orig (multicastRead s t last entry tile laddr dev) := by
  unfold multicastRead
  repeat' first
    | with_reducible assumption | intro _ | dsimp only | with_reducible apply ok_ite | with_reducible apply ok_iteP
    | with_reducible apply ok_elim | with_reducible apply ok_elimP | with_reducible apply modGrn_ok
    | with_reducible apply fresh_ok | with_reducible apply faultStep_ok | split

theorem planTransfer_ok (s : State) (t : Step) (last : Nat) (toLocal : Bool) (engine tile laddr dev len : Nat) {orig : State} (ok0 : Ok orig s) :
    Ok orig (planTransfer s t last toLocal engine tile laddr dev len) := by
  unfold planTransfer
  repeat' first
    | with_reducible assumption | intro _ | dsimp only | with_reducible apply ok_ite | with_reducible apply ok_iteP
    | with_reducible apply ok_elim | with_reducible apply ok_elimP | with_reducible apply faultStep_ok
    | with_reducible apply writeLocal_ok | with_reducible apply rd_ok | with_reducible apply wrFor_ok
    | (rename_i e; have e1 := congrArg Prod.fst e; dsimp only at e1; subst e1; clear e) | split

theorem planAreaRead_ok (s : State) (t : Step) (ctx tile laddr : Nat) {orig : State} (ok0 : Ok orig s) :
    Ok orig (planAreaRead s t ctx tile laddr) := by
  unfold planAreaRead
  repeat' first
    | with_reducible assumption | intro _ | dsimp only | with_reducible apply ok_ite | with_reducible apply ok_iteP
    | with_reducible apply ok_elim | with_reducible apply ok_elimP | with_reducible apply faultStep_ok
    | with_reducible apply writeLocal_ok | split

theorem startReduction_ok (s : State) (t : Step) (tree flits : Nat) {orig : State} (ok0 : Ok orig s) :
    Ok orig (startReduction s t tree flits) := by
  unfold startReduction
  repeat' first
    | with_reducible assumption | intro _ | dsimp only | with_reducible apply ok_ite | with_reducible apply ok_iteP
    | with_reducible apply ok_elim | with_reducible apply ok_elimP | with_reducible apply modFab_ok
    | with_reducible apply fresh_ok | with_reducible apply faultStep_ok | split

theorem runAction_ok (t : Step) (last : Nat) (s : State) (a : SlotAction) {orig : State} (ok0 : Ok orig s) :
    Ok orig (runAction t last s a) := by
  unfold runAction
  repeat' first
    | with_reducible assumption | intro _ | dsimp only | with_reducible apply ok_ite | with_reducible apply ok_iteP
    | with_reducible apply ok_elim | with_reducible apply ok_elimP | with_reducible apply faultStep_ok
    | with_reducible apply trlScatter_ok | with_reducible apply trlShift_ok | with_reducible apply kvTransfer_ok
    | with_reducible apply planWalk_ok | with_reducible apply winnowVerify_ok | with_reducible apply startColl_ok
    | with_reducible apply planWindow_ok | with_reducible apply launchKernel_ok | with_reducible apply multicastRead_ok
    | with_reducible apply planTransfer_ok | with_reducible apply planAreaRead_ok | with_reducible apply startReduction_ok | split

theorem actionRun_ok (s : State) (step last : Nat) (a : SlotAction) {orig : State} (ok0 : Ok orig s) :
    Ok orig (actionRun s step last a) := by
  unfold actionRun
  repeat' first
    | with_reducible assumption | intro _ | dsimp only | with_reducible apply ok_ite | with_reducible apply ok_iteP
    | with_reducible apply ok_elim | with_reducible apply ok_elimP | with_reducible apply runAction_ok | split

theorem startAction_ok (t : Step) (slot last : Nat) (s : State) (a : SlotAction) {orig : State} (ok0 : Ok orig s) :
    Ok orig (startAction t slot last s a) := by
  unfold startAction
  repeat' first
    | with_reducible assumption | intro _ | dsimp only | with_reducible apply ok_ite | with_reducible apply ok_iteP
    | with_reducible apply ok_elim | with_reducible apply ok_elimP | with_reducible apply post_ok
    | with_reducible apply runAction_ok | split

theorem markLimited_ok (s : State) {orig : State} (ok0 : Ok orig s) :
    Ok orig (markLimited s) := by
  unfold markLimited
  repeat' first
    | with_reducible assumption | intro _ | dsimp only | with_reducible apply ok_ite | with_reducible apply ok_iteP
    | with_reducible apply ok_elim | with_reducible apply ok_elimP | with_reducible apply modStp_ok | split

theorem beginSlot_ok (s : State) (t : Step) (slot : Nat) (p : PlanSlot) (actions : List SlotAction) {orig : State} (ok0 : Ok orig s) :
    Ok orig (beginSlot s t slot p actions) := by
  unfold beginSlot
  repeat' first
    | with_reducible assumption | intro _ | dsimp only | with_reducible apply ok_ite | with_reducible apply ok_iteP
    | with_reducible apply ok_elim | with_reducible apply ok_elimP | with_reducible apply modStep_ok | split

theorem slotStart_ok (s : State) (step slot : Nat) (actions : List SlotAction) {orig : State} (ok0 : Ok orig s) :
    Ok orig (slotStart s step slot actions) := by
  unfold slotStart
  repeat' first
    | with_reducible assumption | intro _ | dsimp only | with_reducible apply ok_ite | with_reducible apply ok_iteP
    | with_reducible apply ok_elim | with_reducible apply ok_elimP | with_reducible apply startAction_ok
    | with_reducible apply beginSlot_ok | with_reducible refine each_ok (fun _ _ h => ?_) ?_ | split

theorem execSlotEnd_ok (step slot overrun : Nat) (ringMissed : Bool) (s : State) : ∀ t, execSlotEnd step slot overrun ringMissed s = .next t → Ok s t := by
  intro t h
  have e : t = _ := (Host.Outcome.next.inj h).symm
  rw [e]; clear e h
  have ok0 : Ok s s := ok_refl _
  repeat' first
    | with_reducible assumption | intro _ | dsimp only | with_reducible apply ok_ite | with_reducible apply ok_iteP
    | with_reducible apply ok_elim | with_reducible apply ok_elimP | with_reducible apply modStep_ok
    | with_reducible apply slip_ok | with_reducible apply endStep_ok | split

theorem execStepComplete_ok (step : Nat) (s : State) : ∀ t, execStepComplete step s = .next t → Ok s t := by
  intro t h
  have e : t = _ := (Host.Outcome.next.inj h).symm
  rw [e]; clear e h
  have ok0 : Ok s s := ok_refl _
  repeat' first
    | with_reducible assumption | intro _ | dsimp only | with_reducible apply ok_ite | with_reducible apply ok_iteP
    | with_reducible apply ok_elim | with_reducible apply ok_elimP | with_reducible apply completeStep_ok | split

theorem writeShare_ok (s : State) (fn p : Nat) (v : Nat) {orig : State} (ok0 : Ok orig s) :
    Ok orig (writeShare s fn p v) := by
  unfold writeShare
  repeat' first
    | with_reducible assumption | intro _ | dsimp only | with_reducible apply ok_ite | with_reducible apply ok_iteP
    | with_reducible apply ok_elim | with_reducible apply ok_elimP | with_reducible apply modPart_ok
    | with_reducible apply cfgError_ok | split

theorem execStpShareWrite_ok (fn : Fn) (p : Part) (value : W32) (s : State) : ∀ t, execStpShareWrite fn p value s = .next t → Ok s t := by
  intro t h
  have e : t = _ := (Host.Outcome.next.inj h).symm
  rw [e]; clear e h
  have ok0 : Ok s s := ok_refl _
  repeat' first
    | with_reducible assumption | intro _ | dsimp only | with_reducible apply ok_ite | with_reducible apply ok_iteP
    | with_reducible apply ok_elim | with_reducible apply ok_elimP | with_reducible apply hostAccess_ok
    | with_reducible apply writeShare_ok | split

theorem writeC0Phase_ok (s : State) (fn : Nat) (v : Nat) {orig : State} (ok0 : Ok orig s) :
    Ok orig (writeC0Phase s fn v) := by
  unfold writeC0Phase
  repeat' first
    | with_reducible assumption | intro _ | dsimp only | with_reducible apply ok_ite | with_reducible apply ok_iteP
    | with_reducible apply ok_elim | with_reducible apply ok_elimP | with_reducible apply modStp_ok
    | with_reducible apply cfgError_ok | with_reducible refine each_ok (fun _ _ h => ?_) ?_ | split

theorem execStpC0PhaseWrite_ok (fn : Fn) (value : W32) (s : State) : ∀ t, execStpC0PhaseWrite fn value s = .next t → Ok s t := by
  intro t h
  have e : t = _ := (Host.Outcome.next.inj h).symm
  rw [e]; clear e h
  have ok0 : Ok s s := ok_refl _
  repeat' first
    | with_reducible assumption | intro _ | dsimp only | with_reducible apply ok_ite | with_reducible apply ok_iteP
    | with_reducible apply ok_elim | with_reducible apply ok_elimP | with_reducible apply hostAccess_ok
    | with_reducible apply writeC0Phase_ok | split

theorem writeC0Sheaves_ok (s : State) (fn p : Nat) (v : W64) {orig : State} (ok0 : Ok orig s) :
    Ok orig (writeC0Sheaves s fn p v) := by
  unfold writeC0Sheaves
  repeat' first
    | with_reducible assumption | intro _ | dsimp only | with_reducible apply ok_ite | with_reducible apply ok_iteP
    | with_reducible apply ok_elim | with_reducible apply ok_elimP | with_reducible apply modPart_ok
    | with_reducible apply cfgError_ok | split

theorem execStpC0SheavesWrite_ok (fn : Fn) (p : Part) (value : W64) (s : State) : ∀ t, execStpC0SheavesWrite fn p value s = .next t → Ok s t := by
  intro t h
  have e : t = _ := (Host.Outcome.next.inj h).symm
  rw [e]; clear e h
  have ok0 : Ok s s := ok_refl _
  repeat' first
    | with_reducible assumption | intro _ | dsimp only | with_reducible apply ok_ite | with_reducible apply ok_iteP
    | with_reducible apply ok_elim | with_reducible apply ok_elimP | with_reducible apply hostAccess_ok
    | with_reducible apply writeC0Sheaves_ok | split

theorem execPartReset_ok (fn : Fn) (p : Part) (s : State) : ∀ t, execPartReset fn p s = .next t → Ok s t := by
  intro t h
  have e : t = _ := (Host.Outcome.next.inj h).symm
  rw [e]; clear e h
  have ok0 : Ok s s := ok_refl _
  repeat' first
    | with_reducible assumption | intro _ | dsimp only | with_reducible apply ok_ite | with_reducible apply ok_iteP
    | with_reducible apply ok_elim | with_reducible apply ok_elimP | with_reducible apply hostAccess_ok
    | with_reducible apply partReset_ok | split

theorem writeQueueCfg_ok (s : State) (fn : Nat) (w : QueueCfg) {orig : State} (ok0 : Ok orig s) :
    Ok orig (writeQueueCfg s fn w) := by
  unfold writeQueueCfg
  repeat' first
    | with_reducible assumption | intro _ | dsimp only | with_reducible apply ok_ite | with_reducible apply ok_iteP
    | with_reducible apply ok_elim | with_reducible apply ok_elimP | with_reducible apply modPart_ok
    | with_reducible apply cfgError_ok | with_reducible apply modQueue_ok | split

theorem execQueueConfigWrite_ok (fn : Fn) (w : QueueCfg) (s : State) : ∀ t, execQueueConfigWrite fn w s = .next t → Ok s t := by
  intro t h
  have e : t = _ := (Host.Outcome.next.inj h).symm
  rw [e]; clear e h
  have ok0 : Ok s s := ok_refl _
  repeat' first
    | with_reducible assumption | intro _ | dsimp only | with_reducible apply ok_ite | with_reducible apply ok_iteP
    | with_reducible apply ok_elim | with_reducible apply ok_elimP | with_reducible apply hostAccess_ok
    | with_reducible apply writeQueueCfg_ok | split

/-! ## Machine/PlaceOps.lean -/

theorem partPick_ok (s : State) (p k : Nat) {orig : State} (ok0 : Ok orig s) : Ok orig (partPick s p k).1 := by
  induction k generalizing s with
  | zero => exact ok0
  | succ k ih =>
    unfold partPick
    dsimp only
    split
    · exact ok0
    · exact ih _ (refuseStep_ok _ _ _ ok0)
    · exact ok0

theorem placeStep_ok (s : State) (t : Step) (b : Nat) (g : PlanGrade) {orig : State} (ok0 : Ok orig s) :
    Ok orig (placeStep s t b g) := by
  unfold placeStep
  repeat' first
    | with_reducible assumption | intro _ | dsimp only | with_reducible apply ok_ite | with_reducible apply ok_iteP
    | with_reducible apply ok_elim | with_reducible apply ok_elimP | with_reducible apply modStep_ok | split

theorem pickFor_ok (st : State × NMap Nat × Nat) (p : Nat) {orig : State} (ok0 : Ok orig st.1) : Ok orig (pickFor st p).1.1 := by
  unfold pickFor
  dsimp only
  split
  · have ok1 := partPick_ok st.1 p (st.1.stp.steps.length + 1) ok0
    split <;> rename_i e <;> rw [e] at ok1
    · exact placeStep_ok _ _ _ _ ok1
    · exact ok1
  · exact ok0

theorem pickShares_ok (k : Nat) (st : State × NMap Nat × Nat) (ps : List Nat) {orig : State} (ok0 : Ok orig st.1) : Ok orig (pickShares k st ps) := by
  induction k generalizing st ps with
  | zero => exact ok0
  | succ k ih =>
    unfold pickShares
    split
    · exact ok0
    · rename_i p _
      have ok1 := pickFor_ok st p ok0
      refine ok_ite ?_ ok0
      split <;> rename_i e <;> rw [e] at ok1 <;> exact ih _ _ ok1

theorem placeAll_ok (s : State) {orig : State} (ok0 : Ok orig s) : Ok orig (placeAll s) := by
  unfold placeAll
  exact ok_ite (pickShares_ok _ _ _ (ok_foldlP (fun st : State × NMap Nat × Nat => st.1) (fun _ _ ok0 => pickFor_ok _ _ ok0) _ ok0)) ok0

/-! ## Machine/HostData.lean -/

theorem bar2Post_ok (s : State) (fn a : Nat) (data : List Byte) (poisoned : Bool) {orig : State} (ok0 : Ok orig s) :
    Ok orig (bar2Post s fn a data poisoned) := by
  unfold bar2Post
  repeat' first
    | with_reducible assumption | intro _ | dsimp only | with_reducible apply ok_ite | with_reducible apply ok_iteP
    | with_reducible apply ok_elim | with_reducible apply ok_elimP | with_reducible apply modHif_ok
    | with_reducible apply fresh_ok | with_reducible apply ingSend_ok | with_reducible refine each_ok (fun _ _ h => ?_) ?_ | split

theorem bar2Store_ok (s : State) (fn off : Nat) (data : List Byte) (poisoned : Bool) {orig : State} (ok0 : Ok orig s) :
    Ok orig (bar2Store s fn off data poisoned) := by
  unfold bar2Store
  repeat' first
    | with_reducible assumption | intro _ | dsimp only | with_reducible apply ok_ite | with_reducible apply ok_iteP
    | with_reducible apply ok_elim | with_reducible apply ok_elimP | with_reducible apply modHif_ok | with_reducible apply emit_ok
    | with_reducible apply barRange_ok | with_reducible apply bar2Post_ok | split

theorem bar2Load_ok (s : State) (fn off len : Nat) {orig : State} (ok0 : Ok orig s) :
    Ok orig (bar2Load s fn off len) := by
  unfold bar2Load
  repeat' first
    | with_reducible assumption | intro _ | dsimp only | with_reducible apply ok_ite | with_reducible apply ok_iteP
    | with_reducible apply ok_elim | with_reducible apply ok_elimP | with_reducible apply modHif_ok | with_reducible apply emit_ok
    | with_reducible apply post_ok | with_reducible apply barRange_ok | split

theorem modDma_ok (s : State) (e : Nat) (f : Dma → Dma) {orig : State} (ok0 : Ok orig s) :
    Ok orig (State.modDma s e f) := by
  unfold State.modDma
  repeat' first
    | with_reducible assumption | intro _ | dsimp only | with_reducible apply ok_ite | with_reducible apply ok_iteP
    | with_reducible apply ok_elim | with_reducible apply ok_elimP | with_reducible apply modHif_ok | split

theorem dmaFromHost_ok (s : State) (e : Nat) (data : List Byte) (hostErr : Bool) {orig : State} (ok0 : Ok orig s) :
    Ok orig (dmaFromHost s e data hostErr) := by
  unfold dmaFromHost
  repeat' first
    | with_reducible assumption | intro _ | dsimp only | with_reducible apply ok_ite | with_reducible apply ok_iteP
    | with_reducible apply ok_elim | with_reducible apply ok_elimP | with_reducible apply take_ok | with_reducible apply wr_ok
    | with_reducible apply endDma_ok | (rename_i e; have e1 := congrArg Prod.fst e; dsimp only at e1; subst e1; clear e) | split

theorem dmaToHost_ok (s : State) (e moved : Nat) (hostErr : Bool) {orig : State} (ok0 : Ok orig s) :
    Ok orig (dmaToHost s e moved hostErr) := by
  unfold dmaToHost
  repeat' first
    | with_reducible assumption | intro _ | dsimp only | with_reducible apply ok_ite | with_reducible apply ok_iteP
    | with_reducible apply ok_elim | with_reducible apply ok_elimP | with_reducible apply emit_ok | with_reducible apply take_ok
    | with_reducible apply rd_ok | with_reducible apply endDma_ok
    | (rename_i e; have e1 := congrArg Prod.fst e; dsimp only at e1; subst e1; clear e) | split

theorem dmaFinish_ok (s : State) (e : Nat) (data : List Byte) (hostErr : Bool) {orig : State} (ok0 : Ok orig s) :
    Ok orig (dmaFinish s e data hostErr) := by
  unfold dmaFinish
  repeat' first
    | with_reducible assumption | intro _ | dsimp only | with_reducible apply ok_ite | with_reducible apply ok_iteP
    | with_reducible apply ok_elim | with_reducible apply ok_elimP | with_reducible apply post_ok | with_reducible apply endUp_ok
    | split

theorem dropUp_ok (s : State) (tag : Nat) {orig : State} (ok0 : Ok orig s) :
    Ok orig (State.dropUp s tag) := by
  unfold State.dropUp
  repeat' first
    | with_reducible assumption | intro _ | dsimp only | with_reducible apply ok_ite | with_reducible apply ok_iteP
    | with_reducible apply ok_elim | with_reducible apply ok_elimP | with_reducible apply endUp_ok | split

theorem upData_ok (s : State) (tag : Nat) (data : List Byte) {orig : State} (ok0 : Ok orig s) :
    Ok orig (upData s tag data) := by
  unfold upData
  repeat' first
    | with_reducible assumption | intro _ | dsimp only | with_reducible apply ok_ite | with_reducible apply ok_iteP
    | with_reducible apply ok_elim | with_reducible apply ok_elimP | with_reducible apply writeLocal_ok
    | with_reducible apply post_ok | with_reducible apply fillData_ok | with_reducible apply dmaFinish_ok
    | with_reducible apply dropUp_ok | split

theorem hostPageIn_ok (s : State) (step addr : Nat) (deadline : Option Nat) (data : List Byte) {orig : State} (ok0 : Ok orig s) :
    Ok orig (hostPageIn s step addr deadline data) := by
  unfold hostPageIn
  repeat' first
    | with_reducible assumption | intro _ | dsimp only | with_reducible apply ok_ite | with_reducible apply ok_iteP
    | with_reducible apply ok_elim | with_reducible apply ok_elimP | with_reducible apply wrFor_ok | split

/-! ## Machine/Engines.lean -/

theorem runJob_ok (j : EngJob) (s : State) {orig : State} (ok0 : Ok orig s) :
    Ok orig (runJob j s) := by
  unfold runJob
  repeat' first
    | with_reducible assumption | intro _ | dsimp only | with_reducible apply ok_ite | with_reducible apply ok_iteP
    | with_reducible apply ok_elim | with_reducible apply ok_elimP | with_reducible apply fetch_ok
    | with_reducible apply fetchLine_ok | with_reducible apply writeView_ok | with_reducible apply walkRequest_ok
    | with_reducible apply walkStep_ok | with_reducible apply walkDone_ok | with_reducible apply bar2Answer_ok
    | with_reducible apply descriptorIn_ok | with_reducible apply actionRun_ok | with_reducible apply dmaFromHost_ok
    | with_reducible apply dmaToHost_ok | with_reducible apply hostPageIn_ok | split

theorem jobOn_ok (s : State) (e : Nat × EngJob) {orig : State} (ok0 : Ok orig s) :
    Ok orig (jobOn s e) := by
  unfold jobOn
  repeat' first
    | with_reducible assumption | intro _ | dsimp only | with_reducible apply ok_ite | with_reducible apply ok_iteP
    | with_reducible apply ok_elim | with_reducible apply ok_elimP | with_reducible apply tryJob_ok
    | with_reducible apply runJob_ok | split

theorem settle_ok (s : State) {orig : State} (ok0 : Ok orig s) :
    Ok orig (settle s) := by
  unfold settle
  repeat' first
    | with_reducible assumption | intro _ | dsimp only | with_reducible apply ok_ite | with_reducible apply ok_iteP
    | with_reducible apply ok_elim | with_reducible apply ok_elimP | with_reducible apply jobOn_ok
    | with_reducible refine each_ok (fun _ _ h => ?_) ?_ | split

theorem settled_ok (s : State) : ∀ t, settled s = .next t → Ok s t := by
  intro t h
  have e : t = _ := (Host.Outcome.next.inj h).symm
  rw [e]; clear e h
  have ok0 : Ok s s := ok_refl _
  repeat' first
    | with_reducible assumption | intro _ | dsimp only | with_reducible apply ok_ite | with_reducible apply ok_iteP
    | with_reducible apply ok_elim | with_reducible apply ok_elimP | with_reducible apply settle_ok | split

end Sys2Proof.Laws
end

