-- ==== Sys2Proof/Laws/OkCommands.lean ====
section
/-! SUPPORT. What `Ok` says of the commands of the stacks, tempo, ring, loader, power, resets, background work, engines, fabric, host and
registers: one lemma for each. -/

namespace Sys2Proof.Laws

open Sys2Proof Sys2Proof.Machine

/-! ## Machine/StackCmds.lean -/

theorem failChannel_ok (s : State) (x : Nat) {orig : State} (ok0 : Ok orig s) :
    Ok orig (failChannel s x) := by
  unfold failChannel
  repeat' first
    | with_reducible assumption | intro _ | dsimp only | with_reducible apply ok_ite | with_reducible apply ok_iteP
    | with_reducible apply ok_elim | with_reducible apply ok_elimP | with_reducible apply modStack_ok | split

theorem dataExhausted_ok (s : State) (x line : Nat) {orig : State} (ok0 : Ok orig s) :
    Ok orig (dataExhausted s x line) := by
  unfold dataExhausted
  repeat' first
    | with_reducible assumption | intro _ | dsimp only | with_reducible apply ok_ite | with_reducible apply ok_iteP
    | with_reducible apply ok_elim | with_reducible apply ok_elimP | with_reducible apply modStack_ok
    | with_reducible apply recordErr_ok | with_reducible apply failChannel_ok | ((with_reducible apply modMem_ok); · intro m; rfl)
    | ((with_reducible apply modMem_ok_wf); · intro m w; rfl) | split

theorem poisonRead_ok (s : State) (line : Nat) {orig : State} (ok0 : Ok orig s) :
    Ok orig (poisonRead s line) := by
  unfold poisonRead
  repeat' first
    | with_reducible assumption | intro _ | dsimp only | with_reducible apply ok_ite | with_reducible apply ok_iteP
    | with_reducible apply ok_elim | with_reducible apply ok_elimP | with_reducible apply poisonFill_ok
    | with_reducible apply directEnds_ok | split

theorem poisonLine_ok (s : State) (line : Nat) {orig : State} (ok0 : Ok orig s) : Ok orig (poisonLine s line) :=
  modMem_ok_wf (fun m w => foldl_wf _ (fun m k w => foldl_wf _ (fun m b w => setPoison_wf _ _ _ w) _ _ w) _ _ w) ok0

theorem retriesOver_ok (s : State) (x line : Nat) (kind : ParityKind) {orig : State} (ok0 : Ok orig s) :
    Ok orig (retriesOver s x line kind) := by
  unfold retriesOver
  repeat' first
    | with_reducible assumption | intro _ | dsimp only | with_reducible apply ok_ite | with_reducible apply ok_iteP
    | with_reducible apply ok_elim | with_reducible apply ok_elimP | with_reducible apply modStack_ok
    | with_reducible apply recordErr_ok | with_reducible apply failChannel_ok | with_reducible apply dataExhausted_ok
    | with_reducible apply poisonRead_ok | with_reducible apply poisonLine_ok | split

theorem parityRetry_ok (s : State) (x line : Nat) (kind : ParityKind) (pass : Bool) {orig : State} (ok0 : Ok orig s) :
    Ok orig (parityRetry s x line kind pass) := by
  unfold parityRetry
  repeat' first
    | with_reducible assumption | intro _ | dsimp only | with_reducible apply ok_ite | with_reducible apply ok_iteP
    | with_reducible apply ok_elim | with_reducible apply ok_elimP | with_reducible apply modStack_ok
    | with_reducible apply retriesOver_ok | ((with_reducible apply modMem_ok); · intro m; rfl)
    | ((with_reducible apply modMem_ok_wf); · intro m w; rfl) | split

theorem countRow_ok (s : State) (e : Remap) (found : List Burst) {orig : State} (ok0 : Ok orig s) :
    Ok orig (countRow s e found) := by
  unfold countRow
  repeat' first
    | with_reducible assumption | intro _ | dsimp only | with_reducible apply ok_ite | with_reducible apply ok_iteP
    | with_reducible apply ok_elim | with_reducible apply ok_elimP | with_reducible apply eccCount_ok
    | with_reducible apply take_ok | with_reducible refine each_ok (fun _ _ h => ?_) ?_ | split

theorem copyRow_ok (s : State) (e : Remap) (found : List Burst) {orig : State} (ok0 : Ok orig s) : Ok orig (copyRow s e found) :=
  modMem_ok_wf (fun m w => foldl_wf _ (fun m b w => copyBurst_wf _ _ _ _ _ w) _ _ w) ok0

theorem execRemapCopyDone_ok (entry : Nat) (found : List Burst) (s : State) : ∀ t, execRemapCopyDone entry found s = .next t → Ok s t := by
  intro t h
  have e : t = _ := (Host.Outcome.next.inj h).symm
  rw [e]; clear e h
  have ok0 : Ok s s := ok_refl _
  repeat' first
    | with_reducible assumption | intro _ | dsimp only | with_reducible apply ok_ite | with_reducible apply ok_iteP
    | with_reducible apply ok_elim | with_reducible apply ok_elimP | with_reducible apply order_ok
    | with_reducible apply countRow_ok | with_reducible apply copyRow_ok | ((with_reducible apply modMem_ok); · intro m; rfl)
    | ((with_reducible apply modMem_ok_wf); · intro m w; rfl) | split

theorem execRemapTakeEffect_ok (entry : Nat) (s : State) : ∀ t, execRemapTakeEffect entry s = .next t → Ok s t := by
  intro t h
  have e : t = _ := (Host.Outcome.next.inj h).symm
  rw [e]; clear e h
  have ok0 : Ok s s := ok_refl _
  repeat' first
    | with_reducible assumption | intro _ | dsimp only | with_reducible apply ok_ite | with_reducible apply ok_iteP
    | with_reducible apply ok_elim | with_reducible apply ok_elimP | with_reducible apply order_ok
    | ((with_reducible apply modMem_ok); · intro m; rfl) | ((with_reducible apply modMem_ok_wf); · intro m w; rfl) | split

theorem execRepairLogWrite_ok (entry : Nat) (s : State) : ∀ t, execRepairLogWrite entry s = .next t → Ok s t := by
  intro t h
  have e : t = _ := (Host.Outcome.next.inj h).symm
  rw [e]; clear e h
  have ok0 : Ok s s := ok_refl _
  repeat' first
    | with_reducible assumption | intro _ | dsimp only | with_reducible apply ok_ite | with_reducible apply ok_iteP
    | with_reducible apply ok_elim | with_reducible apply ok_elimP | with_reducible apply modFlash_ok
    | with_reducible apply order_ok | ((with_reducible apply modMem_ok); · intro m; rfl)
    | ((with_reducible apply modMem_ok_wf); · intro m w; rfl) | split

theorem refreshOne_ok (s : State) (t c n : Nat) {orig : State} (ok0 : Ok orig s) :
    Ok orig (refreshOne s t c n) := by
  unfold refreshOne
  repeat' first
    | with_reducible assumption | intro _ | dsimp only | with_reducible apply ok_ite | with_reducible apply ok_iteP
    | with_reducible apply ok_elim | with_reducible apply ok_elimP | with_reducible apply modStack_ok
    | ((with_reducible apply modMem_ok); · intro m; rfl) | ((with_reducible apply modMem_ok_wf); · intro m w; rfl) | split

theorem startRetrain_ok (s : State) {orig : State} (ok0 : Ok orig s) :
    Ok orig (startRetrain s) := by
  unfold startRetrain
  repeat' first
    | with_reducible assumption | intro _ | dsimp only | with_reducible apply ok_ite | with_reducible apply ok_iteP
    | with_reducible apply ok_elim | with_reducible apply ok_elimP | with_reducible apply modGln_ok | split

theorem retrainSlot_ok (s : State) (c : Nat) {orig : State} (ok0 : Ok orig s) :
    Ok orig (retrainSlot s c) := by
  unfold retrainSlot
  repeat' first
    | with_reducible assumption | intro _ | dsimp only | with_reducible apply ok_ite | with_reducible apply ok_iteP
    | with_reducible apply ok_elim | with_reducible apply ok_elimP | with_reducible apply modGln_ok | split

theorem execRefreshSlot_ok (c : Fin 64) (n : Nat) (s : State) : ∀ t, execRefreshSlot c n s = .next t → Ok s t := by
  intro t h
  have e : t = _ := (Host.Outcome.next.inj h).symm
  rw [e]; clear e h
  have ok0 : Ok s s := ok_refl _
  repeat' first
    | with_reducible assumption | intro _ | dsimp only | with_reducible apply ok_ite | with_reducible apply ok_iteP
    | with_reducible apply ok_elim | with_reducible apply ok_elimP | with_reducible apply refreshOne_ok
    | with_reducible apply retrainSlot_ok | ((with_reducible apply modMem_ok); · intro m; rfl)
    | ((with_reducible apply modMem_ok_wf); · intro m w; rfl) | with_reducible refine each_ok (fun _ _ h => ?_) ?_ | split

theorem tripStack_ok (s : State) (t : Nat) {orig : State} (ok0 : Ok orig s) :
    Ok orig (tripStack s t) := by
  unfold tripStack
  repeat' first
    | with_reducible assumption | intro _ | dsimp only | with_reducible apply ok_ite | with_reducible apply ok_iteP
    | with_reducible apply ok_elim | with_reducible apply ok_elimP | with_reducible apply modRhl_ok
    | with_reducible apply modStack_ok | with_reducible apply endStep_ok | with_reducible apply sendUpdate_ok
    | with_reducible refine each_ok (fun _ _ h => ?_) ?_ | with_reducible refine ok_foldl (fun _ _ h => ?_) _ ?_
    | with_reducible refine ok_foldlP (fun v => v.1) (fun _ _ h => ?_) _ ?_ | split

theorem warnStack_ok (s : State) (t : Nat) {orig : State} (ok0 : Ok orig s) :
    Ok orig (warnStack s t) := by
  unfold warnStack
  repeat' first
    | with_reducible assumption | intro _ | dsimp only | with_reducible apply ok_ite | with_reducible apply ok_iteP
    | with_reducible apply ok_elim | with_reducible apply ok_elimP | with_reducible apply modStack_ok
    | with_reducible apply event_ok | split

theorem stackSample_ok (s : State) (t : Nat) (temp : Option Int) {orig : State} (ok0 : Ok orig s) :
    Ok orig (stackSample s t temp) := by
  unfold stackSample
  repeat' first
    | with_reducible assumption | intro _ | dsimp only | with_reducible apply ok_ite | with_reducible apply ok_iteP
    | with_reducible apply ok_elim | with_reducible apply ok_elimP | with_reducible apply modStack_ok
    | with_reducible apply capChange_ok | with_reducible apply tripStack_ok | with_reducible apply warnStack_ok | split

theorem execStackTempSample_ok (stack : Fin 8) (temps : Option (List Int)) (s : State) : ∀ t, execStackTempSample stack temps s = .next t → Ok s t := by
  intro t h
  have e : t = _ := (Host.Outcome.next.inj h).symm
  rw [e]; clear e h
  have ok0 : Ok s s := ok_refl _
  repeat' first
    | with_reducible assumption | intro _ | dsimp only | with_reducible apply ok_ite | with_reducible apply ok_iteP
    | with_reducible apply ok_elim | with_reducible apply ok_elimP | with_reducible apply modStack_ok
    | with_reducible apply stackSample_ok | split

theorem execStackTempLost_ok (stack : Fin 8) (s : State) : ∀ t, execStackTempLost stack s = .next t → Ok s t := by
  intro t h
  have e : t = _ := (Host.Outcome.next.inj h).symm
  rw [e]; clear e h
  have ok0 : Ok s s := ok_refl _
  repeat' first
    | with_reducible assumption | intro _ | dsimp only | with_reducible apply ok_ite | with_reducible apply ok_iteP
    | with_reducible apply ok_elim | with_reducible apply ok_elimP | with_reducible apply modStack_ok
    | with_reducible apply event_ok | with_reducible apply tripStack_ok | split

theorem execStackTripReturn_ok (stack : Fin 8) (s : State) : ∀ t, execStackTripReturn stack s = .next t → Ok s t := by
  intro t h
  have e : t = _ := (Host.Outcome.next.inj h).symm
  rw [e]; clear e h
  have ok0 : Ok s s := ok_refl _
  repeat' first
    | with_reducible assumption | intro _ | dsimp only | with_reducible apply ok_ite | with_reducible apply ok_iteP
    | with_reducible apply ok_elim | with_reducible apply ok_elimP | with_reducible apply modStack_ok
    | with_reducible apply drainBuffers_ok | split

/-! ## Machine/TempoCmds.lean -/

theorem readBeatLow_ok (s : State) (fn : Nat) {orig : State} (ok0 : Ok orig s) :
    Ok orig (readBeatLow s fn) := by
  unfold readBeatLow
  repeat' first
    | with_reducible assumption | intro _ | dsimp only | with_reducible apply ok_ite | with_reducible apply ok_iteP
    | with_reducible apply ok_elim | with_reducible apply ok_elimP | with_reducible apply modTmp_ok | with_reducible apply emit_ok
    | split

theorem readBeatHigh_ok (s : State) (fn : Nat) {orig : State} (ok0 : Ok orig s) :
    Ok orig (readBeatHigh s fn) := by
  unfold readBeatHigh
  repeat' first
    | with_reducible assumption | intro _ | dsimp only | with_reducible apply ok_ite | with_reducible apply ok_iteP
    | with_reducible apply ok_elim | with_reducible apply ok_elimP | with_reducible apply modTmp_ok | with_reducible apply emit_ok
    | split

theorem execTmpBeatNowLowRead_ok (fn : Fn) (s : State) : ∀ t, execTmpBeatNowLowRead fn s = .next t → Ok s t := by
  intro t h
  have e : t = _ := (Host.Outcome.next.inj h).symm
  rw [e]; clear e h
  have ok0 : Ok s s := ok_refl _
  repeat' first
    | with_reducible assumption | intro _ | dsimp only | with_reducible apply ok_ite | with_reducible apply ok_iteP
    | with_reducible apply ok_elim | with_reducible apply ok_elimP | with_reducible apply hostAccess_ok
    | with_reducible apply readBeatLow_ok | split

theorem execTmpBeatNowHighRead_ok (fn : Fn) (s : State) : ∀ t, execTmpBeatNowHighRead fn s = .next t → Ok s t := by
  intro t h
  have e : t = _ := (Host.Outcome.next.inj h).symm
  rw [e]; clear e h
  have ok0 : Ok s s := ok_refl _
  repeat' first
    | with_reducible assumption | intro _ | dsimp only | with_reducible apply ok_ite | with_reducible apply ok_iteP
    | with_reducible apply ok_elim | with_reducible apply ok_elimP | with_reducible apply hostAccess_ok
    | with_reducible apply readBeatHigh_ok | split

theorem stackReason_ok (s : State) (f t : Nat) {orig : State} (ok0 : Ok orig s) :
    Ok orig (stackReason s f t) := by
  unfold stackReason
  repeat' first
    | with_reducible assumption | intro _ | dsimp only | with_reducible apply ok_ite | with_reducible apply ok_iteP
    | with_reducible apply ok_elim | with_reducible apply ok_elimP | with_reducible apply modStack_ok | split

theorem tileReason_ok (s : State) (f : Nat) {orig : State} (ok0 : Ok orig s) :
    Ok orig (tileReason s f) := by
  unfold tileReason
  repeat' first
    | with_reducible assumption | intro _ | dsimp only | with_reducible apply ok_ite | with_reducible apply ok_iteP
    | with_reducible apply ok_elim | with_reducible apply ok_elimP | with_reducible apply modPwr_ok | split

theorem limiterReason_ok (s : State) (f : Nat) {orig : State} (ok0 : Ok orig s) :
    Ok orig (limiterReason s f) := by
  unfold limiterReason
  repeat' first
    | with_reducible assumption | intro _ | dsimp only | with_reducible apply ok_ite | with_reducible apply ok_iteP
    | with_reducible apply ok_elim | with_reducible apply ok_elimP | with_reducible apply modPwr_ok | split

theorem standingReasons_ok (s : State) (f : Nat) {orig : State} (ok0 : Ok orig s) :
    Ok orig (standingReasons s f) := by
  unfold standingReasons
  repeat' first
    | with_reducible assumption | intro _ | dsimp only | with_reducible apply ok_ite | with_reducible apply ok_iteP
    | with_reducible apply ok_elim | with_reducible apply ok_elimP | with_reducible apply capChange_ok
    | with_reducible apply stackReason_ok | with_reducible apply tileReason_ok | with_reducible apply limiterReason_ok
    | with_reducible refine each_ok (fun _ _ h => ?_) ?_ | split

theorem ageTiles_ok (s : State) {orig : State} (ok0 : Ok orig s) :
    Ok orig (ageTiles s) := by
  unfold ageTiles
  repeat' first
    | with_reducible assumption | intro _ | dsimp only | with_reducible apply ok_ite | with_reducible apply ok_iteP
    | with_reducible apply ok_elim | with_reducible apply ok_elimP | with_reducible apply modGln_ok
    | with_reducible apply writeWear_ok | with_reducible refine ok_foldl (fun _ _ h => ?_) _ ?_
    | with_reducible refine ok_foldlP (fun v => v.1) (fun _ _ h => ?_) _ ?_ | split

theorem rebase_ok (s : State) (old new : Nat) {orig : State} (ok0 : Ok orig s) :
    Ok orig (rebase s old new) := by
  unfold rebase
  repeat' first
    | with_reducible assumption | intro _ | dsimp only | with_reducible apply ok_ite | with_reducible apply ok_iteP
    | with_reducible apply ok_elim | with_reducible apply ok_elimP | with_reducible apply modTile_ok
    | with_reducible apply modStep_ok | with_reducible apply slip_ok | with_reducible refine each_ok (fun _ _ h => ?_) ?_ | split

theorem loadBeat_ok (s : State) (m : Marker) {orig : State} (ok0 : Ok orig s) :
    Ok orig (loadBeat s m) := by
  unfold loadBeat
  repeat' first
    | with_reducible assumption | intro _ | dsimp only | with_reducible apply ok_ite | with_reducible apply ok_iteP
    | with_reducible apply ok_elim | with_reducible apply ok_elimP | with_reducible apply modTmp_ok
    | with_reducible apply modStp_ok | with_reducible apply takeEffect_ok | with_reducible apply endColls_ok
    | with_reducible apply ageTiles_ok | with_reducible apply rebase_ok | split

theorem nextValues_ok (s : State) {orig : State} (ok0 : Ok orig s) :
    Ok orig (nextValues s) := by
  unfold nextValues
  repeat' first
    | with_reducible assumption | intro _ | dsimp only | with_reducible apply ok_ite | with_reducible apply ok_iteP
    | with_reducible apply ok_elim | with_reducible apply ok_elimP | with_reducible apply modStp_ok | with_reducible apply take_ok
    | split

theorem returnDies_ok (s : State) {orig : State} (ok0 : Ok orig s) :
    Ok orig (returnDies s) := by
  unfold returnDies
  repeat' first
    | with_reducible assumption | intro _ | dsimp only | with_reducible apply ok_ite | with_reducible apply ok_iteP
    | with_reducible apply ok_elim | with_reducible apply ok_elimP | with_reducible apply modFab_ok | split

theorem raiseVolts_ok (s : State) (f : Nat) {orig : State} (ok0 : Ok orig s) :
    Ok orig (raiseVolts s f) := by
  unfold raiseVolts
  repeat' first
    | with_reducible assumption | intro _ | dsimp only | with_reducible apply ok_ite | with_reducible apply ok_iteP
    | with_reducible apply ok_elim | with_reducible apply ok_elimP | with_reducible apply setVolts_ok | split

theorem turnTelemetry_ok (s : State) (f : Nat) {orig : State} (ok0 : Ok orig s) :
    Ok orig (turnTelemetry s f) := by
  unfold turnTelemetry
  repeat' first
    | with_reducible assumption | intro _ | dsimp only | with_reducible apply ok_ite | with_reducible apply ok_iteP
    | with_reducible apply ok_elim | with_reducible apply ok_elimP | with_reducible apply modTel_ok | split

theorem leaveRing_ok (s : State) {orig : State} (ok0 : Ok orig s) :
    Ok orig (leaveRing s) := by
  unfold leaveRing
  repeat' first
    | with_reducible assumption | intro _ | dsimp only | with_reducible apply ok_ite | with_reducible apply ok_iteP
    | with_reducible apply ok_elim | with_reducible apply ok_elimP | with_reducible apply modRhl_ok
    | with_reducible apply ringDown_ok | split

theorem countJoin_ok (s : State) {orig : State} (ok0 : Ok orig s) :
    Ok orig (countJoin s) := by
  unfold countJoin
  repeat' first
    | with_reducible assumption | intro _ | dsimp only | with_reducible apply ok_ite | with_reducible apply ok_iteP
    | with_reducible apply ok_elim | with_reducible apply ok_elimP | with_reducible apply modRhl_ok | split

theorem callRoll_ok (s : State) {orig : State} (ok0 : Ok orig s) :
    Ok orig (callRoll s) := by
  unfold callRoll
  repeat' first
    | with_reducible assumption | intro _ | dsimp only | with_reducible apply ok_ite | with_reducible apply ok_iteP
    | with_reducible apply ok_elim | with_reducible apply ok_elimP | with_reducible apply modRhl_ok
    | with_reducible apply dropMember_ok | with_reducible refine each_ok (fun _ _ h => ?_) ?_ | split

theorem reshapeBoundary_ok (s : State) {orig : State} (ok0 : Ok orig s) :
    Ok orig (reshapeBoundary s) := by
  unfold reshapeBoundary
  repeat' first
    | with_reducible assumption | intro _ | dsimp only | with_reducible apply ok_ite | with_reducible apply ok_iteP
    | with_reducible apply ok_elim | with_reducible apply ok_elimP | with_reducible apply modRhl_ok
    | with_reducible apply applyDue_ok | with_reducible apply remasterDue_ok | with_reducible apply loadBeat_ok
    | with_reducible apply callRoll_ok | split

theorem consensusBeat_ok (s : State) {orig : State} (ok0 : Ok orig s) :
    Ok orig (consensusBeat s) := by
  unfold consensusBeat
  repeat' first
    | with_reducible assumption | intro _ | dsimp only | with_reducible apply ok_ite | with_reducible apply ok_iteP
    | with_reducible apply ok_elim | with_reducible apply ok_elimP | with_reducible apply sendConsensus_ok
    | with_reducible apply announceDue_ok | with_reducible apply leaveRing_ok | split

theorem frameBoundary_ok (s : State) {orig : State} (ok0 : Ok orig s) :
    Ok orig (frameBoundary s) := by
  unfold frameBoundary
  repeat' first
    | with_reducible assumption | intro _ | dsimp only | with_reducible apply ok_ite | with_reducible apply ok_iteP
    | with_reducible apply ok_elim | with_reducible apply ok_elimP | with_reducible apply modTmp_ok
    | with_reducible apply modRhl_ok | with_reducible apply modPwr_ok | with_reducible apply takeEffect_ok
    | with_reducible apply stageBoundary_ok | with_reducible apply placeAll_ok | with_reducible apply standingReasons_ok
    | with_reducible apply ageTiles_ok | with_reducible apply nextValues_ok | with_reducible apply returnDies_ok
    | with_reducible apply raiseVolts_ok | with_reducible apply turnTelemetry_ok | with_reducible apply countJoin_ok
    | with_reducible apply reshapeBoundary_ok | with_reducible apply consensusBeat_ok
    | ((with_reducible apply modMem_ok); · intro m; rfl) | ((with_reducible apply modMem_ok_wf); · intro m w; rfl) | split

theorem guardBeat_ok (s : State) {orig : State} (ok0 : Ok orig s) :
    Ok orig (guardBeat s) := by
  unfold guardBeat
  repeat' first
    | with_reducible assumption | intro _ | dsimp only | with_reducible apply ok_ite | with_reducible apply ok_iteP
    | with_reducible apply ok_elim | with_reducible apply ok_elimP | with_reducible apply switchClock_ok | split

theorem senseBeat_ok (s : State) (sense : BitVec 4) {orig : State} (ok0 : Ok orig s) :
    Ok orig (senseBeat s sense) := by
  unfold senseBeat
  repeat' first
    | with_reducible assumption | intro _ | dsimp only | with_reducible apply ok_ite | with_reducible apply ok_iteP
    | with_reducible apply ok_elim | with_reducible apply ok_elimP | with_reducible apply modPwr_ok | split

theorem powerBeat_ok (s : State) {orig : State} (ok0 : Ok orig s) :
    Ok orig (powerBeat s) := by
  unfold powerBeat
  repeat' first
    | with_reducible assumption | intro _ | dsimp only | with_reducible apply ok_ite | with_reducible apply ok_iteP
    | with_reducible apply ok_elim | with_reducible apply ok_elimP | with_reducible apply modPwr_ok | split

theorem collBeat_ok (s : State) {orig : State} (ok0 : Ok orig s) :
    Ok orig (collBeat s) := by
  unfold collBeat
  repeat' first
    | with_reducible assumption | intro _ | dsimp only | with_reducible apply ok_ite | with_reducible apply ok_iteP
    | with_reducible apply ok_elim | with_reducible apply ok_elimP | with_reducible apply flushWaiting_ok
    | with_reducible apply advanceColl_ok | with_reducible refine each_ok (fun _ _ h => ?_) ?_ | split

theorem beatBoundary_ok (s : State) (refValid : Bool) (sense : BitVec 4) {orig : State} (ok0 : Ok orig s) :
    Ok orig (beatBoundary s refValid sense) := by
  unfold beatBoundary
  repeat' first
    | with_reducible assumption | intro _ | dsimp only | with_reducible apply ok_ite | with_reducible apply ok_iteP
    | with_reducible apply ok_elim | with_reducible apply ok_elimP | with_reducible apply modTmp_ok
    | with_reducible apply bwrBoundary_ok | with_reducible apply frameBoundary_ok | with_reducible apply guardBeat_ok
    | with_reducible apply senseBeat_ok | with_reducible apply powerBeat_ok | with_reducible apply collBeat_ok
    | ((with_reducible apply modMem_ok); · intro m; rfl) | ((with_reducible apply modMem_ok_wf); · intro m w; rfl) | split

theorem execBeatBoundary_ok (refValid : Bool) (sense : BitVec 4) (s : State) : ∀ t, execBeatBoundary refValid sense s = .next t → Ok s t := by
  intro t h
  have e : t = _ := (Host.Outcome.next.inj h).symm
  rw [e]; clear e h
  have ok0 : Ok s s := ok_refl _
  repeat' first
    | with_reducible assumption | intro _ | dsimp only | with_reducible apply ok_ite | with_reducible apply ok_iteP
    | with_reducible apply ok_elim | with_reducible apply ok_elimP | with_reducible apply settle_ok
    | with_reducible apply beatBoundary_ok | split

theorem refLost_ok (s : State) {orig : State} (ok0 : Ok orig s) :
    Ok orig (refLost s) := by
  unfold refLost
  repeat' first
    | with_reducible assumption | intro _ | dsimp only | with_reducible apply ok_ite | with_reducible apply ok_iteP
    | with_reducible apply ok_elim | with_reducible apply ok_elimP | with_reducible apply modTmp_ok
    | with_reducible apply event_ok | split

theorem execRefEdgeTimeout_ok (s : State) : ∀ t, execRefEdgeTimeout s = .next t → Ok s t := by
  intro t h
  have e : t = _ := (Host.Outcome.next.inj h).symm
  rw [e]; clear e h
  have ok0 : Ok s s := ok_refl _
  repeat' first
    | with_reducible assumption | intro _ | dsimp only | with_reducible apply ok_ite | with_reducible apply ok_iteP
    | with_reducible apply ok_elim | with_reducible apply ok_elimP | with_reducible apply refLost_ok | split

theorem execRefFreqIntervalEnd_ok (ppm : Int) (s : State) : ∀ t, execRefFreqIntervalEnd ppm s = .next t → Ok s t := by
  intro t h
  have e : t = _ := (Host.Outcome.next.inj h).symm
  rw [e]; clear e h
  have ok0 : Ok s s := ok_refl _
  repeat' first
    | with_reducible assumption | intro _ | dsimp only | with_reducible apply ok_ite | with_reducible apply ok_iteP
    | with_reducible apply ok_elim | with_reducible apply ok_elimP | with_reducible apply modTmp_ok
    | with_reducible apply refLost_ok | split

theorem execHoldoverExpiry_ok (s : State) : ∀ t, execHoldoverExpiry s = .next t → Ok s t := by
  intro t h
  have e : t = _ := (Host.Outcome.next.inj h).symm
  rw [e]; clear e h
  have ok0 : Ok s s := ok_refl _
  repeat' first
    | with_reducible assumption | intro _ | dsimp only | with_reducible apply ok_ite | with_reducible apply ok_iteP
    | with_reducible apply ok_elim | with_reducible apply ok_elimP | with_reducible apply modTmp_ok
    | with_reducible apply modRhl_ok | with_reducible apply event_ok | with_reducible apply floodReshape_ok | split

theorem execHoldoverExit_ok (s : State) : ∀ t, execHoldoverExit s = .next t → Ok s t := by
  intro t h
  have e : t = _ := (Host.Outcome.next.inj h).symm
  rw [e]; clear e h
  have ok0 : Ok s s := ok_refl _
  repeat' first
    | with_reducible assumption | intro _ | dsimp only | with_reducible apply ok_ite | with_reducible apply ok_iteP
    | with_reducible apply ok_elim | with_reducible apply ok_elimP | with_reducible apply modTmp_ok | split

theorem execFencedExit_ok (s : State) : ∀ t, execFencedExit s = .next t → Ok s t := by
  intro t h
  have e : t = _ := (Host.Outcome.next.inj h).symm
  rw [e]; clear e h
  have ok0 : Ok s s := ok_refl _
  repeat' first
    | with_reducible assumption | intro _ | dsimp only | with_reducible apply ok_ite | with_reducible apply ok_iteP
    | with_reducible apply ok_elim | with_reducible apply ok_elimP | with_reducible apply modTmp_ok | split

theorem takeMarker_ok (s : State) (l : Link) (beatNo : Nat) (arrival : Int) {orig : State} (ok0 : Ok orig s) :
    Ok orig (takeMarker s l beatNo arrival) := by
  unfold takeMarker
  repeat' first
    | with_reducible assumption | intro _ | dsimp only | with_reducible apply ok_ite | with_reducible apply ok_iteP
    | with_reducible apply ok_elim | with_reducible apply ok_elimP | with_reducible apply modTmp_ok | split

theorem execMarkerReceived_ok (link : Link) (beatNo : Nat) (arrival : Int) (s : State) : ∀ t, execMarkerReceived link beatNo arrival s = .next t → Ok s t := by
  intro t h
  have e : t = _ := (Host.Outcome.next.inj h).symm
  rw [e]; clear e h
  have ok0 : Ok s s := ok_refl _
  repeat' first
    | with_reducible assumption | intro _ | dsimp only | with_reducible apply ok_ite | with_reducible apply ok_iteP
    | with_reducible apply ok_elim | with_reducible apply ok_elimP | with_reducible apply takeMarker_ok | split

theorem execCatchUpRealign_ok (s : State) : ∀ t, execCatchUpRealign s = .next t → Ok s t := by
  intro t h
  have e : t = _ := (Host.Outcome.next.inj h).symm
  rw [e]; clear e h
  have ok0 : Ok s s := ok_refl _
  repeat' first
    | with_reducible assumption | intro _ | dsimp only | with_reducible apply ok_ite | with_reducible apply ok_iteP
    | with_reducible apply ok_elim | with_reducible apply ok_elimP | with_reducible apply modTmp_ok | with_reducible apply hold_ok
    | split

theorem execBeatNumberLoad_ok (s : State) : ∀ t, execBeatNumberLoad s = .next t → Ok s t := by
  intro t h
  have e : t = _ := (Host.Outcome.next.inj h).symm
  rw [e]; clear e h
  have ok0 : Ok s s := ok_refl _
  repeat' first
    | with_reducible assumption | intro _ | dsimp only | with_reducible apply ok_ite | with_reducible apply ok_iteP
    | with_reducible apply ok_elim | with_reducible apply ok_elimP | with_reducible apply loadBeat_ok | split

/-! ## Machine/RingCmds.lean -/

theorem execLinkReplay_ok (link : Link) (s : State) : ∀ t, execLinkReplay link s = .next t → Ok s t := by
  intro t h
  have e : t = _ := (Host.Outcome.next.inj h).symm
  rw [e]; clear e h
  have ok0 : Ok s s := ok_refl _
  repeat' first
    | with_reducible assumption | intro _ | dsimp only | with_reducible apply ok_ite | with_reducible apply ok_iteP
    | with_reducible apply ok_elim | with_reducible apply ok_elimP | with_reducible apply modLink_ok
    | with_reducible apply linkDown_ok | split

theorem execLinkTrainStart_ok (s : State) : ∀ t, execLinkTrainStart s = .next t → Ok s t := by
  intro t h
  have e : t = _ := (Host.Outcome.next.inj h).symm
  rw [e]; clear e h
  have ok0 : Ok s s := ok_refl _
  repeat' first
    | with_reducible assumption | intro _ | dsimp only | with_reducible apply ok_ite | with_reducible apply ok_iteP
    | with_reducible apply ok_elim | with_reducible apply ok_elimP | with_reducible apply modRhl_ok
    | with_reducible apply refreshGood_ok | split

theorem ringReady_ok (s : State) {orig : State} (ok0 : Ok orig s) :
    Ok orig (ringReady s) := by
  unfold ringReady
  repeat' first
    | with_reducible assumption | intro _ | dsimp only | with_reducible apply ok_ite | with_reducible apply ok_iteP
    | with_reducible apply ok_elim | with_reducible apply ok_elimP | with_reducible apply modRhl_ok
    | with_reducible apply refreshGood_ok | split

theorem setDelay_ok (s : State) (l : Link) (ns : Nat) {orig : State} (ok0 : Ok orig s) :
    Ok orig (setDelay s l ns) := by
  unfold setDelay
  repeat' first
    | with_reducible assumption | intro _ | dsimp only | with_reducible apply ok_ite | with_reducible apply ok_iteP
    | with_reducible apply ok_elim | with_reducible apply ok_elimP | with_reducible apply modTmp_ok | split

theorem execTrainStepDone_ok (link : Link) (delayNs : Nat) (s : State) : ∀ t, execTrainStepDone link delayNs s = .next t → Ok s t := by
  intro t h
  have e : t = _ := (Host.Outcome.next.inj h).symm
  rw [e]; clear e h
  have ok0 : Ok s s := ok_refl _
  repeat' first
    | with_reducible assumption | intro _ | dsimp only | with_reducible apply ok_ite | with_reducible apply ok_iteP
    | with_reducible apply ok_elim | with_reducible apply ok_elimP | with_reducible apply modLink_ok
    | with_reducible apply moveLink_ok | with_reducible apply ringReady_ok | with_reducible apply setDelay_ok | split

theorem execTrainStepTimeout_ok (link : Link) (s : State) : ∀ t, execTrainStepTimeout link s = .next t → Ok s t := by
  intro t h
  have e : t = _ := (Host.Outcome.next.inj h).symm
  rw [e]; clear e h
  have ok0 : Ok s s := ok_refl _
  repeat' first
    | with_reducible assumption | intro _ | dsimp only | with_reducible apply ok_ite | with_reducible apply ok_iteP
    | with_reducible apply ok_elim | with_reducible apply ok_elimP | with_reducible apply modLink_ok
    | with_reducible apply linkDown_ok | with_reducible apply ringReady_ok | split

theorem execLinkLockLost_ok (link : Link) (s : State) : ∀ t, execLinkLockLost link s = .next t → Ok s t := by
  intro t h
  have e : t = _ := (Host.Outcome.next.inj h).symm
  rw [e]; clear e h
  have ok0 : Ok s s := ok_refl _
  repeat' first
    | with_reducible assumption | intro _ | dsimp only | with_reducible apply ok_ite | with_reducible apply ok_iteP
    | with_reducible apply ok_elim | with_reducible apply ok_elimP | with_reducible apply moveLink_ok | split

theorem learnPending_ok (s : State) (w : CWord) {orig : State} (ok0 : Ok orig s) :
    Ok orig (learnPending s w) := by
  unfold learnPending
  repeat' first
    | with_reducible assumption | intro _ | dsimp only | with_reducible apply ok_ite | with_reducible apply ok_iteP
    | with_reducible apply ok_elim | with_reducible apply ok_elimP | with_reducible apply modGrade_ok | split

theorem refusedJoiner_ok (s : State) (l : Nat) (w : CWord) (o : PeerOutcome) {orig : State} (ok0 : Ok orig s) :
    Ok orig (refusedJoiner s l w o) := by
  unfold refusedJoiner
  repeat' first
    | with_reducible assumption | intro _ | dsimp only | with_reducible apply ok_ite | with_reducible apply ok_iteP
    | with_reducible apply ok_elim | with_reducible apply ok_elimP | with_reducible apply modRhl_ok
    | with_reducible apply realignLink_ok | with_reducible apply moveLink_ok | split

theorem peerChanged_ok (s : State) (l : Nat) (w : CWord) {orig : State} (ok0 : Ok orig s) :
    Ok orig (peerChanged s l w) := by
  unfold peerChanged
  repeat' first
    | with_reducible assumption | intro _ | dsimp only | with_reducible apply ok_ite | with_reducible apply ok_iteP
    | with_reducible apply ok_elim | with_reducible apply ok_elimP | with_reducible apply reshapeEvent_ok | split

theorem tryJoin_ok (s : State) {orig : State} (ok0 : Ok orig s) :
    Ok orig (tryJoin s) := by
  unfold tryJoin
  repeat' first
    | with_reducible assumption | intro _ | dsimp only | with_reducible apply ok_ite | with_reducible apply ok_iteP
    | with_reducible apply ok_elim | with_reducible apply ok_elimP | with_reducible apply floodReshape_ok | split

theorem tryMerge_ok (s : State) (l : Nat) (w : CWord) {orig : State} (ok0 : Ok orig s) :
    Ok orig (tryMerge s l w) := by
  unfold tryMerge
  repeat' first
    | with_reducible assumption | intro _ | dsimp only | with_reducible apply ok_ite | with_reducible apply ok_iteP
    | with_reducible apply ok_elim | with_reducible apply ok_elimP | with_reducible apply floodReshape_ok | split

theorem beatApart_ok (s : State) (l : Nat) (w : CWord) {orig : State} (ok0 : Ok orig s) :
    Ok orig (beatApart s l w) := by
  unfold beatApart
  repeat' first
    | with_reducible assumption | intro _ | dsimp only | with_reducible apply ok_ite | with_reducible apply ok_iteP
    | with_reducible apply ok_elim | with_reducible apply ok_elimP | with_reducible apply endColls_ok | split

theorem acceptedWord_ok (s : State) (l : Nat) (w : CWord) {orig : State} (ok0 : Ok orig s) :
    Ok orig (acceptedWord s l w) := by
  unfold acceptedWord
  repeat' first
    | with_reducible assumption | intro _ | dsimp only | with_reducible apply ok_ite | with_reducible apply ok_iteP
    | with_reducible apply ok_elim | with_reducible apply ok_elimP | with_reducible apply moveLink_ok
    | with_reducible apply learnPending_ok | with_reducible apply tryJoin_ok | with_reducible apply tryMerge_ok
    | with_reducible apply beatApart_ok | split

theorem consensusWord_ok (s : State) (l : Nat) (w : CWord) (bytes : List Byte) {orig : State} (ok0 : Ok orig s) :
    Ok orig (consensusWord s l w bytes) := by
  unfold consensusWord
  repeat' first
    | with_reducible assumption | intro _ | dsimp only | with_reducible apply ok_ite | with_reducible apply ok_iteP
    | with_reducible apply ok_elim | with_reducible apply ok_elimP | with_reducible apply modLink_ok
    | with_reducible apply refusedJoiner_ok | with_reducible apply peerChanged_ok | with_reducible apply acceptedWord_ok | split

theorem forwardWord_ok (s : State) (l : Nat) (bytes : List Byte) {orig : State} (ok0 : Ok orig s) :
    Ok orig (forwardWord s l bytes) := by
  unfold forwardWord
  repeat' first
    | with_reducible assumption | intro _ | dsimp only | with_reducible apply ok_ite | with_reducible apply ok_iteP
    | with_reducible apply ok_elim | with_reducible apply ok_elimP | with_reducible apply sendWord_ok | split

theorem gradeWord_ok (s : State) (w : CWord) {orig : State} (ok0 : Ok orig s) :
    Ok orig (gradeWord s w) := by
  unfold gradeWord
  repeat' first
    | with_reducible assumption | intro _ | dsimp only | with_reducible apply ok_ite | with_reducible apply ok_iteP
    | with_reducible apply ok_elim | with_reducible apply ok_elimP | with_reducible apply modGrade_ok
    | with_reducible apply modRhl_ok | with_reducible apply addMember_ok | split

theorem reshapeWord_ok (s : State) (w : CWord) {orig : State} (ok0 : Ok orig s) :
    Ok orig (reshapeWord s w) := by
  unfold reshapeWord
  repeat' first
    | with_reducible assumption | intro _ | dsimp only | with_reducible apply ok_ite | with_reducible apply ok_iteP
    | with_reducible apply ok_elim | with_reducible apply ok_elimP | with_reducible apply modRhl_ok | split

theorem applyUpdate_ok (s : State) (w : CWord) (bytes : List Byte) {orig : State} (ok0 : Ok orig s) :
    Ok orig (applyUpdate s w bytes) := by
  unfold applyUpdate
  repeat' first
    | with_reducible assumption | intro _ | dsimp only | with_reducible apply ok_ite | with_reducible apply ok_iteP
    | with_reducible apply ok_elim | with_reducible apply ok_elimP | with_reducible apply modRhl_ok
    | with_reducible apply gradeWord_ok | with_reducible apply reshapeWord_ok | split

theorem updateWord_ok (s : State) (l : Nat) (w : CWord) (bytes : List Byte) {orig : State} (ok0 : Ok orig s) :
    Ok orig (updateWord s l w bytes) := by
  unfold updateWord
  repeat' first
    | with_reducible assumption | intro _ | dsimp only | with_reducible apply ok_ite | with_reducible apply ok_iteP
    | with_reducible apply ok_elim | with_reducible apply ok_elimP | with_reducible apply modRhl_ok
    | with_reducible apply forwardWord_ok | with_reducible apply applyUpdate_ok | split

theorem wordArrives_ok (s : State) (l : Nat) (bytes : List Byte) {orig : State} (ok0 : Ok orig s) :
    Ok orig (wordArrives s l bytes) := by
  unfold wordArrives
  repeat' first
    | with_reducible assumption | intro _ | dsimp only | with_reducible apply ok_ite | with_reducible apply ok_iteP
    | with_reducible apply ok_elim | with_reducible apply ok_elimP | with_reducible apply modRhl_ok
    | with_reducible apply consensusWord_ok | with_reducible apply updateWord_ok | split

theorem execConsensusWordReceive_ok (link : Link) (bytes : List Byte) (s : State) : ∀ t, execConsensusWordReceive link bytes s = .next t → Ok s t := by
  intro t h
  have e : t = _ := (Host.Outcome.next.inj h).symm
  rw [e]; clear e h
  have ok0 : Ok s s := ok_refl _
  repeat' first
    | with_reducible assumption | intro _ | dsimp only | with_reducible apply ok_ite | with_reducible apply ok_iteP
    | with_reducible apply ok_elim | with_reducible apply ok_elimP | with_reducible apply wordArrives_ok | split

theorem execUpdateWordReceive_ok (link : Link) (bytes : List Byte) (s : State) : ∀ t, execUpdateWordReceive link bytes s = .next t → Ok s t := by
  intro t h
  have e : t = _ := (Host.Outcome.next.inj h).symm
  rw [e]; clear e h
  have ok0 : Ok s s := ok_refl _
  repeat' first
    | with_reducible assumption | intro _ | dsimp only | with_reducible apply ok_ite | with_reducible apply ok_iteP
    | with_reducible apply ok_elim | with_reducible apply ok_elimP | with_reducible apply wordArrives_ok | split

theorem execConsensusWordTimeout_ok (link : Link) (s : State) : ∀ t, execConsensusWordTimeout link s = .next t → Ok s t := by
  intro t h
  have e : t = _ := (Host.Outcome.next.inj h).symm
  rw [e]; clear e h
  have ok0 : Ok s s := ok_refl _
  repeat' first
    | with_reducible assumption | intro _ | dsimp only | with_reducible apply ok_ite | with_reducible apply ok_iteP
    | with_reducible apply ok_elim | with_reducible apply ok_elimP | with_reducible apply modLink_ok
    | with_reducible apply linkDown_ok | split

theorem execDomainOfOne_ok (s : State) : ∀ t, execDomainOfOne s = .next t → Ok s t := by
  intro t h
  have e : t = _ := (Host.Outcome.next.inj h).symm
  rw [e]; clear e h
  have ok0 : Ok s s := ok_refl _
  repeat' first
    | with_reducible assumption | intro _ | dsimp only | with_reducible apply ok_ite | with_reducible apply ok_iteP
    | with_reducible apply ok_elim | with_reducible apply ok_elimP | with_reducible apply modGrade_ok
    | with_reducible apply modRhl_ok | with_reducible apply addMember_ok | with_reducible apply remasterDue_ok | split

theorem execReshapeAbortBeat_ok (s : State) : ∀ t, execReshapeAbortBeat s = .next t → Ok s t := by
  intro t h
  have e : t = _ := (Host.Outcome.next.inj h).symm
  rw [e]; clear e h
  have ok0 : Ok s s := ok_refl _
  repeat' first
    | with_reducible assumption | intro _ | dsimp only | with_reducible apply ok_ite | with_reducible apply ok_iteP
    | with_reducible apply ok_elim | with_reducible apply ok_elimP | with_reducible apply modRhl_ok
    | with_reducible apply endColls_ok | split

theorem execTripWordAbort_ok (s : State) : ∀ t, execTripWordAbort s = .next t → Ok s t := by
  intro t h
  have e : t = _ := (Host.Outcome.next.inj h).symm
  rw [e]; clear e h
  have ok0 : Ok s s := ok_refl _
  repeat' first
    | with_reducible assumption | intro _ | dsimp only | with_reducible apply ok_ite | with_reducible apply ok_iteP
    | with_reducible apply ok_elim | with_reducible apply ok_elimP | with_reducible apply modRhl_ok
    | with_reducible apply endColls_ok | with_reducible refine each_ok (fun _ _ h => ?_) ?_ | split

theorem takeRingFlit_ok (s : State) (c : Coll) (y : Bool) (f : RingFlit) {orig : State} (ok0 : Ok orig s) :
    Ok orig (takeRingFlit s c y f) := by
  unfold takeRingFlit
  repeat' first
    | with_reducible assumption | intro _ | dsimp only | with_reducible apply ok_ite | with_reducible apply ok_iteP
    | with_reducible apply ok_elim | with_reducible apply ok_elimP | with_reducible apply modRhl_ok
    | with_reducible apply modColl_ok | with_reducible apply collFlit_ok | with_reducible apply advanceColl_ok | split

theorem execRingFlitReceive_ok (link : Link) (flit : RingFlit) (s : State) : ∀ t, execRingFlitReceive link flit s = .next t → Ok s t := by
  intro t h
  have e : t = _ := (Host.Outcome.next.inj h).symm
  rw [e]; clear e h
  have ok0 : Ok s s := ok_refl _
  repeat' first
    | with_reducible assumption | intro _ | dsimp only | with_reducible apply ok_ite | with_reducible apply ok_iteP
    | with_reducible apply ok_elim | with_reducible apply ok_elimP | with_reducible apply modRhl_ok | with_reducible apply emit_ok
    | with_reducible apply takeRingFlit_ok | split

/-! ## Machine/LoaderOps.lean -/

theorem stackWrite_ok (s : State) (a : Nat) (bs : List Byte) {orig : State} (ok0 : Ok orig s) :
    Ok orig (stackWrite s a bs) := by
  unfold stackWrite
  repeat' first
    | with_reducible assumption | intro _ | dsimp only | with_reducible apply ok_ite | with_reducible apply ok_iteP
    | with_reducible apply ok_elim | with_reducible apply ok_elimP | with_reducible apply writeLine_ok
    | with_reducible refine each_ok (fun _ _ h => ?_) ?_ | split

theorem commitPart_ok (s : State) (p : Nat) {orig : State} (ok0 : Ok orig s) :
    Ok orig (commitPart s p) := by
  unfold commitPart
  repeat' first
    | with_reducible assumption | intro _ | dsimp only | with_reducible apply ok_ite | with_reducible apply ok_iteP
    | with_reducible apply ok_elim | with_reducible apply ok_elimP | with_reducible apply modPart_ok
    | with_reducible apply partEvent_ok | with_reducible apply setPartState_ok | split

theorem leaseBad_ok (s : State) {orig : State} (ok0 : Ok orig s) :
    Ok orig (leaseBad s) := by
  unfold leaseBad
  repeat' first
    | with_reducible assumption | intro _ | dsimp only | with_reducible apply ok_ite | with_reducible apply ok_iteP
    | with_reducible apply ok_elim | with_reducible apply ok_elimP | with_reducible apply modRst_ok | split

theorem install_ok (s : State) (t : Structure) {orig : State} (ok0 : Ok orig s) :
    Ok orig (install s t) := by
  unfold install
  repeat' first
    | with_reducible assumption | intro _ | dsimp only | with_reducible apply ok_ite | with_reducible apply ok_iteP
    | with_reducible apply ok_elim | with_reducible apply ok_elimP | with_reducible apply modSld_ok
    | with_reducible apply modStr_ok | with_reducible apply modGrn_ok | with_reducible apply modFab_ok
    | with_reducible apply modHif_ok | with_reducible apply capChange_ok | with_reducible apply stackWrite_ok
    | with_reducible apply commitPart_ok | with_reducible apply leaseBad_ok | ((with_reducible apply modMem_ok); · intro m; rfl)
    | ((with_reducible apply modMem_ok_wf); · intro m w; rfl) | with_reducible refine each_ok (fun _ _ h => ?_) ?_ | split

theorem finishWake_ok (s : State) {orig : State} (ok0 : Ok orig s) :
    Ok orig (finishWake s) := by
  unfold finishWake
  repeat' first
    | with_reducible assumption | intro _ | dsimp only | with_reducible apply ok_ite | with_reducible apply ok_iteP
    | with_reducible apply ok_elim | with_reducible apply ok_elimP | with_reducible apply modTmp_ok
    | with_reducible apply modGrade_ok | with_reducible apply modRst_ok | with_reducible apply fresh_ok
    | with_reducible apply refreshGood_ok | with_reducible apply setVolts_ok | with_reducible apply settlePower_ok | split

theorem readSource_ok (s : State) (src off len : Nat) {orig : State} (ok0 : Ok orig s) :
    Ok orig (State.readSource s src off len) := by
  unfold State.readSource
  repeat' first
    | with_reducible assumption | intro _ | dsimp only | with_reducible apply ok_ite | with_reducible apply ok_iteP
    | with_reducible apply ok_elim | with_reducible apply ok_elimP | with_reducible apply emit_ok | split

theorem startJob_ok (s : State) (kind : JobKind) (src : Nat) {orig : State} (ok0 : Ok orig s) :
    Ok orig (startJob s kind src) := by
  unfold startJob
  repeat' first
    | with_reducible assumption | intro _ | dsimp only | with_reducible apply ok_ite | with_reducible apply ok_iteP
    | with_reducible apply ok_elim | with_reducible apply ok_elimP | with_reducible apply modSld_ok
    | with_reducible apply readSource_ok | split

theorem endJob_ok (s : State) (c : Code) (phase : Nat) {orig : State} (ok0 : Ok orig s) :
    Ok orig (endJob s c phase) := by
  unfold endJob
  repeat' first
    | with_reducible assumption | intro _ | dsimp only | with_reducible apply ok_ite | with_reducible apply ok_iteP
    | with_reducible apply ok_elim | with_reducible apply ok_elimP | with_reducible apply modSld_ok
    | with_reducible apply signal_ok | split

theorem bootLoad_ok (s : State) {orig : State} (ok0 : Ok orig s) :
    Ok orig (bootLoad s) := by
  unfold bootLoad
  repeat' first
    | with_reducible assumption | intro _ | dsimp only | with_reducible apply ok_ite | with_reducible apply ok_iteP
    | with_reducible apply ok_elim | with_reducible apply ok_elimP | with_reducible apply modSld_ok
    | with_reducible apply startJob_ok | split

theorem failJob_ok (s : State) (j : Job) (e : LoadFail) {orig : State} (ok0 : Ok orig s) :
    Ok orig (failJob s j e) := by
  unfold failJob
  repeat' first
    | with_reducible assumption | intro _ | dsimp only | with_reducible apply ok_ite | with_reducible apply ok_iteP
    | with_reducible apply ok_elim | with_reducible apply ok_elimP | with_reducible apply modSld_ok
    | with_reducible apply finishWake_ok | with_reducible apply startJob_ok | with_reducible apply endJob_ok | split

theorem ioFail_ok (s : State) (j : Job) (step : Nat) {orig : State} (ok0 : Ok orig s) :
    Ok orig (ioFail s j step) := by
  unfold ioFail
  repeat' first
    | with_reducible assumption | intro _ | dsimp only | with_reducible apply ok_ite | with_reducible apply ok_iteP
    | with_reducible apply ok_elim | with_reducible apply ok_elimP | with_reducible apply failJob_ok | split

theorem passJob_ok (s : State) (j : Job) {orig : State} (ok0 : Ok orig s) :
    Ok orig (passJob s j) := by
  unfold passJob
  repeat' first
    | with_reducible assumption | intro _ | dsimp only | with_reducible apply ok_ite | with_reducible apply ok_iteP
    | with_reducible apply ok_elim | with_reducible apply ok_elimP | with_reducible apply modSld_ok
    | with_reducible apply warmStart_ok | with_reducible apply install_ok | with_reducible apply finishWake_ok
    | with_reducible apply endJob_ok | split

theorem headerRead_ok (s : State) (j : Job) (data : List Byte) {orig : State} (ok0 : Ok orig s) :
    Ok orig (headerRead s j data) := by
  unfold headerRead
  repeat' first
    | with_reducible assumption | intro _ | dsimp only | with_reducible apply ok_ite | with_reducible apply ok_iteP
    | with_reducible apply ok_elim | with_reducible apply ok_elimP | with_reducible apply modSld_ok
    | with_reducible apply readSource_ok | with_reducible apply failJob_ok | split

theorem bodyRead_ok (s : State) (j : Job) (data : List Byte) {orig : State} (ok0 : Ok orig s) :
    Ok orig (bodyRead s j data) := by
  unfold bodyRead
  repeat' first
    | with_reducible assumption | intro _ | dsimp only | with_reducible apply ok_ite | with_reducible apply ok_iteP
    | with_reducible apply ok_elim | with_reducible apply ok_elimP | with_reducible apply modSld_ok
    | with_reducible apply readSource_ok | with_reducible apply failJob_ok | split

theorem rereadDone_ok (s : State) (j : Job) (data : List Byte) {orig : State} (ok0 : Ok orig s) :
    Ok orig (rereadDone s j data) := by
  unfold rereadDone
  repeat' first
    | with_reducible assumption | intro _ | dsimp only | with_reducible apply ok_ite | with_reducible apply ok_iteP
    | with_reducible apply ok_elim | with_reducible apply ok_elimP | with_reducible apply failJob_ok
    | with_reducible apply passJob_ok | split

theorem closeKeyop_none_ok (s : State) {orig : State} (ok0 : Ok orig s) : Ok orig (closeKeyop s none) :=
  drawn_ok _ (modSld_ok (modSld_ok ok0))

theorem endKeyop_none_ok (s : State) {orig : State} (ok0 : Ok orig s) : Ok orig (endKeyop s none) :=
  signal_ok _ _ _ (closeKeyop_none_ok _ ok0)

/-- A key operation that is admitted changes nothing but the fuses of what `Ok` names. -/
theorem endKeyop_some_ok (s : State) (f : Fuses) : Ok (s.modFuses fun _ => f) (endKeyop s (some f)) :=
  signal_ok _ _ _ (drawn_ok _ (modSld_ok (ok_refl _)))

theorem rejectGo_ok (s : State) {orig : State} (ok0 : Ok orig s) :
    Ok orig (rejectGo s) := by
  unfold rejectGo
  repeat' first
    | with_reducible assumption | intro _ | dsimp only | with_reducible apply ok_ite | with_reducible apply ok_iteP
    | with_reducible apply ok_elim | with_reducible apply ok_elimP | with_reducible apply modSld_ok | split

theorem startSld_ok (s : State) (op src : BitVec 2) (keep : Bool) {orig : State} (ok0 : Ok orig s) :
    Ok orig (startSld s op src keep) := by
  unfold startSld
  repeat' first
    | with_reducible assumption | intro _ | dsimp only | with_reducible apply ok_ite | with_reducible apply ok_iteP
    | with_reducible apply ok_elim | with_reducible apply ok_elimP | with_reducible apply modSld_ok
    | with_reducible apply readSource_ok | with_reducible apply startJob_ok | with_reducible apply ioFail_ok
    | with_reducible apply endKeyop_none_ok | with_reducible apply rejectGo_ok | split

/-- What the data of a loader read changes: nothing of what `Ok` names, but for the fuses at the end of a key operation. -/
theorem sourceRead_ok (s : State) (good : Bool) (data : List Byte) :
    Ok s (sourceRead s good data) ∨ ∃ f nonce d, keyOperation s.fuses nonce d = some f ∧ Ok (s.modFuses fun _ => f) (sourceRead s good data) := by
  unfold sourceRead
  split
  · exact .inl (ok_refl _)
  · dsimp only
    split
    · exact .inl (ok_refl _)
    · split
      · exact .inl (ok_ite (headerRead_ok _ _ _ (ok_refl _)) (ioFail_ok _ _ _ (ok_refl _)))
      · exact .inl (ok_ite (bodyRead_ok _ _ _ (ok_refl _)) (ioFail_ok _ _ _ (ok_refl _)))
      · exact .inl (ok_ite (rereadDone_ok _ _ _ (ok_refl _)) (ioFail_ok _ _ _ (ok_refl _)))
      · split
        · rcases e : keyOperation s.fuses s.sld.nonce _ with _ | f
          · exact .inl (endKeyop_none_ok _ (ok_refl _))
          · exact .inr ⟨f, _, _, e, endKeyop_some_ok _ _⟩
        · exact .inl (endKeyop_none_ok _ (ok_refl _))

theorem abandonJob_ok (s : State) (flr : Bool) {orig : State} (ok0 : Ok orig s) :
    Ok orig (abandonJob s flr) := by
  unfold abandonJob
  repeat' first
    | with_reducible assumption | intro _ | dsimp only | with_reducible apply ok_ite | with_reducible apply ok_iteP
    | with_reducible apply ok_elim | with_reducible apply ok_elimP | with_reducible apply modSld_ok
    | with_reducible apply closeKeyop_none_ok | split

theorem execSldValidate_ok (src : BitVec 2) (keepMem : Bool) (s : State) : ∀ t, execSldValidate src keepMem s = .next t → Ok s t := by
  intro t h
  have e : t = _ := (Host.Outcome.next.inj h).symm
  rw [e]; clear e h
  have ok0 : Ok s s := ok_refl _
  repeat' first
    | with_reducible assumption | intro _ | dsimp only | with_reducible apply ok_ite | with_reducible apply ok_iteP
    | with_reducible apply ok_elim | with_reducible apply ok_elimP | with_reducible apply hostAccess_ok
    | with_reducible apply startSld_ok | split

theorem execSldLoad_ok (src : BitVec 2) (keepMem : Bool) (s : State) : ∀ t, execSldLoad src keepMem s = .next t → Ok s t := by
  intro t h
  have e : t = _ := (Host.Outcome.next.inj h).symm
  rw [e]; clear e h
  have ok0 : Ok s s := ok_refl _
  repeat' first
    | with_reducible assumption | intro _ | dsimp only | with_reducible apply ok_ite | with_reducible apply ok_iteP
    | with_reducible apply ok_elim | with_reducible apply ok_elimP | with_reducible apply hostAccess_ok
    | with_reducible apply startSld_ok | split

theorem execSldKeyop_ok (src : BitVec 2) (keepMem : Bool) (s : State) : ∀ t, execSldKeyop src keepMem s = .next t → Ok s t := by
  intro t h
  have e : t = _ := (Host.Outcome.next.inj h).symm
  rw [e]; clear e h
  have ok0 : Ok s s := ok_refl _
  repeat' first
    | with_reducible assumption | intro _ | dsimp only | with_reducible apply ok_ite | with_reducible apply ok_iteP
    | with_reducible apply ok_elim | with_reducible apply ok_elimP | with_reducible apply hostAccess_ok
    | with_reducible apply startSld_ok | split

/-! ## Machine/PowerCmds.lean -/

theorem hostCap_ok (s : State) (w : Nat) {orig : State} (ok0 : Ok orig s) :
    Ok orig (hostCap s w).1 := by
  unfold hostCap
  repeat' first
    | with_reducible assumption | intro _ | dsimp only | with_reducible apply ok_ite | with_reducible apply ok_iteP
    | with_reducible apply ok_elim | with_reducible apply ok_elimP | with_reducible apply rackHold_ok
    | with_reducible apply order_ok | split

theorem hostState_ok (s : State) (v : PState) {orig : State} (ok0 : Ok orig s) :
    Ok orig (hostState s v).1 := by
  unfold hostState
  repeat' first
    | with_reducible assumption | intro _ | dsimp only | with_reducible apply ok_ite | with_reducible apply ok_iteP
    | with_reducible apply ok_elim | with_reducible apply ok_elimP | with_reducible apply rackHold_ok
    | with_reducible apply order_ok | split

theorem writeCapHost_ok (s : State) (fn : Nat) (v : Nat) {orig : State} (ok0 : Ok orig s) :
    Ok orig (writeCapHost s fn v) := by
  unfold writeCapHost
  repeat' first
    | with_reducible assumption | intro _ | dsimp only | with_reducible apply ok_ite | with_reducible apply ok_iteP
    | with_reducible apply ok_elim | with_reducible apply ok_elimP | with_reducible apply hostCap_ok
    | (rename_i e; have e1 := congrArg Prod.fst e; dsimp only at e1; subst e1; clear e) | split

theorem writeStateHost_ok (s : State) (fn : Nat) (v : Nat) {orig : State} (ok0 : Ok orig s) :
    Ok orig (writeStateHost s fn v) := by
  unfold writeStateHost
  repeat' first
    | with_reducible assumption | intro _ | dsimp only | with_reducible apply ok_ite | with_reducible apply ok_iteP
    | with_reducible apply ok_elim | with_reducible apply ok_elimP | with_reducible apply hostState_ok
    | (rename_i e; have e1 := congrArg Prod.fst e; dsimp only at e1; subst e1; clear e) | split

theorem sideOrder_ok (s : State) (f : State → State × Code) {orig : State} (hf : ∀ s, Ok orig s → Ok orig (f s).1) (ok0 : Ok orig s) :
    Ok orig (sideOrder s f) := by
  unfold sideOrder
  repeat' first
    | with_reducible assumption | intro _ | dsimp only | with_reducible apply ok_ite | with_reducible apply ok_iteP
    | with_reducible apply ok_elim | with_reducible apply ok_elimP | with_reducible apply emit_ok | with_reducible apply hf
    | split

theorem rackCap_ok (s : State) (w : Option Nat) {orig : State} (ok0 : Ok orig s) :
    Ok orig (rackCap s w).1 := by
  unfold rackCap
  repeat' first
    | with_reducible assumption | intro _ | dsimp only | with_reducible apply ok_ite | with_reducible apply ok_iteP
    | with_reducible apply ok_elim | with_reducible apply ok_elimP | with_reducible apply order_ok | split

theorem boardCap_ok (s : State) (w : Nat) {orig : State} (ok0 : Ok orig s) :
    Ok orig (boardCap s w).1 := by
  unfold boardCap
  repeat' first
    | with_reducible assumption | intro _ | dsimp only | with_reducible apply ok_ite | with_reducible apply ok_iteP
    | with_reducible apply ok_elim | with_reducible apply ok_elimP | with_reducible apply order_ok | split

theorem rackState_ok (s : State) (v : PState) (grace : Option Nat) (force : Bool) {orig : State} (ok0 : Ok orig s) :
    Ok orig (rackState s v grace force).1 := by
  unfold rackState
  repeat' first
    | with_reducible assumption | intro _ | dsimp only | with_reducible apply ok_ite | with_reducible apply ok_iteP
    | with_reducible apply ok_elim | with_reducible apply ok_elimP | with_reducible apply modPwr_ok
    | with_reducible apply signalPower_ok | with_reducible apply powerEvent_ok | with_reducible apply order_ok | split

theorem execPwrCapHostWrite_ok (fn : Fn) (value : W32) (s : State) : ∀ t, execPwrCapHostWrite fn value s = .next t → Ok s t := by
  intro t h
  have e : t = _ := (Host.Outcome.next.inj h).symm
  rw [e]; clear e h
  have ok0 : Ok s s := ok_refl _
  repeat' first
    | with_reducible assumption | intro _ | dsimp only | with_reducible apply ok_ite | with_reducible apply ok_iteP
    | with_reducible apply ok_elim | with_reducible apply ok_elimP | with_reducible apply hostAccess_ok
    | with_reducible apply writeCapHost_ok | split

theorem execPwrStateHostWrite_ok (fn : Fn) (value : W32) (s : State) : ∀ t, execPwrStateHostWrite fn value s = .next t → Ok s t := by
  intro t h
  have e : t = _ := (Host.Outcome.next.inj h).symm
  rw [e]; clear e h
  have ok0 : Ok s s := ok_refl _
  repeat' first
    | with_reducible assumption | intro _ | dsimp only | with_reducible apply ok_ite | with_reducible apply ok_iteP
    | with_reducible apply ok_elim | with_reducible apply ok_elimP | with_reducible apply hostAccess_ok
    | with_reducible apply writeStateHost_ok | split

theorem sidebandHost_ok (s : State) (cap : Option Nat) (state : Option PState) {orig : State} (ok0 : Ok orig s) :
    Ok orig (sidebandHost s cap state) := by
  unfold sidebandHost
  repeat' first
    | with_reducible assumption | intro _ | dsimp only | with_reducible apply ok_ite | with_reducible apply ok_iteP
    | with_reducible apply ok_elim | with_reducible apply ok_elimP | with_reducible apply hostCap_ok
    | with_reducible apply hostState_ok | with_reducible apply sideOrder_ok
    | (rename_i e; have e1 := congrArg Prod.fst e; dsimp only at e1; subst e1; clear e) | split

theorem execSidebandHostOrder_ok (cap : Option Nat) (state : Option PState) (s : State) : ∀ t, execSidebandHostOrder cap state s = .next t → Ok s t := by
  intro t h
  have e : t = _ := (Host.Outcome.next.inj h).symm
  rw [e]; clear e h
  have ok0 : Ok s s := ok_refl _
  repeat' first
    | with_reducible assumption | intro _ | dsimp only | with_reducible apply ok_ite | with_reducible apply ok_iteP
    | with_reducible apply ok_elim | with_reducible apply ok_elimP | with_reducible apply sidebandHost_ok | split

theorem execRackCapOrder_ok (watts : Option Nat) (s : State) : ∀ t, execRackCapOrder watts s = .next t → Ok s t := by
  intro t h
  have e : t = _ := (Host.Outcome.next.inj h).symm
  rw [e]; clear e h
  have ok0 : Ok s s := ok_refl _
  repeat' first
    | with_reducible assumption | intro _ | dsimp only | with_reducible apply ok_ite | with_reducible apply ok_iteP
    | with_reducible apply ok_elim | with_reducible apply ok_elimP | with_reducible apply sideOrder_ok
    | with_reducible apply rackCap_ok | (rename_i e; have e1 := congrArg Prod.fst e; dsimp only at e1; subst e1; clear e) | split

theorem execRackStateOrder_ok (state : PState) (grace : Option Nat) (force : Bool) (s : State) : ∀ t, execRackStateOrder state grace force s = .next t → Ok s t := by
  intro t h
  have e : t = _ := (Host.Outcome.next.inj h).symm
  rw [e]; clear e h
  have ok0 : Ok s s := ok_refl _
  repeat' first
    | with_reducible assumption | intro _ | dsimp only | with_reducible apply ok_ite | with_reducible apply ok_iteP
    | with_reducible apply ok_elim | with_reducible apply ok_elimP | with_reducible apply sideOrder_ok
    | with_reducible apply rackState_ok | (rename_i e; have e1 := congrArg Prod.fst e; dsimp only at e1; subst e1; clear e)
    | split

theorem execBoardCapOrder_ok (watts : Nat) (s : State) : ∀ t, execBoardCapOrder watts s = .next t → Ok s t := by
  intro t h
  have e : t = _ := (Host.Outcome.next.inj h).symm
  rw [e]; clear e h
  have ok0 : Ok s s := ok_refl _
  repeat' first
    | with_reducible assumption | intro _ | dsimp only | with_reducible apply ok_ite | with_reducible apply ok_iteP
    | with_reducible apply ok_elim | with_reducible apply ok_elimP | with_reducible apply sideOrder_ok
    | with_reducible apply boardCap_ok | (rename_i e; have e1 := congrArg Prod.fst e; dsimp only at e1; subst e1; clear e) | split

theorem execBoardStateOrder_ok (state : PState) (s : State) : ∀ t, execBoardStateOrder state s = .next t → Ok s t := by
  intro t h
  have e : t = _ := (Host.Outcome.next.inj h).symm
  rw [e]; clear e h
  have ok0 : Ok s s := ok_refl _
  repeat' first
    | with_reducible assumption | intro _ | dsimp only | with_reducible apply ok_ite | with_reducible apply ok_iteP
    | with_reducible apply ok_elim | with_reducible apply ok_elimP | with_reducible apply order_ok
    | with_reducible apply sideOrder_ok | split

theorem execRackOffGraceExpiry_ok (s : State) : ∀ t, execRackOffGraceExpiry s = .next t → Ok s t := by
  intro t h
  have e : t = _ := (Host.Outcome.next.inj h).symm
  rw [e]; clear e h
  have ok0 : Ok s s := ok_refl _
  repeat' first
    | with_reducible assumption | intro _ | dsimp only | with_reducible apply ok_ite | with_reducible apply ok_iteP
    | with_reducible apply ok_elim | with_reducible apply ok_elimP | with_reducible apply order_ok | split

theorem execParkDrainDone_ok (s : State) : ∀ t, execParkDrainDone s = .next t → Ok s t := by
  intro t h
  have e : t = _ := (Host.Outcome.next.inj h).symm
  rw [e]; clear e h
  have ok0 : Ok s s := ok_refl _
  repeat' first
    | with_reducible assumption | intro _ | dsimp only | with_reducible apply ok_ite | with_reducible apply ok_iteP
    | with_reducible apply ok_elim | with_reducible apply ok_elimP | with_reducible apply refreshGood_ok
    | with_reducible apply enterPark_ok | split

theorem execParkExitResume_ok (s : State) : ∀ t, execParkExitResume s = .next t → Ok s t := by
  intro t h
  have e : t = _ := (Host.Outcome.next.inj h).symm
  rw [e]; clear e h
  have ok0 : Ok s s := ok_refl _
  repeat' first
    | with_reducible assumption | intro _ | dsimp only | with_reducible apply ok_ite | with_reducible apply ok_iteP
    | with_reducible apply ok_elim | with_reducible apply ok_elimP | with_reducible apply modRhl_ok
    | with_reducible apply modPwr_ok | with_reducible apply settlePower_ok | with_reducible apply placeAll_ok | split

theorem modDiePwr_ok (s : State) (n : Nat) (f : DiePwr → DiePwr) {orig : State} (ok0 : Ok orig s) :
    Ok orig (State.modDiePwr s n f) := by
  unfold State.modDiePwr
  repeat' first
    | with_reducible assumption | intro _ | dsimp only | with_reducible apply ok_ite | with_reducible apply ok_iteP
    | with_reducible apply ok_elim | with_reducible apply ok_elimP | with_reducible apply modPwr_ok | split

theorem engage_ok (s : State) (n step : Nat) {orig : State} (ok0 : Ok orig s) :
    Ok orig (engage s n step) := by
  unfold engage
  repeat' first
    | with_reducible assumption | intro _ | dsimp only | with_reducible apply ok_ite | with_reducible apply ok_iteP
    | with_reducible apply ok_elim | with_reducible apply ok_elimP | with_reducible apply modPwr_ok
    | with_reducible apply event_ok | with_reducible apply powerEvent_ok | with_reducible apply markLimited_ok
    | with_reducible apply modDiePwr_ok | split

theorem execOvercurrentSense_ok (die : Die) (s : State) : ∀ t, execOvercurrentSense die s = .next t → Ok s t := by
  intro t h
  have e : t = _ := (Host.Outcome.next.inj h).symm
  rw [e]; clear e h
  have ok0 : Ok s s := ok_refl _
  repeat' first
    | with_reducible assumption | intro _ | dsimp only | with_reducible apply ok_ite | with_reducible apply ok_iteP
    | with_reducible apply ok_elim | with_reducible apply ok_elimP | with_reducible apply modDiePwr_ok
    | with_reducible apply engage_ok | split

theorem execLimiterStepUp_ok (die : Die) (s : State) : ∀ t, execLimiterStepUp die s = .next t → Ok s t := by
  intro t h
  have e : t = _ := (Host.Outcome.next.inj h).symm
  rw [e]; clear e h
  have ok0 : Ok s s := ok_refl _
  repeat' first
    | with_reducible assumption | intro _ | dsimp only | with_reducible apply ok_ite | with_reducible apply ok_iteP
    | with_reducible apply ok_elim | with_reducible apply ok_elimP | with_reducible apply modDiePwr_ok | split

theorem execLimiterStepDown_ok (die : Die) (s : State) : ∀ t, execLimiterStepDown die s = .next t → Ok s t := by
  intro t h
  have e : t = _ := (Host.Outcome.next.inj h).symm
  rw [e]; clear e h
  have ok0 : Ok s s := ok_refl _
  repeat' first
    | with_reducible assumption | intro _ | dsimp only | with_reducible apply ok_ite | with_reducible apply ok_iteP
    | with_reducible apply ok_elim | with_reducible apply ok_elimP | with_reducible apply modDiePwr_ok | split

theorem sampleDie_ok (s : State) (n : Nat) (t : Int) {orig : State} (ok0 : Ok orig s) :
    Ok orig (sampleDie s n t) := by
  unfold sampleDie
  repeat' first
    | with_reducible assumption | intro _ | dsimp only | with_reducible apply ok_ite | with_reducible apply ok_iteP
    | with_reducible apply ok_elim | with_reducible apply ok_elimP | with_reducible apply event_ok
    | with_reducible apply powerEvent_ok | with_reducible apply modDiePwr_ok | with_reducible apply engage_ok | split

theorem sampleTiles_ok (s : State) (ts : List (List Int)) {orig : State} (ok0 : Ok orig s) :
    Ok orig (sampleTiles s ts) := by
  unfold sampleTiles
  repeat' first
    | with_reducible assumption | intro _ | dsimp only | with_reducible apply ok_ite | with_reducible apply ok_iteP
    | with_reducible apply ok_elim | with_reducible apply ok_elimP | with_reducible apply modPwr_ok
    | with_reducible apply capChange_ok | with_reducible apply sampleDie_ok | with_reducible refine each_ok (fun _ _ h => ?_) ?_
    | with_reducible refine ok_foldl (fun _ _ h => ?_) _ ?_
    | with_reducible refine ok_foldlP (fun v => v.1) (fun _ _ h => ?_) _ ?_ | split

theorem execTileTempSample_ok (t0 t1 t2 t3 : List Int) (s : State) : ∀ t, execTileTempSample t0 t1 t2 t3 s = .next t → Ok s t := by
  intro t h
  have e : t = _ := (Host.Outcome.next.inj h).symm
  rw [e]; clear e h
  have ok0 : Ok s s := ok_refl _
  repeat' first
    | with_reducible assumption | intro _ | dsimp only | with_reducible apply ok_ite | with_reducible apply ok_iteP
    | with_reducible apply ok_elim | with_reducible apply ok_elimP | with_reducible apply modPwr_ok
    | with_reducible apply sampleTiles_ok | split

theorem thermtripNow_ok (s : State) {orig : State} (ok0 : Ok orig s) :
    Ok orig (thermtripNow s) := by
  unfold thermtripNow
  repeat' first
    | with_reducible assumption | intro _ | dsimp only | with_reducible apply ok_ite | with_reducible apply ok_iteP
    | with_reducible apply ok_elim | with_reducible apply ok_elimP | with_reducible apply modRst_ok
    | with_reducible apply refreshGood_ok | with_reducible apply railsLost_ok | split

theorem execThermtrip_ok (s : State) : ∀ t, execThermtrip s = .next t → Ok s t := by
  intro t h
  have e : t = _ := (Host.Outcome.next.inj h).symm
  rw [e]; clear e h
  have ok0 : Ok s s := ok_refl _
  repeat' first
    | with_reducible assumption | intro _ | dsimp only | with_reducible apply ok_ite | with_reducible apply ok_iteP
    | with_reducible apply ok_elim | with_reducible apply ok_elimP | with_reducible apply thermtripNow_ok | split

/-! ## Machine/ResetCmds.lean -/

theorem coldReset_ok (s : State) {orig : State} (ok0 : Ok orig s) :
    Ok orig (coldReset s) := by
  unfold coldReset
  repeat' first
    | with_reducible assumption | intro _ | dsimp only | with_reducible apply ok_ite | with_reducible apply ok_iteP
    | with_reducible apply ok_elim | with_reducible apply ok_elimP | with_reducible apply modRst_ok
    | with_reducible apply railsLost_ok | split

theorem aonLoss_ok (s : State) {orig : State} (ok0 : Ok orig s) :
    Ok orig (aonLoss s) := by
  unfold aonLoss
  repeat' first
    | with_reducible assumption | intro _ | dsimp only | with_reducible apply ok_ite | with_reducible apply ok_iteP
    | with_reducible apply ok_elim | with_reducible apply ok_elimP | with_reducible apply modRst_ok
    | with_reducible apply railsLost_ok | split

theorem execColdReset_ok (s : State) : ∀ t, execColdReset s = .next t → Ok s t := by
  intro t h
  have e : t = _ := (Host.Outcome.next.inj h).symm
  rw [e]; clear e h
  have ok0 : Ok s s := ok_refl _
  repeat' first
    | with_reducible assumption | intro _ | dsimp only | with_reducible apply ok_ite | with_reducible apply ok_iteP
    | with_reducible apply ok_elim | with_reducible apply ok_elimP | with_reducible apply coldReset_ok | split

theorem execAonPowerLoss_ok (s : State) : ∀ t, execAonPowerLoss s = .next t → Ok s t := by
  intro t h
  have e : t = _ := (Host.Outcome.next.inj h).symm
  rw [e]; clear e h
  have ok0 : Ok s s := ok_refl _
  repeat' first
    | with_reducible assumption | intro _ | dsimp only | with_reducible apply ok_ite | with_reducible apply ok_iteP
    | with_reducible apply ok_elim | with_reducible apply ok_elimP | with_reducible apply aonLoss_ok | split

theorem pkgResetNow_ok (s : State) (perst : Bool) {orig : State} (ok0 : Ok orig s) :
    Ok orig (pkgResetNow s perst) := by
  unfold pkgResetNow
  repeat' first
    | with_reducible assumption | intro _ | dsimp only | with_reducible apply ok_ite | with_reducible apply ok_iteP
    | with_reducible apply ok_elim | with_reducible apply ok_elimP | with_reducible apply modRst_ok
    | with_reducible apply setCause_ok | with_reducible apply railsLost_ok | split

theorem pkgReset_ok (s : State) (perst : Bool) (lowNs : Nat) {orig : State} (ok0 : Ok orig s) :
    Ok orig (pkgReset s perst lowNs) := by
  unfold pkgReset
  repeat' first
    | with_reducible assumption | intro _ | dsimp only | with_reducible apply ok_ite | with_reducible apply ok_iteP
    | with_reducible apply ok_elim | with_reducible apply ok_elimP | with_reducible apply drawn_ok
    | with_reducible apply pkgResetNow_ok | split

theorem execPkgReset_ok (perst : Bool) (lowNs : Nat) (s : State) : ∀ t, execPkgReset perst lowNs s = .next t → Ok s t := by
  intro t h
  have e : t = _ := (Host.Outcome.next.inj h).symm
  rw [e]; clear e h
  have ok0 : Ok s s := ok_refl _
  repeat' first
    | with_reducible assumption | intro _ | dsimp only | with_reducible apply ok_ite | with_reducible apply ok_iteP
    | with_reducible apply ok_elim | with_reducible apply ok_elimP | with_reducible apply pkgReset_ok | split

theorem releaseReset_ok (s : State) {orig : State} (ok0 : Ok orig s) :
    Ok orig (releaseReset s) := by
  unfold releaseReset
  repeat' first
    | with_reducible assumption | intro _ | dsimp only | with_reducible apply ok_ite | with_reducible apply ok_iteP
    | with_reducible apply ok_elim | with_reducible apply ok_elimP | with_reducible apply modSld_ok
    | with_reducible apply modRst_ok | with_reducible apply drawn_ok | with_reducible apply beginWake_ok | split

theorem execResetRelease_ok (s : State) : ∀ t, execResetRelease s = .next t → Ok s t := by
  intro t h
  have e : t = _ := (Host.Outcome.next.inj h).symm
  rw [e]; clear e h
  have ok0 : Ok s s := ok_refl _
  repeat' first
    | with_reducible assumption | intro _ | dsimp only | with_reducible apply ok_ite | with_reducible apply ok_iteP
    | with_reducible apply ok_elim | with_reducible apply ok_elimP | with_reducible apply releaseReset_ok | split

theorem testSheaf_ok (s : State) (sh : Nat) (fails : List Nat) {orig : State} (ok0 : Ok orig s) :
    Ok orig (testSheaf s sh fails) := by
  unfold testSheaf
  repeat' first
    | with_reducible assumption | intro _ | dsimp only | with_reducible apply ok_ite | with_reducible apply ok_iteP
    | with_reducible apply ok_elim | with_reducible apply ok_elimP | with_reducible apply modTile_ok
    | with_reducible refine ok_foldl (fun _ _ h => ?_) _ ?_
    | with_reducible refine ok_foldlP (fun v => v.1) (fun _ _ h => ?_) _ ?_ | split

theorem testDie_ok (s : State) (k : WakeKind) (n : Nat) (t : DieTests) {orig : State} (ok0 : Ok orig s) :
    Ok orig (testDie s k n t) := by
  unfold testDie
  repeat' first
    | with_reducible assumption | intro _ | dsimp only | with_reducible apply ok_ite | with_reducible apply ok_iteP
    | with_reducible apply ok_elim | with_reducible apply ok_elimP | with_reducible apply modStack_ok
    | with_reducible apply event_ok | with_reducible apply modFabDie_ok | with_reducible apply modDie_ok
    | with_reducible apply stepFailed_ok | with_reducible apply settleStage2_ok | with_reducible apply failStacks_ok
    | with_reducible apply testSheaf_ok | with_reducible refine each_ok (fun _ _ h => ?_) ?_
    | with_reducible refine ok_foldl (fun _ _ h => ?_) _ ?_
    | with_reducible refine ok_foldlP (fun v => v.1) (fun _ _ h => ?_) _ ?_ | split

theorem dieStepDone_ok (s : State) (k : WakeKind) (n : Nat) (info : WakeInfo) {orig : State} (ok0 : Ok orig s) :
    Ok orig (dieStepDone s k n info) := by
  unfold dieStepDone
  repeat' first
    | with_reducible assumption | intro _ | dsimp only | with_reducible apply ok_ite | with_reducible apply ok_iteP
    | with_reducible apply ok_elim | with_reducible apply ok_elimP | with_reducible apply railsOn_ok
    | with_reducible apply powerGood_ok | with_reducible apply modDie_ok | with_reducible apply settleStage2_ok
    | with_reducible apply stageTwoFail_ok | with_reducible apply seqResume_ok | with_reducible apply testDie_ok | split

theorem useHppr_ok (s : State) (e : Remap) {orig : State} (ok0 : Ok orig s) :
    Ok orig (useHppr s e) := by
  unfold useHppr
  repeat' first
    | with_reducible assumption | intro _ | dsimp only | with_reducible apply ok_ite | with_reducible apply ok_iteP
    | with_reducible apply ok_elim | with_reducible apply ok_elimP | with_reducible apply modStack_ok | split

theorem repairStacks_ok (s : State) (k : WakeKind) (done : List Nat) {orig : State} (ok0 : Ok orig s) :
    Ok orig (repairStacks s k done) := by
  unfold repairStacks
  repeat' first
    | with_reducible assumption | intro _ | dsimp only | with_reducible apply ok_ite | with_reducible apply ok_iteP
    | with_reducible apply ok_elim | with_reducible apply ok_elimP | with_reducible apply modFlash_ok
    | with_reducible apply order_ok | with_reducible apply useHppr_ok | ((with_reducible apply modMem_ok); · intro m; rfl)
    | ((with_reducible apply modMem_ok_wf); · intro m w; rfl) | with_reducible refine each_ok (fun _ _ h => ?_) ?_ | split

theorem startStep14_ok (s : State) (k : WakeKind) {orig : State} (ok0 : Ok orig s) :
    Ok orig (startStep14 s k) := by
  unfold startStep14
  repeat' first
    | with_reducible assumption | intro _ | dsimp only | with_reducible apply ok_ite | with_reducible apply ok_iteP
    | with_reducible apply ok_elim | with_reducible apply ok_elimP | with_reducible apply modRst_ok
    | with_reducible apply bootLoad_ok | split

theorem loadWear_ok (s : State) {orig : State} (ok0 : Ok orig s) :
    Ok orig (loadWear s) := by
  unfold loadWear
  repeat' first
    | with_reducible assumption | intro _ | dsimp only | with_reducible apply ok_ite | with_reducible apply ok_iteP
    | with_reducible apply ok_elim | with_reducible apply ok_elimP | with_reducible apply modGln_ok | split

theorem warmInstall_ok (s : State) {orig : State} (ok0 : Ok orig s) :
    Ok orig (warmInstall s) := by
  unfold warmInstall
  repeat' first
    | with_reducible assumption | intro _ | dsimp only | with_reducible apply ok_ite | with_reducible apply ok_iteP
    | with_reducible apply ok_elim | with_reducible apply ok_elimP | with_reducible apply install_ok
    | with_reducible apply finishWake_ok | with_reducible apply endJob_ok | split

theorem hubStepDone_ok (s : State) (info : WakeInfo) {orig : State} (ok0 : Ok orig s) :
    Ok orig (hubStepDone s info) := by
  unfold hubStepDone
  repeat' first
    | with_reducible assumption | intro _ | dsimp only | with_reducible apply ok_ite | with_reducible apply ok_iteP
    | with_reducible apply ok_elim | with_reducible apply ok_elimP | with_reducible apply modRst_ok
    | with_reducible apply powerGood_ok | with_reducible apply hubStep_ok | with_reducible apply startStage2_ok
    | with_reducible apply loadWear_ok | split

theorem wakeDone_ok (s : State) (n : Nat) (info : WakeInfo) {orig : State} (ok0 : Ok orig s) :
    Ok orig (wakeDone s n info) := by
  unfold wakeDone
  repeat' first
    | with_reducible assumption | intro _ | dsimp only | with_reducible apply ok_ite | with_reducible apply ok_iteP
    | with_reducible apply ok_elim | with_reducible apply ok_elimP | with_reducible apply dieStepDone_ok
    | with_reducible apply repairStacks_ok | with_reducible apply startStep14_ok | with_reducible apply warmInstall_ok
    | with_reducible apply hubStepDone_ok | split

theorem execWakeStepDone_ok (die : Die) (info : WakeInfo) (s : State) : ∀ t, execWakeStepDone die info s = .next t → Ok s t := by
  intro t h
  have e : t = _ := (Host.Outcome.next.inj h).symm
  rw [e]; clear e h
  have ok0 : Ok s s := ok_refl _
  repeat' first
    | with_reducible assumption | intro _ | dsimp only | with_reducible apply ok_ite | with_reducible apply ok_iteP
    | with_reducible apply ok_elim | with_reducible apply ok_elimP | with_reducible apply wakeDone_ok | split

theorem dieTimeout_ok (s : State) (n : Nat) {orig : State} (ok0 : Ok orig s) :
    Ok orig (dieTimeout s n) := by
  unfold dieTimeout
  repeat' first
    | with_reducible assumption | intro _ | dsimp only | with_reducible apply ok_ite | with_reducible apply ok_iteP
    | with_reducible apply ok_elim | with_reducible apply ok_elimP | with_reducible apply modDie_ok
    | with_reducible apply stepFailed_ok | with_reducible apply settleStage2_ok | with_reducible apply failStacks_ok
    | with_reducible apply stageTwoFail_ok | split

theorem wakeTimeout_ok (s : State) (n : Nat) {orig : State} (ok0 : Ok orig s) :
    Ok orig (wakeTimeout s n) := by
  unfold wakeTimeout
  repeat' first
    | with_reducible assumption | intro _ | dsimp only | with_reducible apply ok_ite | with_reducible apply ok_iteP
    | with_reducible apply ok_elim | with_reducible apply ok_elimP | with_reducible apply stageOneFail_ok
    | with_reducible apply stepFailed_ok | with_reducible apply repairStacks_ok | with_reducible apply startStep14_ok
    | with_reducible apply dieTimeout_ok | split

theorem execWakeStepTimeout_ok (die : Die) (s : State) : ∀ t, execWakeStepTimeout die s = .next t → Ok s t := by
  intro t h
  have e : t = _ := (Host.Outcome.next.inj h).symm
  rw [e]; clear e h
  have ok0 : Ok s s := ok_refl _
  repeat' first
    | with_reducible assumption | intro _ | dsimp only | with_reducible apply ok_ite | with_reducible apply ok_iteP
    | with_reducible apply ok_elim | with_reducible apply ok_elimP | with_reducible apply wakeTimeout_ok | split

theorem wakeRetry_ok (s : State) (n : Nat) {orig : State} (ok0 : Ok orig s) :
    Ok orig (wakeRetry s n) := by
  unfold wakeRetry
  repeat' first
    | with_reducible assumption | intro _ | dsimp only | with_reducible apply ok_ite | with_reducible apply ok_iteP
    | with_reducible apply ok_elim | with_reducible apply ok_elimP | with_reducible apply modRst_ok
    | with_reducible apply startDie_ok | split

theorem execWakeRetryRestart_ok (die : Die) (s : State) : ∀ t, execWakeRetryRestart die s = .next t → Ok s t := by
  intro t h
  have e : t = _ := (Host.Outcome.next.inj h).symm
  rw [e]; clear e h
  have ok0 : Ok s s := ok_refl _
  repeat' first
    | with_reducible assumption | intro _ | dsimp only | with_reducible apply ok_ite | with_reducible apply ok_iteP
    | with_reducible apply ok_elim | with_reducible apply ok_elimP | with_reducible apply wakeRetry_ok | split

theorem dieRailFault_ok (s : State) (n : Nat) {orig : State} (ok0 : Ok orig s) :
    Ok orig (dieRailFault s n) := by
  unfold dieRailFault
  repeat' first
    | with_reducible assumption | intro _ | dsimp only | with_reducible apply ok_ite | with_reducible apply ok_iteP
    | with_reducible apply ok_elim | with_reducible apply ok_elimP | with_reducible apply event_ok
    | with_reducible apply dieDown_ok | with_reducible apply railsOff_ok | with_reducible apply modDie_ok
    | with_reducible apply sliceLeaves_ok | with_reducible apply failStacks_ok | with_reducible apply dieRailsOff_ok | split

theorem hubRailFault_ok (s : State) (d : Nat) {orig : State} (ok0 : Ok orig s) :
    Ok orig (hubRailFault s d) := by
  unfold hubRailFault
  repeat' first
    | with_reducible assumption | intro _ | dsimp only | with_reducible apply ok_ite | with_reducible apply ok_iteP
    | with_reducible apply ok_elim | with_reducible apply ok_elimP | with_reducible apply modRst_ok
    | with_reducible apply railsLost_ok | split

theorem railFaultNow_ok (s : State) (d : Nat) {orig : State} (ok0 : Ok orig s) :
    Ok orig (railFaultNow s d) := by
  unfold railFaultNow
  repeat' first
    | with_reducible assumption | intro _ | dsimp only | with_reducible apply ok_ite | with_reducible apply ok_iteP
    | with_reducible apply ok_elim | with_reducible apply ok_elimP | with_reducible apply stageOneFail_ok
    | with_reducible apply stageTwoFail_ok | with_reducible apply dieRailFault_ok | with_reducible apply hubRailFault_ok | split

theorem railFault_ok (s : State) (d lowNs : Nat) {orig : State} (ok0 : Ok orig s) :
    Ok orig (railFault s d lowNs) := by
  unfold railFault
  repeat' first
    | with_reducible assumption | intro _ | dsimp only | with_reducible apply ok_ite | with_reducible apply ok_iteP
    | with_reducible apply ok_elim | with_reducible apply ok_elimP | with_reducible apply drawn_ok
    | with_reducible apply railFaultNow_ok | split

theorem pgLevel_ok (s : State) (d : Nat) (high : Bool) {orig : State} (ok0 : Ok orig s) :
    Ok orig (pgLevel s d high) := by
  unfold pgLevel
  repeat' first
    | with_reducible assumption | intro _ | dsimp only | with_reducible apply ok_ite | with_reducible apply ok_iteP
    | with_reducible apply ok_elim | with_reducible apply ok_elimP | with_reducible apply modRst_ok | split

theorem execRailFault_ok (d : Fin 64) (pg : PgChange) (s : State) : ∀ t, execRailFault d pg s = .next t → Ok s t := by
  intro t h
  have e : t = _ := (Host.Outcome.next.inj h).symm
  rw [e]; clear e h
  have ok0 : Ok s s := ok_refl _
  repeat' first
    | with_reducible assumption | intro _ | dsimp only | with_reducible apply ok_ite | with_reducible apply ok_iteP
    | with_reducible apply ok_elim | with_reducible apply ok_elimP | with_reducible apply railFault_ok
    | with_reducible apply pgLevel_ok | split

theorem writeRstCtrl_ok (s : State) (fn : Nat) (v : Nat) {orig : State} (ok0 : Ok orig s) :
    Ok orig (writeRstCtrl s fn v) := by
  unfold writeRstCtrl
  repeat' first
    | with_reducible assumption | intro _ | dsimp only | with_reducible apply ok_ite | with_reducible apply ok_iteP
    | with_reducible apply ok_elim | with_reducible apply ok_elimP | with_reducible apply dieReset_ok
    | with_reducible apply warmStart_ok | with_reducible apply abandonJob_ok | split

theorem execRstCtrlWarm_ok (fn : Fn) (value : W32) (s : State) : ∀ t, execRstCtrlWarm fn value s = .next t → Ok s t := by
  intro t h
  have e : t = _ := (Host.Outcome.next.inj h).symm
  rw [e]; clear e h
  have ok0 : Ok s s := ok_refl _
  repeat' first
    | with_reducible assumption | intro _ | dsimp only | with_reducible apply ok_ite | with_reducible apply ok_iteP
    | with_reducible apply ok_elim | with_reducible apply ok_elimP | with_reducible apply hostAccess_ok
    | with_reducible apply writeRstCtrl_ok | split

theorem execRstCtrlDie_ok (fn : Fn) (value : W32) (s : State) : ∀ t, execRstCtrlDie fn value s = .next t → Ok s t := by
  intro t h
  have e : t = _ := (Host.Outcome.next.inj h).symm
  rw [e]; clear e h
  have ok0 : Ok s s := ok_refl _
  repeat' first
    | with_reducible assumption | intro _ | dsimp only | with_reducible apply ok_ite | with_reducible apply ok_iteP
    | with_reducible apply ok_elim | with_reducible apply ok_elimP | with_reducible apply hostAccess_ok
    | with_reducible apply writeRstCtrl_ok | split

theorem execDieHangTimeout_ok (die : Die) (s : State) : ∀ t, execDieHangTimeout die s = .next t → Ok s t := by
  intro t h
  have e : t = _ := (Host.Outcome.next.inj h).symm
  rw [e]; clear e h
  have ok0 : Ok s s := ok_refl _
  repeat' first
    | with_reducible assumption | intro _ | dsimp only | with_reducible apply ok_ite | with_reducible apply ok_iteP
    | with_reducible apply ok_elim | with_reducible apply ok_elimP | with_reducible apply dieReload_ok | split

theorem execHubWatchdogKick_ok (s : State) : ∀ t, execHubWatchdogKick s = .next t → Ok s t := by
  intro t h
  have e : t = _ := (Host.Outcome.next.inj h).symm
  rw [e]; clear e h
  have ok0 : Ok s s := ok_refl _
  repeat' first
    | with_reducible assumption | intro _ | dsimp only | with_reducible apply ok_ite | with_reducible apply ok_iteP
    | with_reducible apply ok_elim | with_reducible apply ok_elimP | split

theorem watchdogOut_ok (s : State) {orig : State} (ok0 : Ok orig s) :
    Ok orig (watchdogOut s) := by
  unfold watchdogOut
  repeat' first
    | with_reducible assumption | intro _ | dsimp only | with_reducible apply ok_ite | with_reducible apply ok_iteP
    | with_reducible apply ok_elim | with_reducible apply ok_elimP | with_reducible apply modRst_ok | with_reducible apply emit_ok
    | with_reducible apply refreshGood_ok | split

theorem execHubWatchdogExpiry_ok (s : State) : ∀ t, execHubWatchdogExpiry s = .next t → Ok s t := by
  intro t h
  have e : t = _ := (Host.Outcome.next.inj h).symm
  rw [e]; clear e h
  have ok0 : Ok s s := ok_refl _
  repeat' first
    | with_reducible assumption | intro _ | dsimp only | with_reducible apply ok_ite | with_reducible apply ok_iteP
    | with_reducible apply ok_elim | with_reducible apply ok_elimP | with_reducible apply watchdogOut_ok | split

theorem abandonUpstream_ok (s : State) (fn : Nat) {orig : State} (ok0 : Ok orig s) :
    Ok orig (abandonUpstream s fn) := by
  unfold abandonUpstream
  repeat' first
    | with_reducible assumption | intro _ | dsimp only | with_reducible apply ok_ite | with_reducible apply ok_iteP
    | with_reducible apply ok_elim | with_reducible apply ok_elimP | with_reducible apply upstream_ok
    | with_reducible apply abandonUp_ok | with_reducible apply failFill_ok | with_reducible refine each_ok (fun _ _ h => ?_) ?_
    | split

theorem resetFnRegs_ok (s : State) (fn : Nat) {orig : State} (ok0 : Ok orig s) :
    Ok orig (resetFnRegs s fn) := by
  unfold resetFnRegs
  repeat' first
    | with_reducible assumption | intro _ | dsimp only | with_reducible apply ok_ite | with_reducible apply ok_iteP
    | with_reducible apply ok_elim | with_reducible apply ok_elimP | with_reducible apply modTmp_ok
    | with_reducible apply modSrv_ok | with_reducible apply modTrl_ok | with_reducible apply modTel_ok
    | with_reducible apply modHif_ok | split

theorem flr_ok (s : State) (fn : Nat) {orig : State} (ok0 : Ok orig s) :
    Ok orig (flr s fn) := by
  unfold flr
  repeat' first
    | with_reducible assumption | intro _ | dsimp only | with_reducible apply ok_ite | with_reducible apply ok_iteP
    | with_reducible apply ok_elim | with_reducible apply ok_elimP | with_reducible apply abortDma_ok
    | with_reducible apply setCause_ok | with_reducible apply partReset_ok | with_reducible apply abandonJob_ok
    | with_reducible apply abandonUpstream_ok | with_reducible apply resetFnRegs_ok
    | with_reducible refine each_ok (fun _ _ h => ?_) ?_ | split

theorem execFunctionLevelReset_ok (fn : Fn) (s : State) : ∀ t, execFunctionLevelReset fn s = .next t → Ok s t := by
  intro t h
  have e : t = _ := (Host.Outcome.next.inj h).symm
  rw [e]; clear e h
  have ok0 : Ok s s := ok_refl _
  repeat' first
    | with_reducible assumption | intro _ | dsimp only | with_reducible apply ok_ite | with_reducible apply ok_iteP
    | with_reducible apply ok_elim | with_reducible apply ok_elimP | with_reducible apply flr_ok | split

/-! ## Machine/BackgroundCmds.lean -/

theorem patrolPoison_ok (s : State) (line : Nat) (found : List Burst) {orig : State} (ok0 : Ok orig s) : Ok orig (patrolPoison s line found) :=
  modMem_ok_wf (fun m w => foldl_wf _ (fun m k w => foldl_wf _ (fun m b w => by split <;> first | exact setPoison_wf _ _ _ w | exact w) _ _ w) _ _ w) ok0

theorem patrolAdvance_ok (s : State) (t : Nat) {orig : State} (ok0 : Ok orig s) :
    Ok orig (patrolAdvance s t) := by
  unfold patrolAdvance
  repeat' first
    | with_reducible assumption | intro _ | dsimp only | with_reducible apply ok_ite | with_reducible apply ok_iteP
    | with_reducible apply ok_elim | with_reducible apply ok_elimP | with_reducible apply modGln_ok | split

theorem patrolVisit_ok (s : State) (x : Nat) (found : List Burst) {orig : State} (ok0 : Ok orig s) :
    Ok orig (patrolVisit s x found) := by
  unfold patrolVisit
  repeat' first
    | with_reducible assumption | intro _ | dsimp only | with_reducible apply ok_ite | with_reducible apply ok_iteP
    | with_reducible apply ok_elim | with_reducible apply ok_elimP | with_reducible apply modGln_ok
    | with_reducible apply eccCount_ok | with_reducible apply patrolPoison_ok | with_reducible apply patrolAdvance_ok | split

theorem execStackPatrol_ok (x : Fin 512) (bursts : List Burst) (s : State) : ∀ t, execStackPatrol x bursts s = .next t → Ok s t := by
  intro t h
  have e : t = _ := (Host.Outcome.next.inj h).symm
  rw [e]; clear e h
  have ok0 : Ok s s := ok_refl _
  repeat' first
    | with_reducible assumption | intro _ | dsimp only | with_reducible apply ok_ite | with_reducible apply ok_iteP
    | with_reducible apply ok_elim | with_reducible apply ok_elimP | with_reducible apply patrolVisit_ok | split

theorem patrolLine_ok (finds : List (Nat × GrEcc)) (s : State) (l : GLine) {orig : State} (ok0 : Ok orig s) :
    Ok orig (patrolLine finds s l) := by
  unfold patrolLine
  repeat' first
    | with_reducible assumption | intro _ | dsimp only | with_reducible apply ok_ite | with_reducible apply ok_iteP
    | with_reducible apply ok_elim | with_reducible apply ok_elimP | with_reducible apply countGr_ok
    | with_reducible apply lineError_ok | split

theorem patrolSetNow_ok (s : State) (n : Nat) (finds : List (Nat × GrEcc)) {orig : State} (ok0 : Ok orig s) :
    Ok orig (patrolSetNow s n finds) := by
  unfold patrolSetNow
  repeat' first
    | with_reducible assumption | intro _ | dsimp only | with_reducible apply ok_ite | with_reducible apply ok_iteP
    | with_reducible apply ok_elim | with_reducible apply ok_elimP | with_reducible apply modGln_ok
    | with_reducible apply modSlice_ok | with_reducible apply patrolLine_ok | with_reducible refine each_ok (fun _ _ h => ?_) ?_
    | split

theorem execGranaryPatrol_ok (slice : Die) (finds : List (Nat × GrEcc)) (s : State) : ∀ t, execGranaryPatrol slice finds s = .next t → Ok s t := by
  intro t h
  have e : t = _ := (Host.Outcome.next.inj h).symm
  rw [e]; clear e h
  have ok0 : Ok s s := ok_refl _
  repeat' first
    | with_reducible assumption | intro _ | dsimp only | with_reducible apply ok_ite | with_reducible apply ok_iteP
    | with_reducible apply ok_elim | with_reducible apply ok_elimP | with_reducible apply patrolSetNow_ok | split

theorem execPhyRetrainPass_ok (s : State) : ∀ t, execPhyRetrainPass s = .next t → Ok s t := by
  intro t h
  have e : t = _ := (Host.Outcome.next.inj h).symm
  rw [e]; clear e h
  have ok0 : Ok s s := ok_refl _
  repeat' first
    | with_reducible assumption | intro _ | dsimp only | with_reducible apply ok_ite | with_reducible apply ok_iteP
    | with_reducible apply ok_elim | with_reducible apply ok_elimP | with_reducible apply startRetrain_ok | split

theorem execPhyDriftCheck_ok (exceeds : Bool) (s : State) : ∀ t, execPhyDriftCheck exceeds s = .next t → Ok s t := by
  intro t h
  have e : t = _ := (Host.Outcome.next.inj h).symm
  rw [e]; clear e h
  have ok0 : Ok s s := ok_refl _
  repeat' first
    | with_reducible assumption | intro _ | dsimp only | with_reducible apply ok_ite | with_reducible apply ok_iteP
    | with_reducible apply ok_elim | with_reducible apply ok_elimP | with_reducible apply startRetrain_ok | split

theorem putRecord_ok (s : State) (fn : Nat) (r : TelRecord) {orig : State} (ok0 : Ok orig s) :
    Ok orig (putRecord s fn r) := by
  unfold putRecord
  repeat' first
    | with_reducible assumption | intro _ | dsimp only | with_reducible apply ok_ite | with_reducible apply ok_iteP
    | with_reducible apply ok_elim | with_reducible apply ok_elimP | with_reducible apply modTel_ok | with_reducible apply emit_ok
    | with_reducible apply signal_ok | split

theorem writeTelemetry_ok (s : State) (watts : Nat) {orig : State} (ok0 : Ok orig s) :
    Ok orig (writeTelemetry s watts) := by
  unfold writeTelemetry
  repeat' first
    | with_reducible assumption | intro _ | dsimp only | with_reducible apply ok_ite | with_reducible apply ok_iteP
    | with_reducible apply ok_elim | with_reducible apply ok_elimP | with_reducible apply modPwr_ok
    | with_reducible apply modTel_ok | with_reducible apply putRecord_ok | with_reducible refine each_ok (fun _ _ h => ?_) ?_
    | split

theorem execTelemetryWrite_ok (watts : Nat) (s : State) : ∀ t, execTelemetryWrite watts s = .next t → Ok s t := by
  intro t h
  have e : t = _ := (Host.Outcome.next.inj h).symm
  rw [e]; clear e h
  have ok0 : Ok s s := ok_refl _
  repeat' first
    | with_reducible assumption | intro _ | dsimp only | with_reducible apply ok_ite | with_reducible apply ok_iteP
    | with_reducible apply ok_elim | with_reducible apply ok_elimP | with_reducible apply writeTelemetry_ok | split

/-! ## Machine/EngineCmds.lean -/

theorem execSlotStart_ok (step slot : Nat) (actions : List SlotAction) (s : State) : ∀ t, execSlotStart step slot actions s = .next t → Ok s t := by
  intro t h
  have e : t = _ := (Host.Outcome.next.inj h).symm
  rw [e]; clear e h
  have ok0 : Ok s s := ok_refl _
  repeat' first
    | with_reducible assumption | intro _ | dsimp only | with_reducible apply ok_ite | with_reducible apply ok_iteP
    | with_reducible apply ok_elim | with_reducible apply ok_elimP | with_reducible apply slotStart_ok
    | with_reducible apply settle_ok | split

theorem execDescriptorRead_ok (q : Fin 32) (s : State) : ∀ t, execDescriptorRead q s = .next t → Ok s t := by
  intro t h
  have e : t = _ := (Host.Outcome.next.inj h).symm
  rw [e]; clear e h
  have ok0 : Ok s s := ok_refl _
  repeat' first
    | with_reducible assumption | intro _ | dsimp only | with_reducible apply ok_ite | with_reducible apply ok_iteP
    | with_reducible apply ok_elim | with_reducible apply ok_elimP | with_reducible apply postOnce_ok
    | with_reducible apply settle_ok | split

theorem execBar2Read_ok (fn : Fn) (off len : Nat) (s : State) : ∀ t, execBar2Read fn off len s = .next t → Ok s t := by
  intro t h
  have e : t = _ := (Host.Outcome.next.inj h).symm
  rw [e]; clear e h
  have ok0 : Ok s s := ok_refl _
  repeat' first
    | with_reducible assumption | intro _ | dsimp only | with_reducible apply ok_ite | with_reducible apply ok_iteP
    | with_reducible apply ok_elim | with_reducible apply ok_elimP | with_reducible apply hostAccess_ok
    | with_reducible apply bar2Load_ok | with_reducible apply settle_ok | split

theorem execDmaDone_ok (e : Fin 16) (data : List Byte) (hostErr : Bool) (s : State) : ∀ t, execDmaDone e data hostErr s = .next t → Ok s t := by
  intro t h
  have e : t = _ := (Host.Outcome.next.inj h).symm
  rw [e]; clear e h
  have ok0 : Ok s s := ok_refl _
  repeat' first
    | with_reducible assumption | intro _ | dsimp only | with_reducible apply ok_ite | with_reducible apply ok_iteP
    | with_reducible apply ok_elim | with_reducible apply ok_elimP | with_reducible apply dmaFinish_ok
    | with_reducible apply settle_ok | split

theorem execUpstreamCompletion_ok (tag : Nat) (data : List Byte) (s : State) : ∀ t, execUpstreamCompletion tag data s = .next t → Ok s t := by
  intro t h
  have e : t = _ := (Host.Outcome.next.inj h).symm
  rw [e]; clear e h
  have ok0 : Ok s s := ok_refl _
  repeat' first
    | with_reducible assumption | intro _ | dsimp only | with_reducible apply ok_ite | with_reducible apply ok_iteP
    | with_reducible apply ok_elim | with_reducible apply ok_elimP | with_reducible apply upData_ok
    | with_reducible apply settle_ok | split

theorem execRtkWalkGo_ok (fn : Fn) (s : State) : ∀ t, execRtkWalkGo fn s = .next t → Ok s t := by
  intro t h
  have e : t = _ := (Host.Outcome.next.inj h).symm
  rw [e]; clear e h
  have ok0 : Ok s s := ok_refl _
  repeat' first
    | with_reducible assumption | intro _ | dsimp only | with_reducible apply ok_ite | with_reducible apply ok_iteP
    | with_reducible apply ok_elim | with_reducible apply ok_elimP | with_reducible apply hostAccess_ok
    | with_reducible apply walkGo_ok | with_reducible apply settle_ok | split

theorem execWalkNodeRead_ok (slot : Fin 64) (s : State) : ∀ t, execWalkNodeRead slot s = .next t → Ok s t := by
  intro t h
  have e : t = _ := (Host.Outcome.next.inj h).symm
  rw [e]; clear e h
  have ok0 : Ok s s := ok_refl _
  repeat' first
    | with_reducible assumption | intro _ | dsimp only | with_reducible apply ok_ite | with_reducible apply ok_iteP
    | with_reducible apply ok_elim | with_reducible apply ok_elimP | with_reducible apply postOnce_ok
    | with_reducible apply settle_ok | split

theorem execRootstockWalkDone_ok (slot : Fin 64) (s : State) : ∀ t, execRootstockWalkDone slot s = .next t → Ok s t := by
  intro t h
  have e : t = _ := (Host.Outcome.next.inj h).symm
  rw [e]; clear e h
  have ok0 : Ok s s := ok_refl _
  repeat' first
    | with_reducible assumption | intro _ | dsimp only | with_reducible apply ok_ite | with_reducible apply ok_iteP
    | with_reducible apply ok_elim | with_reducible apply ok_elimP | with_reducible apply postOnce_ok
    | with_reducible apply walkDone_ok | with_reducible apply settle_ok | split

theorem execIngestSnapshot_ok (step : Nat) (s : State) : ∀ t, execIngestSnapshot step s = .next t → Ok s t := by
  intro t h
  have e : t = _ := (Host.Outcome.next.inj h).symm
  rw [e]; clear e h
  have ok0 : Ok s s := ok_refl _
  repeat' first
    | with_reducible assumption | intro _ | dsimp only | with_reducible apply ok_ite | with_reducible apply ok_iteP
    | with_reducible apply ok_elim | with_reducible apply ok_elimP | with_reducible apply takeSnapshot_ok
    | with_reducible apply settle_ok | split

theorem execIcacheFill_ok (tile : Tile) (slot : GSlot) (words : Nat) (s : State) : ∀ t, execIcacheFill tile slot words s = .next t → Ok s t := by
  intro t h
  have e : t = _ := (Host.Outcome.next.inj h).symm
  rw [e]; clear e h
  have ok0 : Ok s s := ok_refl _
  repeat' first
    | with_reducible assumption | intro _ | dsimp only | with_reducible apply ok_ite | with_reducible apply ok_iteP
    | with_reducible apply ok_elim | with_reducible apply ok_elimP | with_reducible apply postOnce_ok
    | with_reducible apply fetch_ok | with_reducible apply settle_ok | split

theorem execGranaryRead_ok (req : Nat) (ecc : GrEcc) (s : State) : ∀ t, execGranaryRead req ecc s = .next t → Ok s t := by
  intro t h
  have e : t = _ := (Host.Outcome.next.inj h).symm
  rw [e]; clear e h
  have ok0 : Ok s s := ok_refl _
  repeat' first
    | with_reducible assumption | intro _ | dsimp only | with_reducible apply ok_ite | with_reducible apply ok_iteP
    | with_reducible apply ok_elim | with_reducible apply ok_elimP | with_reducible apply granaryRead_ok
    | with_reducible apply settle_ok | split

theorem execGranaryFill_ok (line : Nat) (bursts : List Burst) (s : State) : ∀ t, execGranaryFill line bursts s = .next t → Ok s t := by
  intro t h
  have e : t = _ := (Host.Outcome.next.inj h).symm
  rw [e]; clear e h
  have ok0 : Ok s s := ok_refl _
  repeat' first
    | with_reducible assumption | intro _ | dsimp only | with_reducible apply ok_ite | with_reducible apply ok_iteP
    | with_reducible apply ok_elim | with_reducible apply ok_elimP | with_reducible apply granaryFill_ok
    | with_reducible apply settle_ok | split

theorem execGranaryStore_ok (req : Nat) (s : State) : ∀ t, execGranaryStore req s = .next t → Ok s t := by
  intro t h
  have e : t = _ := (Host.Outcome.next.inj h).symm
  rw [e]; clear e h
  have ok0 : Ok s s := ok_refl _
  repeat' first
    | with_reducible assumption | intro _ | dsimp only | with_reducible apply ok_ite | with_reducible apply ok_iteP
    | with_reducible apply ok_elim | with_reducible apply ok_elimP | with_reducible apply granaryStore_ok
    | with_reducible apply settle_ok | split

theorem execWbEntryGrant_ok (x : Fin 512) (found : List Burst) (s : State) : ∀ t, execWbEntryGrant x found s = .next t → Ok s t := by
  intro t h
  have e : t = _ := (Host.Outcome.next.inj h).symm
  rw [e]; clear e h
  have ok0 : Ok s s := ok_refl _
  repeat' first
    | with_reducible assumption | intro _ | dsimp only | with_reducible apply ok_ite | with_reducible apply ok_iteP
    | with_reducible apply ok_elim | with_reducible apply ok_elimP | with_reducible apply wbGrant_ok
    | with_reducible apply settle_ok | split

theorem execParityRetry_ok (x : Fin 512) (line : Nat) (kind : ParityKind) (pass : Bool) (s : State) : ∀ t, execParityRetry x line kind pass s = .next t → Ok s t := by
  intro t h
  have e : t = _ := (Host.Outcome.next.inj h).symm
  rw [e]; clear e h
  have ok0 : Ok s s := ok_refl _
  repeat' first
    | with_reducible assumption | intro _ | dsimp only | with_reducible apply ok_ite | with_reducible apply ok_iteP
    | with_reducible apply ok_elim | with_reducible apply ok_elimP | with_reducible apply settle_ok
    | with_reducible apply parityRetry_ok | split

/-! ## Machine/FabricCmds.lean -/

theorem execFabricFlitArrival_ok (node port : Nat) (flit : FabFlit) (s : State) : ∀ t, execFabricFlitArrival node port flit s = .next t → Ok s t := by
  intro t h
  have e : t = _ := (Host.Outcome.next.inj h).symm
  rw [e]; clear e h
  have ok0 : Ok s s := ok_refl _
  repeat' first
    | with_reducible assumption | intro _ | dsimp only | with_reducible apply ok_ite | with_reducible apply ok_iteP
    | with_reducible apply ok_elim | with_reducible apply ok_elimP | with_reducible apply modFab_ok
    | with_reducible apply takeBuffer_ok | with_reducible apply moveAll_ok | split

theorem execIngCreditGrant_ok (slice : Die) (s : State) : ∀ t, execIngCreditGrant slice s = .next t → Ok s t := by
  intro t h
  have e : t = _ := (Host.Outcome.next.inj h).symm
  rw [e]; clear e h
  have ok0 : Ok s s := ok_refl _
  repeat' first
    | with_reducible assumption | intro _ | dsimp only | with_reducible apply ok_ite | with_reducible apply ok_iteP
    | with_reducible apply ok_elim | with_reducible apply ok_elimP | with_reducible apply modGrn_ok
    | with_reducible apply modFab_ok | split

theorem execThresherInput_ok (red node : Nat) (input : Fin 4) (flit : RedFlit) (s : State) : ∀ t, execThresherInput red node input flit s = .next t → Ok s t := by
  intro t h
  have e : t = _ := (Host.Outcome.next.inj h).symm
  rw [e]; clear e h
  have ok0 : Ok s s := ok_refl _
  repeat' first
    | with_reducible assumption | intro _ | dsimp only | with_reducible apply ok_ite | with_reducible apply ok_iteP
    | with_reducible apply ok_elim | with_reducible apply ok_elimP | with_reducible apply take_ok | with_reducible apply modRed_ok
    | with_reducible apply redFault_ok | split

theorem execThresherEmit_ok (red node : Nat) (s : State) : ∀ t, execThresherEmit red node s = .next t → Ok s t := by
  intro t h
  have e : t = _ := (Host.Outcome.next.inj h).symm
  rw [e]; clear e h
  have ok0 : Ok s s := ok_refl _
  repeat' first
    | with_reducible assumption | intro _ | dsimp only | with_reducible apply ok_ite | with_reducible apply ok_iteP
    | with_reducible apply ok_elim | with_reducible apply ok_elimP | with_reducible apply emitNode_ok | split

theorem disagree_ok (s : State) (n : Nat) (beatBad winBad fixedBad : Bool) {orig : State} (ok0 : Ok orig s) :
    Ok orig (disagree s n beatBad winBad fixedBad) := by
  unfold disagree
  repeat' first
    | with_reducible assumption | intro _ | dsimp only | with_reducible apply ok_ite | with_reducible apply ok_iteP
    | with_reducible apply ok_elim | with_reducible apply ok_elimP | with_reducible apply modFabDie_ok
    | with_reducible apply dieReload_ok | split

theorem reported_ok (s : State) (n : Nat) {orig : State} (ok0 : Ok orig s) :
    Ok orig (State.reported s n) := by
  unfold State.reported
  repeat' first
    | with_reducible assumption | intro _ | dsimp only | with_reducible apply ok_ite | with_reducible apply ok_iteP
    | with_reducible apply ok_elim | with_reducible apply ok_elimP | with_reducible apply modFabDie_ok | split

theorem compareReport_ok (s : State) (n : Nat) {orig : State} (ok0 : Ok orig s) :
    Ok orig (compareReport s n) := by
  unfold compareReport
  repeat' first
    | with_reducible assumption | intro _ | dsimp only | with_reducible apply ok_ite | with_reducible apply ok_iteP
    | with_reducible apply ok_elim | with_reducible apply ok_elimP | with_reducible apply modFabDie_ok
    | with_reducible apply disagree_ok | with_reducible apply reported_ok | split

theorem execDieConsensusReport_ok (die : Die) (fixedCrc winCrc : Option W64) (beatNo : Option Nat) (s : State) : ∀ t, execDieConsensusReport die fixedCrc winCrc beatNo s = .next t → Ok s t := by
  intro t h
  have e : t = _ := (Host.Outcome.next.inj h).symm
  rw [e]; clear e h
  have ok0 : Ok s s := ok_refl _
  repeat' first
    | with_reducible assumption | intro _ | dsimp only | with_reducible apply ok_ite | with_reducible apply ok_iteP
    | with_reducible apply ok_elim | with_reducible apply ok_elimP | with_reducible apply modFabDie_ok
    | with_reducible apply compareReport_ok | split

theorem execDieReportTimeout_ok (die : Die) (s : State) : ∀ t, execDieReportTimeout die s = .next t → Ok s t := by
  intro t h
  have e : t = _ := (Host.Outcome.next.inj h).symm
  rw [e]; clear e h
  have ok0 : Ok s s := ok_refl _
  repeat' first
    | with_reducible assumption | intro _ | dsimp only | with_reducible apply ok_ite | with_reducible apply ok_iteP
    | with_reducible apply ok_elim | with_reducible apply ok_elimP | with_reducible apply disagree_ok
    | with_reducible apply reported_ok | split

theorem execDieReloadDone_ok (die : Die) (s : State) : ∀ t, execDieReloadDone die s = .next t → Ok s t := by
  intro t h
  have e : t = _ := (Host.Outcome.next.inj h).symm
  rw [e]; clear e h
  have ok0 : Ok s s := ok_refl _
  repeat' first
    | with_reducible assumption | intro _ | dsimp only | with_reducible apply ok_ite | with_reducible apply ok_iteP
    | with_reducible apply ok_elim | with_reducible apply ok_elimP | with_reducible apply modFabDie_ok | split

/-! ## Machine/HostCmds.lean -/

theorem execBar2Write_ok (fn : Fn) (off : Nat) (data : List Byte) (poisoned : Bool) (s : State) : ∀ t, execBar2Write fn off data poisoned s = .next t → Ok s t := by
  intro t h
  have e : t = _ := (Host.Outcome.next.inj h).symm
  rw [e]; clear e h
  have ok0 : Ok s s := ok_refl _
  repeat' first
    | with_reducible assumption | intro _ | dsimp only | with_reducible apply ok_ite | with_reducible apply ok_iteP
    | with_reducible apply ok_elim | with_reducible apply ok_elimP | with_reducible apply hostAccess_ok
    | with_reducible apply bar2Store_ok | split

theorem execUnsupportedRequest_ok (fn : Fn) (_kind : BadRequest) (s : State) : ∀ t, execUnsupportedRequest fn _kind s = .next t → Ok s t := by
  intro t h
  have e : t = _ := (Host.Outcome.next.inj h).symm
  rw [e]; clear e h
  have ok0 : Ok s s := ok_refl _
  repeat' first
    | with_reducible assumption | intro _ | dsimp only | with_reducible apply ok_ite | with_reducible apply ok_iteP
    | with_reducible apply ok_elim | with_reducible apply ok_elimP | with_reducible apply unsupportedReq_ok | split

theorem execBar2Resize_ok (fn : Fn) (log2GiB : Nat) (mse : Bool) (s : State) : ∀ t, execBar2Resize fn log2GiB mse s = .next t → Ok s t := by
  intro t h
  have e : t = _ := (Host.Outcome.next.inj h).symm
  rw [e]; clear e h
  have ok0 : Ok s s := ok_refl _
  repeat' first
    | with_reducible assumption | intro _ | dsimp only | with_reducible apply ok_ite | with_reducible apply ok_iteP
    | with_reducible apply ok_elim | with_reducible apply ok_elimP | with_reducible apply modFn_ok | split

theorem changeSriov_ok (s : State) (enable : Bool) (n : Nat) {orig : State} (ok0 : Ok orig s) :
    Ok orig (changeSriov s enable n) := by
  unfold changeSriov
  repeat' first
    | with_reducible assumption | intro _ | dsimp only | with_reducible apply ok_ite | with_reducible apply ok_iteP
    | with_reducible apply ok_elim | with_reducible apply ok_elimP | with_reducible apply modHif_ok
    | with_reducible apply drawn_ok | with_reducible apply partReset_ok | with_reducible refine each_ok (fun _ _ h => ?_) ?_
    | split

theorem execSriovConfigChange_ok (vfEnable : Bool) (numVfs : Fin 9) (s : State) : ∀ t, execSriovConfigChange vfEnable numVfs s = .next t → Ok s t := by
  intro t h
  have e : t = _ := (Host.Outcome.next.inj h).symm
  rw [e]; clear e h
  have ok0 : Ok s s := ok_refl _
  repeat' first
    | with_reducible assumption | intro _ | dsimp only | with_reducible apply ok_ite | with_reducible apply ok_iteP
    | with_reducible apply ok_elim | with_reducible apply ok_elimP | with_reducible apply changeSriov_ok | split

theorem dmaGo_ok (s : State) (e : Nat) {orig : State} (ok0 : Ok orig s) :
    Ok orig (dmaGo s e) := by
  unfold dmaGo
  repeat' first
    | with_reducible assumption | intro _ | dsimp only | with_reducible apply ok_ite | with_reducible apply ok_iteP
    | with_reducible apply ok_elim | with_reducible apply ok_elimP | with_reducible apply upstream_ok
    | with_reducible apply endDma_ok | with_reducible apply modDma_ok | split

theorem writeDmaCtrl_ok (s : State) (fn e v : Nat) {orig : State} (ok0 : Ok orig s) :
    Ok orig (writeDmaCtrl s fn e v) := by
  unfold writeDmaCtrl
  repeat' first
    | with_reducible assumption | intro _ | dsimp only | with_reducible apply ok_ite | with_reducible apply ok_iteP
    | with_reducible apply ok_elim | with_reducible apply ok_elimP | with_reducible apply modDma_ok
    | with_reducible apply dmaGo_ok | split

theorem execDmaStart_ok (fn : Fn) (e : Fin 16) (value : W32) (s : State) : ∀ t, execDmaStart fn e value s = .next t → Ok s t := by
  intro t h
  have e : t = _ := (Host.Outcome.next.inj h).symm
  rw [e]; clear e h
  have ok0 : Ok s s := ok_refl _
  repeat' first
    | with_reducible assumption | intro _ | dsimp only | with_reducible apply ok_ite | with_reducible apply ok_iteP
    | with_reducible apply ok_elim | with_reducible apply ok_elimP | with_reducible apply hostAccess_ok
    | with_reducible apply writeDmaCtrl_ok | split

theorem upTimeout_ok (s : State) (tag : Nat) {orig : State} (ok0 : Ok orig s) :
    Ok orig (upTimeout s tag) := by
  unfold upTimeout
  repeat' first
    | with_reducible assumption | intro _ | dsimp only | with_reducible apply ok_ite | with_reducible apply ok_iteP
    | with_reducible apply ok_elim | with_reducible apply ok_elimP | with_reducible apply emit_ok
    | with_reducible apply faultStep_ok | with_reducible apply failFill_ok | with_reducible apply endDma_ok
    | with_reducible apply dropUp_ok | split

theorem execCompletionTimeout_ok (tag : Nat) (s : State) : ∀ t, execCompletionTimeout tag s = .next t → Ok s t := by
  intro t h
  have e : t = _ := (Host.Outcome.next.inj h).symm
  rw [e]; clear e h
  have ok0 : Ok s s := ok_refl _
  repeat' first
    | with_reducible assumption | intro _ | dsimp only | with_reducible apply ok_ite | with_reducible apply ok_iteP
    | with_reducible apply ok_elim | with_reducible apply ok_elimP | with_reducible apply upTimeout_ok | split

theorem hotReset_ok (s : State) {orig : State} (ok0 : Ok orig s) :
    Ok orig (hotReset s) := by
  unfold hotReset
  repeat' first
    | with_reducible assumption | intro _ | dsimp only | with_reducible apply ok_ite | with_reducible apply ok_iteP
    | with_reducible apply ok_elim | with_reducible apply ok_elimP | with_reducible apply modHif_ok | with_reducible apply flr_ok
    | with_reducible refine each_ok (fun _ _ h => ?_) ?_ | split

theorem execHotReset_ok (s : State) : ∀ t, execHotReset s = .next t → Ok s t := by
  intro t h
  have e : t = _ := (Host.Outcome.next.inj h).symm
  rw [e]; clear e h
  have ok0 : Ok s s := ok_refl _
  repeat' first
    | with_reducible assumption | intro _ | dsimp only | with_reducible apply ok_ite | with_reducible apply ok_iteP
    | with_reducible apply ok_elim | with_reducible apply ok_elimP | with_reducible apply hotReset_ok | split

theorem execPcieLinkTrained_ok (rate : Fin 8) (width : Nat) (mode : LinkMode) (s : State) : ∀ t, execPcieLinkTrained rate width mode s = .next t → Ok s t := by
  intro t h
  have e : t = _ := (Host.Outcome.next.inj h).symm
  rw [e]; clear e h
  have ok0 : Ok s s := ok_refl _
  repeat' first
    | with_reducible assumption | intro _ | dsimp only | with_reducible apply ok_ite | with_reducible apply ok_iteP
    | with_reducible apply ok_elim | with_reducible apply ok_elimP | with_reducible apply modHif_ok
    | with_reducible apply sendUp_ok | split

theorem execHostPortLinkError_ok (kind : LinkError) (s : State) : ∀ t, execHostPortLinkError kind s = .next t → Ok s t := by
  intro t h
  have e : t = _ := (Host.Outcome.next.inj h).symm
  rw [e]; clear e h
  have ok0 : Ok s s := ok_refl _
  repeat' first
    | with_reducible assumption | intro _ | dsimp only | with_reducible apply ok_ite | with_reducible apply ok_iteP
    | with_reducible apply ok_elim | with_reducible apply ok_elimP | with_reducible apply emit_ok | split

theorem execD3hotTransition_ok (fn : Fn) (toD3 : Bool) (s : State) : ∀ t, execD3hotTransition fn toD3 s = .next t → Ok s t := by
  intro t h
  have e : t = _ := (Host.Outcome.next.inj h).symm
  rw [e]; clear e h
  have ok0 : Ok s s := ok_refl _
  repeat' first
    | with_reducible assumption | intro _ | dsimp only | with_reducible apply ok_ite | with_reducible apply ok_iteP
    | with_reducible apply ok_elim | with_reducible apply ok_elimP | with_reducible apply modFn_ok | split

/-! ## Machine/RegisterCmds.lean -/

theorem deliver_ok (s : State) (fn vec : Nat) {orig : State} (ok0 : Ok orig s) :
    Ok orig (deliver s fn vec) := by
  unfold deliver
  repeat' first
    | with_reducible assumption | intro _ | dsimp only | with_reducible apply ok_ite | with_reducible apply ok_iteP
    | with_reducible apply ok_elim | with_reducible apply ok_elimP | with_reducible apply modHif_ok
    | with_reducible apply signal_ok | split

theorem writeMsix_ok (s : State) (fn o v : Nat) {orig : State} (ok0 : Ok orig s) :
    Ok orig (writeMsix s fn o v) := by
  unfold writeMsix
  repeat' first
    | with_reducible assumption | intro _ | dsimp only | with_reducible apply ok_ite | with_reducible apply ok_iteP
    | with_reducible apply ok_elim | with_reducible apply ok_elimP | with_reducible apply modHif_ok
    | with_reducible apply deliver_ok | split

theorem writeCqCtrl_ok (s : State) (fn p v : Nat) {orig : State} (ok0 : Ok orig s) :
    Ok orig (writeCqCtrl s fn p v) := by
  unfold writeCqCtrl
  repeat' first
    | with_reducible assumption | intro _ | dsimp only | with_reducible apply ok_ite | with_reducible apply ok_iteP
    | with_reducible apply ok_elim | with_reducible apply ok_elimP | with_reducible apply modPart_ok
    | with_reducible apply writeQueueCfg_ok | split

theorem writeQueueReg_ok (s : State) (fn q : Nat) (f : Fin 32 → QueueCfg) {orig : State} (ok0 : Ok orig s) :
    Ok orig (writeQueueReg s fn q f) := by
  unfold writeQueueReg
  repeat' first
    | with_reducible assumption | intro _ | dsimp only | with_reducible apply ok_ite | with_reducible apply ok_iteP
    | with_reducible apply ok_elim | with_reducible apply ok_elimP | with_reducible apply writeQueueCfg_ok | split

theorem writeCqBase_ok (s : State) (fn p v : Nat) {orig : State} (ok0 : Ok orig s) :
    Ok orig (writeCqBase s fn p v) := by
  unfold writeCqBase
  repeat' first
    | with_reducible assumption | intro _ | dsimp only | with_reducible apply ok_ite | with_reducible apply ok_iteP
    | with_reducible apply ok_elim | with_reducible apply ok_elimP | with_reducible apply writeQueueCfg_ok | split

theorem writeSldCtrl_ok (s : State) (v : Nat) {orig : State} (ok0 : Ok orig s) :
    Ok orig (writeSldCtrl s v) := by
  unfold writeSldCtrl
  repeat' first
    | with_reducible assumption | intro _ | dsimp only | with_reducible apply ok_ite | with_reducible apply ok_iteP
    | with_reducible apply ok_elim | with_reducible apply ok_elimP | with_reducible apply modSld_ok
    | with_reducible apply startSld_ok | split

theorem writeTelCtrl_ok (s : State) (fn v : Nat) {orig : State} (ok0 : Ok orig s) :
    Ok orig (writeTelCtrl s fn v) := by
  unfold writeTelCtrl
  repeat' first
    | with_reducible assumption | intro _ | dsimp only | with_reducible apply ok_ite | with_reducible apply ok_iteP
    | with_reducible apply ok_elim | with_reducible apply ok_elimP | with_reducible apply modTel_ok | split

theorem writeHubA_ok (s : State) (fn : Nat) (r : Reg) (v : Nat) {orig : State} (ok0 : Ok orig s) :
    Ok orig (writeHubA s fn r v) := by
  unfold writeHubA
  repeat' first
    | with_reducible assumption | intro _ | dsimp only | with_reducible apply ok_ite | with_reducible apply ok_iteP
    | with_reducible apply ok_elim | with_reducible apply ok_elimP | with_reducible apply modSld_ok
    | with_reducible apply modFn_ok | with_reducible apply modDma_ok | with_reducible apply writeDmaCtrl_ok
    | with_reducible apply writeMsix_ok | with_reducible apply writeSldCtrl_ok | split

theorem writeHubB_ok (s : State) (fn : Nat) (r : Reg) (v : Nat) {orig : State} (ok0 : Ok orig s) :
    Ok orig (writeHubB s fn r v) := by
  unfold writeHubB
  repeat' first
    | with_reducible assumption | intro _ | dsimp only | with_reducible apply ok_ite | with_reducible apply ok_iteP
    | with_reducible apply ok_elim | with_reducible apply ok_elimP | with_reducible apply modBwr_ok
    | with_reducible apply modPwr_ok | with_reducible apply modPart_ok | with_reducible apply event_ok
    | with_reducible apply doorbellWrite_ok | with_reducible apply partReset_ok | with_reducible apply writeShare_ok
    | with_reducible apply writeC0Phase_ok | with_reducible apply writeC0Sheaves_ok | with_reducible apply writeCapHost_ok
    | with_reducible apply writeStateHost_ok | with_reducible apply writeRstCtrl_ok | with_reducible apply writeCqCtrl_ok
    | with_reducible apply writeQueueReg_ok | with_reducible apply writeCqBase_ok | split

theorem writeHubC_ok (s : State) (fn : Nat) (r : Reg) (v : Nat) {orig : State} (ok0 : Ok orig s) :
    Ok orig (writeHubC s fn r v) := by
  unfold writeHubC
  repeat' first
    | with_reducible assumption | intro _ | dsimp only | with_reducible apply ok_ite | with_reducible apply ok_iteP
    | with_reducible apply ok_elim | with_reducible apply ok_elimP | with_reducible apply modTrl_ok
    | with_reducible apply modGln_ok | with_reducible apply modTel_ok | with_reducible apply modTrlSlot_ok
    | with_reducible apply trlDenied_ok | with_reducible apply trlSetOwner_ok | with_reducible apply trlConfigure_ok
    | with_reducible apply trlPushTo_ok | with_reducible apply modSrvFn_ok | with_reducible apply ctxRead_ok
    | with_reducible apply ctxWrite_ok | with_reducible apply ctxTruncate_ok | with_reducible apply walkGo_ok
    | with_reducible apply writeTelCtrl_ok | split

theorem writeDie_ok (s : State) (fn : Nat) (r : Reg) (v : Nat) {orig : State} (ok0 : Ok orig s) :
    Ok orig (writeDie s fn r v) := by
  unfold writeDie
  repeat' first
    | with_reducible assumption | intro _ | dsimp only | with_reducible apply ok_ite | with_reducible apply ok_iteP
    | with_reducible apply ok_elim | with_reducible apply ok_elimP | with_reducible apply modTile_ok
    | with_reducible apply modStack_ok | with_reducible apply groupFault_ok | with_reducible apply modSlice_ok
    | with_reducible apply stageWindow_ok | with_reducible apply controlWindow_ok | with_reducible apply writeQuota_ok | split

theorem writeReg_ok (s : State) (fn : Nat) (r : Reg) (v : Nat) {orig : State} (ok0 : Ok orig s) :
    Ok orig (writeReg s fn r v) := by
  unfold writeReg
  repeat' first
    | with_reducible assumption | intro _ | dsimp only | with_reducible apply ok_ite | with_reducible apply ok_iteP
    | with_reducible apply ok_elim | with_reducible apply ok_elimP | with_reducible apply writeHubA_ok
    | with_reducible apply writeHubB_ok | with_reducible apply writeHubC_ok | with_reducible apply writeDie_ok | split

theorem writeWord_ok (s : State) (fn off v : Nat) {orig : State} (ok0 : Ok orig s) :
    Ok orig (writeWord s fn off v) := by
  unfold writeWord
  repeat' first
    | with_reducible assumption | intro _ | dsimp only | with_reducible apply ok_ite | with_reducible apply ok_iteP
    | with_reducible apply ok_elim | with_reducible apply ok_elimP | with_reducible apply writeReg_ok | split

theorem writeBar0_ok (s : State) (fn off size : Nat) (v : W64) {orig : State} (ok0 : Ok orig s) :
    Ok orig (writeBar0 s fn off size v) := by
  unfold writeBar0
  repeat' first
    | with_reducible assumption | intro _ | dsimp only | with_reducible apply ok_ite | with_reducible apply ok_iteP
    | with_reducible apply ok_elim | with_reducible apply ok_elimP | with_reducible apply barRange_ok
    | with_reducible apply writeReg_ok | with_reducible apply writeWord_ok | split

theorem execRegisterWrite_ok (fn : Fn) (off size : Nat) (value : W64) (s : State) : ∀ t, execRegisterWrite fn off size value s = .next t → Ok s t := by
  intro t h
  have e : t = _ := (Host.Outcome.next.inj h).symm
  rw [e]; clear e h
  have ok0 : Ok s s := ok_refl _
  repeat' first
    | with_reducible assumption | intro _ | dsimp only | with_reducible apply ok_ite | with_reducible apply ok_iteP
    | with_reducible apply ok_elim | with_reducible apply ok_elimP | with_reducible apply hostAccess_ok
    | with_reducible apply settle_ok | with_reducible apply writeBar0_ok | split

end Sys2Proof.Laws
end

