-- ==== Sys2Proof/Laws/OkTray.lean ====
section
/-! SUPPORT. What `Ok` says of the operations and commands of the tray and of its management: one lemma for each. -/

namespace Sys2Proof.Laws

open Sys2Proof Sys2Proof.Machine

/-! ## Machine/TrayOps.lean -/

theorem modSlot_ok (s : State) (k : Nat) (f : Slot → Slot) {orig : State} (ok0 : Ok orig s) :
    Ok orig (State.modSlot s k f) := by
  unfold State.modSlot
  repeat' first
    | with_reducible assumption | intro _ | dsimp only | with_reducible apply ok_ite | with_reducible apply ok_iteP
    | with_reducible apply ok_elim | with_reducible apply ok_elimP | ((with_reducible apply modTray_ok); · intro t; rfl) | split

theorem larkspur_ok (s : State) (f : State → State) {orig : State} (hf : ∀ s, Ok orig s → Ok orig (f s)) (ok0 : Ok orig s) :
    Ok orig (larkspur s f) := by
  unfold larkspur
  repeat' first
    | with_reducible assumption | intro _ | dsimp only | with_reducible apply ok_ite | with_reducible apply ok_iteP
    | with_reducible apply ok_elim | with_reducible apply ok_elimP | with_reducible apply hf | split

theorem slotOrder_ok (s : State) (k : Nat) (f : Orders → Orders) {orig : State} (ok0 : Ok orig s) :
    Ok orig (State.slotOrder s k f) := by
  unfold State.slotOrder
  repeat' first
    | with_reducible assumption | intro _ | dsimp only | with_reducible apply ok_ite | with_reducible apply ok_iteP
    | with_reducible apply ok_elim | with_reducible apply ok_elimP | with_reducible apply order_ok
    | with_reducible apply modSlot_ok | split

theorem tell_ok (s : State) (k : Nat) (o : Relay) {orig : State} (ok0 : Ok orig s) :
    Ok orig (State.tell s k o) := by
  unfold State.tell
  repeat' first
    | with_reducible assumption | intro _ | dsimp only | with_reducible apply ok_ite | with_reducible apply ok_iteP
    | with_reducible apply ok_elim | with_reducible apply ok_elimP | with_reducible apply emit_ok | split

theorem setBoardState_ok (s : State) (k : Nat) (v : PState) {orig : State} (ok0 : Ok orig s) :
    Ok orig (State.setBoardState s k v) := by
  unfold State.setBoardState
  repeat' first
    | with_reducible assumption | intro _ | dsimp only | with_reducible apply ok_ite | with_reducible apply ok_iteP
    | with_reducible apply ok_elim | with_reducible apply ok_elimP | with_reducible apply slotOrder_ok
    | with_reducible apply tell_ok | split

theorem setBoardCap_ok (s : State) (k w : Nat) {orig : State} (ok0 : Ok orig s) :
    Ok orig (State.setBoardCap s k w) := by
  unfold State.setBoardCap
  repeat' first
    | with_reducible assumption | intro _ | dsimp only | with_reducible apply ok_ite | with_reducible apply ok_iteP
    | with_reducible apply ok_elim | with_reducible apply ok_elimP | with_reducible apply boardCap_ok
    | with_reducible apply slotOrder_ok | with_reducible apply tell_ok
    | (rename_i e; have e1 := congrArg Prod.fst e; dsimp only at e1; subst e1; clear e) | split

theorem shedSlot_ok (s : State) (k : Nat) {orig : State} (ok0 : Ok orig s) :
    Ok orig (shedSlot s k) := by
  unfold shedSlot
  repeat' first
    | with_reducible assumption | intro _ | dsimp only | with_reducible apply ok_ite | with_reducible apply ok_iteP
    | with_reducible apply ok_elim | with_reducible apply ok_elimP | with_reducible apply modSlot_ok
    | with_reducible apply setBoardState_ok | split

theorem shedSlots_ok (s : State) (k : Nat) {orig : State} (ok0 : Ok orig s) : Ok orig (shedSlots s k) := by
  induction k generalizing s with
  | zero => exact ok0
  | succ k ih =>
    unfold shedSlots
    refine ok_ite ok0 ?_
    split
    · exact ok0
    · exact ih _ (shedSlot_ok _ _ ok0)

theorem unshedSlots_ok (s : State) {orig : State} (ok0 : Ok orig s) :
    Ok orig (unshedSlots s) := by
  unfold unshedSlots
  repeat' first
    | with_reducible assumption | intro _ | dsimp only | with_reducible apply ok_ite | with_reducible apply ok_iteP
    | with_reducible apply ok_elim | with_reducible apply ok_elimP | with_reducible apply modSlot_ok
    | with_reducible apply setBoardState_ok | with_reducible refine each_ok (fun _ _ h => ?_) ?_ | split

theorem settleBoard_ok (s : State) {orig : State} (ok0 : Ok orig s) :
    Ok orig (settleBoard s) := by
  unfold settleBoard
  repeat' first
    | with_reducible assumption | intro _ | dsimp only | with_reducible apply ok_ite | with_reducible apply ok_iteP
    | with_reducible apply ok_elim | with_reducible apply ok_elimP | with_reducible apply setBoardState_ok
    | with_reducible apply setBoardCap_ok | with_reducible apply shedSlots_ok | with_reducible apply unshedSlots_ok
    | with_reducible refine each_ok (fun _ _ h => ?_) ?_ | split

theorem releaseN_ok (s : State) {orig : State} (ok0 : Ok orig s) :
    Ok orig (releaseN s) := by
  unfold releaseN
  repeat' first
    | with_reducible assumption | intro _ | dsimp only | with_reducible apply ok_ite | with_reducible apply ok_iteP
    | with_reducible apply ok_elim | with_reducible apply ok_elimP | with_reducible apply modRst_ok
    | with_reducible apply releaseReset_ok | split

theorem introduce_ok (s : State) (k : Nat) {orig : State} (ok0 : Ok orig s) :
    Ok orig (introduce s k) := by
  unfold introduce
  repeat' first
    | with_reducible assumption | intro _ | dsimp only | with_reducible apply ok_ite | with_reducible apply ok_iteP
    | with_reducible apply ok_elim | with_reducible apply ok_elimP | with_reducible apply modSld_ok | with_reducible apply emit_ok
    | with_reducible apply writeRank_ok | with_reducible apply order_ok | with_reducible apply boardCap_ok
    | with_reducible apply releaseN_ok | with_reducible apply id_ok | with_reducible refine each_ok (fun _ _ h => ?_) ?_
    | (rename_i e; have e1 := congrArg Prod.fst e; dsimp only at e1; subst e1; clear e) | split

theorem powerSlot_ok (s : State) (k : Nat) {orig : State} (ok0 : Ok orig s) :
    Ok orig (powerSlot s k) := by
  unfold powerSlot
  repeat' first
    | with_reducible assumption | intro _ | dsimp only | with_reducible apply ok_ite | with_reducible apply ok_iteP
    | with_reducible apply ok_elim | with_reducible apply ok_elimP | with_reducible apply emit_ok
    | with_reducible apply coldReset_ok | with_reducible apply modSlot_ok | with_reducible apply introduce_ok | split

theorem noteCause_ok (s : State) (k nowMs : Nat) {orig : State} (ok0 : Ok orig s) :
    Ok orig (noteCause s k nowMs) := by
  unfold noteCause
  repeat' first
    | with_reducible assumption | intro _ | dsimp only | with_reducible apply ok_ite | with_reducible apply ok_iteP
    | with_reducible apply ok_elim | with_reducible apply ok_elimP | with_reducible apply modFree_ok
    | with_reducible apply modSlot_ok | split

theorem railsOut_ok (s : State) (k : Nat) {orig : State} (ok0 : Ok orig s) :
    Ok orig (railsOut s k) := by
  unfold railsOut
  repeat' first
    | with_reducible assumption | intro _ | dsimp only | with_reducible apply ok_ite | with_reducible apply ok_iteP
    | with_reducible apply ok_elim | with_reducible apply ok_elimP | with_reducible apply emit_ok
    | with_reducible apply aonLoss_ok | with_reducible apply modSlot_ok | split

theorem removePower_ok (s : State) (k nowMs : Nat) {orig : State} (ok0 : Ok orig s) :
    Ok orig (removePower s k nowMs) := by
  unfold removePower
  repeat' first
    | with_reducible assumption | intro _ | dsimp only | with_reducible apply ok_ite | with_reducible apply ok_iteP
    | with_reducible apply ok_elim | with_reducible apply ok_elimP | with_reducible apply noteCause_ok
    | with_reducible apply railsOut_ok | split

theorem trayChange_ok (s : State) (f : State → State) {orig : State} (hf : ∀ s, Ok orig s → Ok orig (f s)) (ok0 : Ok orig s) :
    Ok orig (trayChange s f) := by
  unfold trayChange
  repeat' first
    | with_reducible assumption | intro _ | dsimp only | with_reducible apply ok_ite | with_reducible apply ok_iteP
    | with_reducible apply ok_elim | with_reducible apply ok_elimP | with_reducible apply settleBoard_ok
    | with_reducible apply powerSlot_ok | with_reducible apply hf | with_reducible refine each_ok (fun _ _ h => ?_) ?_ | split

theorem answer_ok (s : State) (c : Code) {orig : State} (ok0 : Ok orig s) :
    Ok orig (State.answer s c) := by
  unfold State.answer
  repeat' first
    | with_reducible assumption | intro _ | dsimp only | with_reducible apply ok_ite | with_reducible apply ok_iteP
    | with_reducible apply ok_elim | with_reducible apply ok_elimP | with_reducible apply emit_ok | split

theorem answerOpen_ok (s : State) {orig : State} (ok0 : Ok orig s) :
    Ok orig (State.answerOpen s) := by
  unfold State.answerOpen
  repeat' first
    | with_reducible assumption | intro _ | dsimp only | with_reducible apply ok_ite | with_reducible apply ok_iteP
    | with_reducible apply ok_elim | with_reducible apply ok_elimP | with_reducible apply emit_ok | with_reducible apply drawn_ok
    | split

theorem slotCap_ok (s : State) (k : Nat) (rack : Bool) (w : Option Nat) {orig : State} (ok0 : Ok orig s) :
    Ok orig (slotCap s k rack w) := by
  unfold slotCap
  repeat' first
    | with_reducible assumption | intro _ | dsimp only | with_reducible apply ok_ite | with_reducible apply ok_iteP
    | with_reducible apply ok_elim | with_reducible apply ok_elimP | with_reducible apply hostCap_ok
    | with_reducible apply rackCap_ok | with_reducible apply modSlot_ok | with_reducible apply tell_ok
    | with_reducible apply answer_ok | (rename_i e; have e1 := congrArg Prod.fst e; dsimp only at e1; subst e1; clear e) | split

theorem slotState_ok (s : State) (k : Nat) (rack : Bool) (v : PState) (grace : Option Nat) (force : Bool) {orig : State} (ok0 : Ok orig s) :
    Ok orig (slotState s k rack v grace force) := by
  unfold slotState
  repeat' first
    | with_reducible assumption | intro _ | dsimp only | with_reducible apply ok_ite | with_reducible apply ok_iteP
    | with_reducible apply ok_elim | with_reducible apply ok_elimP | with_reducible apply hostState_ok
    | with_reducible apply rackState_ok | with_reducible apply modSlot_ok | with_reducible apply tell_ok
    | with_reducible apply answer_ok | (rename_i e; have e1 := congrArg Prod.fst e; dsimp only at e1; subst e1; clear e) | split

theorem resetSlot_ok (s : State) (k : Nat) {orig : State} (ok0 : Ok orig s) :
    Ok orig (resetSlot s k) := by
  unfold resetSlot
  repeat' first
    | with_reducible assumption | intro _ | dsimp only | with_reducible apply ok_ite | with_reducible apply ok_iteP
    | with_reducible apply ok_elim | with_reducible apply ok_elimP | with_reducible apply emit_ok
    | with_reducible apply pkgReset_ok | with_reducible apply modSlot_ok | with_reducible apply releaseN_ok | split

theorem holdSlot_ok (s : State) (k : Nat) {orig : State} (ok0 : Ok orig s) :
    Ok orig (holdSlot s k) := by
  unfold holdSlot
  repeat' first
    | with_reducible assumption | intro _ | dsimp only | with_reducible apply ok_ite | with_reducible apply ok_iteP
    | with_reducible apply ok_elim | with_reducible apply ok_elimP | with_reducible apply hold_ok
    | with_reducible apply pkgReset_ok | with_reducible apply tell_ok | split

theorem coldSlot_ok (s : State) (k nowMs : Nat) {orig : State} (ok0 : Ok orig s) :
    Ok orig (coldSlot s k nowMs) := by
  unfold coldSlot
  repeat' first
    | with_reducible assumption | intro _ | dsimp only | with_reducible apply ok_ite | with_reducible apply ok_iteP
    | with_reducible apply ok_elim | with_reducible apply ok_elimP | with_reducible apply powerSlot_ok
    | with_reducible apply removePower_ok | split

theorem openGate_ok (s : State) (k : Nat) {orig : State} (ok0 : Ok orig s) :
    Ok orig (openGate s k) := by
  unfold openGate
  repeat' first
    | with_reducible assumption | intro _ | dsimp only | with_reducible apply ok_ite | with_reducible apply ok_iteP
    | with_reducible apply ok_elim | with_reducible apply ok_elimP | with_reducible apply modSlot_ok | split

theorem selectBanks_ok (s : State) (k : Nat) (hub sld : Bool) {orig : State} (ok0 : Ok orig s) :
    Ok orig (selectBanks s k hub sld) := by
  unfold selectBanks
  repeat' first
    | with_reducible assumption | intro _ | dsimp only | with_reducible apply ok_ite | with_reducible apply ok_iteP
    | with_reducible apply ok_elim | with_reducible apply ok_elimP | with_reducible apply modSld_ok
    | with_reducible apply modFlash_ok | with_reducible apply modSlot_ok | with_reducible apply tell_ok | split

theorem selectBank_ok (s : State) (c : Component) (b : Bool) {orig : State} (ok0 : Ok orig s) :
    Ok orig (selectBank s c b) := by
  unfold selectBank
  repeat' first
    | with_reducible assumption | intro _ | dsimp only | with_reducible apply ok_ite | with_reducible apply ok_iteP
    | with_reducible apply ok_elim | with_reducible apply ok_elimP | with_reducible apply larkspur_ok
    | with_reducible apply selectBanks_ok | ((with_reducible apply modTray_ok); · intro t; rfl) | split

theorem restartComp_ok (s : State) (c : Component) {orig : State} (ok0 : Ok orig s) :
    Ok orig (restartComp s c) := by
  unfold restartComp
  repeat' first
    | with_reducible assumption | intro _ | dsimp only | with_reducible apply ok_ite | with_reducible apply ok_iteP
    | with_reducible apply ok_elim | with_reducible apply ok_elimP | with_reducible apply resetSlot_ok
    | ((with_reducible apply modTray_ok); · intro t; rfl) | split

theorem writeImage_ok (s : State) (c : Component) (image : List Byte) {orig : State} (ok0 : Ok orig s) :
    Ok orig (writeImage s c image) := by
  unfold writeImage
  repeat' first
    | with_reducible assumption | intro _ | dsimp only | with_reducible apply ok_ite | with_reducible apply ok_iteP
    | with_reducible apply ok_elim | with_reducible apply ok_elimP | with_reducible apply modFlash_ok
    | with_reducible apply larkspur_ok | with_reducible apply tell_ok | ((with_reducible apply modTray_ok); · intro t; rfl)
    | split

theorem activate_ok (s : State) (set : List (Component × Bool)) {orig : State} (ok0 : Ok orig s) :
    Ok orig (activate s set) := by
  unfold activate
  repeat' first
    | with_reducible assumption | intro _ | dsimp only | with_reducible apply ok_ite | with_reducible apply ok_iteP
    | with_reducible apply ok_elim | with_reducible apply ok_elimP | with_reducible apply selectBank_ok
    | ((with_reducible apply modTray_ok); · intro t; rfl) | with_reducible refine each_ok (fun _ _ h => ?_) ?_
    | with_reducible refine ok_foldl (fun _ _ h => ?_) _ ?_
    | with_reducible refine ok_foldlP (fun v => v.1) (fun _ _ h => ?_) _ ?_ | split

theorem update_ok (s : State) (c : Component) (image : List Byte) (staged : Bool) {orig : State} (ok0 : Ok orig s) :
    Ok orig (update s c image staged) := by
  unfold update
  repeat' first
    | with_reducible assumption | intro _ | dsimp only | with_reducible apply ok_ite | with_reducible apply ok_iteP
    | with_reducible apply ok_elim | with_reducible apply ok_elimP | with_reducible apply restartComp_ok
    | with_reducible apply writeImage_ok | with_reducible apply activate_ok | ((with_reducible apply modTray_ok); · intro t; rfl)
    | split

theorem activateStaged_ok (s : State) {orig : State} (ok0 : Ok orig s) :
    Ok orig (activateStaged s) := by
  unfold activateStaged
  repeat' first
    | with_reducible assumption | intro _ | dsimp only | with_reducible apply ok_ite | with_reducible apply ok_iteP
    | with_reducible apply ok_elim | with_reducible apply ok_elimP | with_reducible apply activate_ok
    | ((with_reducible apply modTray_ok); · intro t; rfl) | split

theorem rollBack_ok (s : State) (c : Component) {orig : State} (ok0 : Ok orig s) :
    Ok orig (rollBack s c) := by
  unfold rollBack
  repeat' first
    | with_reducible assumption | intro _ | dsimp only | with_reducible apply ok_ite | with_reducible apply ok_iteP
    | with_reducible apply ok_elim | with_reducible apply ok_elimP | with_reducible apply emit_ok
    | with_reducible apply selectBank_ok | with_reducible apply restartComp_ok
    | ((with_reducible apply modTray_ok); · intro t; rfl) | with_reducible refine each_ok (fun _ _ h => ?_) ?_ | split

theorem cycleTray_ok (s : State) {orig : State} (ok0 : Ok orig s) :
    Ok orig (cycleTray s) := by
  unfold cycleTray
  repeat' first
    | with_reducible assumption | intro _ | dsimp only | with_reducible apply ok_ite | with_reducible apply ok_iteP
    | with_reducible apply ok_elim | with_reducible apply ok_elimP | with_reducible apply activateStaged_ok
    | ((with_reducible apply modTray_ok); · intro t; rfl) | split

/-! ## Machine/TrayCmds.lean -/

theorem wrongBin_ok (s : State) (k : Nat) {orig : State} (ok0 : Ok orig s) :
    Ok orig (wrongBin s k) := by
  unfold wrongBin
  repeat' first
    | with_reducible assumption | intro _ | dsimp only | with_reducible apply ok_ite | with_reducible apply ok_iteP
    | with_reducible apply ok_elim | with_reducible apply ok_elimP | with_reducible apply emit_ok
    | with_reducible apply modSlot_ok | with_reducible apply railsOut_ok | split

theorem checkBins_ok (s : State) {orig : State} (ok0 : Ok orig s) :
    Ok orig (checkBins s) := by
  unfold checkBins
  repeat' first
    | with_reducible assumption | intro _ | dsimp only | with_reducible apply ok_ite | with_reducible apply ok_iteP
    | with_reducible apply ok_elim | with_reducible apply ok_elimP | with_reducible apply modSlot_ok
    | with_reducible apply wrongBin_ok | with_reducible refine each_ok (fun _ _ h => ?_) ?_ | split

theorem startLarkspur_ok (s : State) (strap : Nat) {orig : State} (ok0 : Ok orig s) :
    Ok orig (startLarkspur s strap) := by
  unfold startLarkspur
  repeat' first
    | with_reducible assumption | intro _ | dsimp only | with_reducible apply ok_ite | with_reducible apply ok_iteP
    | with_reducible apply ok_elim | with_reducible apply ok_elimP | with_reducible apply emit_ok
    | with_reducible apply settleBoard_ok | with_reducible apply powerSlot_ok | with_reducible apply openGate_ok
    | with_reducible apply checkBins_ok | ((with_reducible apply modTray_ok); · intro t; rfl)
    | with_reducible refine each_ok (fun _ _ h => ?_) ?_ | split

theorem execLarkspurStart_ok (strap : Nat) (s : State) : ∀ t, execLarkspurStart strap s = .next t → Ok s t := by
  intro t h
  have e : t = _ := (Host.Outcome.next.inj h).symm
  rw [e]; clear e h
  have ok0 : Ok s s := ok_refl _
  repeat' first
    | with_reducible assumption | intro _ | dsimp only | with_reducible apply ok_ite | with_reducible apply ok_iteP
    | with_reducible apply ok_elim | with_reducible apply ok_elimP | with_reducible apply startLarkspur_ok | split

theorem readBin_ok (s : State) (k : Nat) (b : Bin) {orig : State} (ok0 : Ok orig s) :
    Ok orig (readBin s k b) := by
  unfold readBin
  repeat' first
    | with_reducible assumption | intro _ | dsimp only | with_reducible apply ok_ite | with_reducible apply ok_iteP
    | with_reducible apply ok_elim | with_reducible apply ok_elimP | with_reducible apply emit_ok | with_reducible apply fresh_ok
    | with_reducible apply modSlot_ok | with_reducible apply trayChange_ok | split

theorem execBinIdRead_ok (slot : Fin 8) (bin : Bin) (s : State) : ∀ t, execBinIdRead slot bin s = .next t → Ok s t := by
  intro t h
  have e : t = _ := (Host.Outcome.next.inj h).symm
  rw [e]; clear e h
  have ok0 : Ok s s := ok_refl _
  repeat' first
    | with_reducible assumption | intro _ | dsimp only | with_reducible apply ok_ite | with_reducible apply ok_iteP
    | with_reducible apply ok_elim | with_reducible apply ok_elimP | with_reducible apply larkspur_ok
    | with_reducible apply readBin_ok | split

theorem slotLeft_ok (s : State) (k : Nat) {orig : State} (ok0 : Ok orig s) :
    Ok orig (slotLeft s k) := by
  unfold slotLeft
  repeat' first
    | with_reducible assumption | intro _ | dsimp only | with_reducible apply ok_ite | with_reducible apply ok_iteP
    | with_reducible apply ok_elim | with_reducible apply ok_elimP | with_reducible apply modSlot_ok
    | with_reducible apply railsOut_ok | split

theorem execSlotPresentRise_ok (slot : Fin 8) (s : State) : ∀ t, execSlotPresentRise slot s = .next t → Ok s t := by
  intro t h
  have e : t = _ := (Host.Outcome.next.inj h).symm
  rw [e]; clear e h
  have ok0 : Ok s s := ok_refl _
  repeat' first
    | with_reducible assumption | intro _ | dsimp only | with_reducible apply ok_ite | with_reducible apply ok_iteP
    | with_reducible apply ok_elim | with_reducible apply ok_elimP | with_reducible apply trayChange_ok
    | with_reducible apply slotLeft_ok | with_reducible apply id_ok | split

theorem execTrayIdWrite_ok (trayId : Fin 128) (slot : Fin 8) (s : State) : ∀ t, execTrayIdWrite trayId slot s = .next t → Ok s t := by
  intro t h
  have e : t = _ := (Host.Outcome.next.inj h).symm
  rw [e]; clear e h
  have ok0 : Ok s s := ok_refl _
  repeat' first
    | with_reducible assumption | intro _ | dsimp only | with_reducible apply ok_ite | with_reducible apply ok_iteP
    | with_reducible apply ok_elim | with_reducible apply ok_elimP | with_reducible apply writeRank_ok | split

theorem execPkgGoodRise_ok (slot : Fin 8) (s : State) : ∀ t, execPkgGoodRise slot s = .next t → Ok s t := by
  intro t h
  have e : t = _ := (Host.Outcome.next.inj h).symm
  rw [e]; clear e h
  have ok0 : Ok s s := ok_refl _
  repeat' first
    | with_reducible assumption | intro _ | dsimp only | with_reducible apply ok_ite | with_reducible apply ok_iteP
    | with_reducible apply ok_elim | with_reducible apply ok_elimP | with_reducible apply modSlot_ok
    | with_reducible apply larkspur_ok | with_reducible apply openGate_ok | split

theorem goodFell_ok (s : State) (k nowMs : Nat) {orig : State} (ok0 : Ok orig s) :
    Ok orig (goodFell s k nowMs) := by
  unfold goodFell
  repeat' first
    | with_reducible assumption | intro _ | dsimp only | with_reducible apply ok_ite | with_reducible apply ok_iteP
    | with_reducible apply ok_elim | with_reducible apply ok_elimP | with_reducible apply emit_ok | with_reducible apply hold_ok
    | with_reducible apply modSlot_ok | split

theorem execPkgGoodFall_ok (slot : Fin 8) (nowMs : Nat) (s : State) : ∀ t, execPkgGoodFall slot nowMs s = .next t → Ok s t := by
  intro t h
  have e : t = _ := (Host.Outcome.next.inj h).symm
  rw [e]; clear e h
  have ok0 : Ok s s := ok_refl _
  repeat' first
    | with_reducible assumption | intro _ | dsimp only | with_reducible apply ok_ite | with_reducible apply ok_iteP
    | with_reducible apply ok_elim | with_reducible apply ok_elimP | with_reducible apply goodFell_ok | split

theorem execFanFail_ok (fan : Fin 8) (s : State) : ∀ t, execFanFail fan s = .next t → Ok s t := by
  intro t h
  have e : t = _ := (Host.Outcome.next.inj h).symm
  rw [e]; clear e h
  have ok0 : Ok s s := ok_refl _
  repeat' first
    | with_reducible assumption | intro _ | dsimp only | with_reducible apply ok_ite | with_reducible apply ok_iteP
    | with_reducible apply ok_elim | with_reducible apply ok_elimP | with_reducible apply emit_ok
    | with_reducible apply larkspur_ok | with_reducible apply trayChange_ok | ((with_reducible apply modTray_ok); · intro t; rfl)
    | split

theorem execInputRangeLoss_ok (nowMs : Nat) (s : State) : ∀ t, execInputRangeLoss nowMs s = .next t → Ok s t := by
  intro t h
  have e : t = _ := (Host.Outcome.next.inj h).symm
  rw [e]; clear e h
  have ok0 : Ok s s := ok_refl _
  repeat' first
    | with_reducible assumption | intro _ | dsimp only | with_reducible apply ok_ite | with_reducible apply ok_iteP
    | with_reducible apply ok_elim | with_reducible apply ok_elimP | with_reducible apply emit_ok
    | with_reducible apply larkspur_ok | with_reducible apply settleBoard_ok | with_reducible apply removePower_ok
    | ((with_reducible apply modTray_ok); · intro t; rfl) | with_reducible refine each_ok (fun _ _ h => ?_) ?_ | split

theorem execInputRangeRestore_ok (s : State) : ∀ t, execInputRangeRestore s = .next t → Ok s t := by
  intro t h
  have e : t = _ := (Host.Outcome.next.inj h).symm
  rw [e]; clear e h
  have ok0 : Ok s s := ok_refl _
  repeat' first
    | with_reducible assumption | intro _ | dsimp only | with_reducible apply ok_ite | with_reducible apply ok_iteP
    | with_reducible apply ok_elim | with_reducible apply ok_elimP | with_reducible apply larkspur_ok
    | with_reducible apply trayChange_ok | ((with_reducible apply modTray_ok); · intro t; rfl) | split

theorem offReady_ok (s : State) (k nowMs : Nat) {orig : State} (ok0 : Ok orig s) :
    Ok orig (offReady s k nowMs) := by
  unfold offReady
  repeat' first
    | with_reducible assumption | intro _ | dsimp only | with_reducible apply ok_ite | with_reducible apply ok_iteP
    | with_reducible apply ok_elim | with_reducible apply ok_elimP | with_reducible apply removePower_ok
    | with_reducible apply trayChange_ok | with_reducible apply id_ok | split

theorem execOffReady_ok (slot : Fin 8) (nowMs : Nat) (s : State) : ∀ t, execOffReady slot nowMs s = .next t → Ok s t := by
  intro t h
  have e : t = _ := (Host.Outcome.next.inj h).symm
  rw [e]; clear e h
  have ok0 : Ok s s := ok_refl _
  repeat' first
    | with_reducible assumption | intro _ | dsimp only | with_reducible apply ok_ite | with_reducible apply ok_iteP
    | with_reducible apply ok_elim | with_reducible apply ok_elimP | with_reducible apply larkspur_ok
    | with_reducible apply offReady_ok | split

theorem execOffReadyTimeout_ok (slot : Fin 8) (nowMs : Nat) (s : State) : ∀ t, execOffReadyTimeout slot nowMs s = .next t → Ok s t := by
  intro t h
  have e : t = _ := (Host.Outcome.next.inj h).symm
  rw [e]; clear e h
  have ok0 : Ok s s := ok_refl _
  repeat' first
    | with_reducible assumption | intro _ | dsimp only | with_reducible apply ok_ite | with_reducible apply ok_iteP
    | with_reducible apply ok_elim | with_reducible apply ok_elimP | with_reducible apply larkspur_ok
    | with_reducible apply removePower_ok | with_reducible apply trayChange_ok | with_reducible apply id_ok | split

theorem execRefInChange_ok (ppm : Option Int) (s : State) : ∀ t, execRefInChange ppm s = .next t → Ok s t := by
  intro t h
  have e : t = _ := (Host.Outcome.next.inj h).symm
  rw [e]; clear e h
  have ok0 : Ok s s := ok_refl _
  repeat' first
    | with_reducible assumption | intro _ | dsimp only | with_reducible apply ok_ite | with_reducible apply ok_iteP
    | with_reducible apply ok_elim | with_reducible apply ok_elimP | ((with_reducible apply modTray_ok); · intro t; rfl) | split

theorem execCoolingWatchdogKick_ok (s : State) : ∀ t, execCoolingWatchdogKick s = .next t → Ok s t := by
  intro t h
  have e : t = _ := (Host.Outcome.next.inj h).symm
  rw [e]; clear e h
  have ok0 : Ok s s := ok_refl _
  repeat' first
    | with_reducible assumption | intro _ | dsimp only | with_reducible apply ok_ite | with_reducible apply ok_iteP
    | with_reducible apply ok_elim | with_reducible apply ok_elimP | split

theorem recover_ok (s : State) (k nowMs : Nat) {orig : State} (ok0 : Ok orig s) :
    Ok orig (recover s k nowMs) := by
  unfold recover
  repeat' first
    | with_reducible assumption | intro _ | dsimp only | with_reducible apply ok_ite | with_reducible apply ok_iteP
    | with_reducible apply ok_elim | with_reducible apply ok_elimP | with_reducible apply emit_ok
    | with_reducible apply modSlot_ok | with_reducible apply resetSlot_ok | with_reducible apply holdSlot_ok | split

theorem execPkgFaultRecovery_ok (slot : Fin 8) (lockout : Bool) (nowMs : Nat) (s : State) : ∀ t, execPkgFaultRecovery slot lockout nowMs s = .next t → Ok s t := by
  intro t h
  have e : t = _ := (Host.Outcome.next.inj h).symm
  rw [e]; clear e h
  have ok0 : Ok s s := ok_refl _
  repeat' first
    | with_reducible assumption | intro _ | dsimp only | with_reducible apply ok_ite | with_reducible apply ok_iteP
    | with_reducible apply ok_elim | with_reducible apply ok_elimP | with_reducible apply lockout_ok
    | with_reducible apply modSlot_ok | with_reducible apply larkspur_ok | with_reducible apply recover_ok | split

theorem execHostMctpMessage_ok (port : Fin 8) (eid : Nat) (cmdSlot : Option (Fin 8)) (s : State) : ∀ t, execHostMctpMessage port eid cmdSlot s = .next t → Ok s t := by
  intro t h
  have e : t = _ := (Host.Outcome.next.inj h).symm
  rw [e]; clear e h
  have ok0 : Ok s s := ok_refl _
  repeat' first
    | with_reducible assumption | intro _ | dsimp only | with_reducible apply ok_ite | with_reducible apply ok_iteP
    | with_reducible apply ok_elim | with_reducible apply ok_elimP | with_reducible apply emit_ok
    | with_reducible apply larkspur_ok | with_reducible apply answer_ok | split

theorem execI3cDynamicAddressTimeout_ok (slot : Fin 8) (s : State) : ∀ t, execI3cDynamicAddressTimeout slot s = .next t → Ok s t := by
  intro t h
  have e : t = _ := (Host.Outcome.next.inj h).symm
  rw [e]; clear e h
  have ok0 : Ok s s := ok_refl _
  repeat' first
    | with_reducible assumption | intro _ | dsimp only | with_reducible apply ok_ite | with_reducible apply ok_iteP
    | with_reducible apply ok_elim | with_reducible apply ok_elimP | with_reducible apply modSlot_ok
    | with_reducible apply larkspur_ok | split

/-! ## Machine/TrayMgmt.lean -/

theorem command_ok (s : State) (ok : Bool) (f : State → State) {orig : State} (hf : ∀ s, Ok orig s → Ok orig (f s)) (ok0 : Ok orig s) :
    Ok orig (command s ok f) := by
  unfold command
  repeat' first
    | with_reducible assumption | intro _ | dsimp only | with_reducible apply ok_ite | with_reducible apply ok_iteP
    | with_reducible apply ok_elim | with_reducible apply ok_elimP | with_reducible apply larkspur_ok
    | with_reducible apply answer_ok | with_reducible apply hf | split

theorem execSetCap_ok (src : CmdSrc) (slot : Fin 8) (watts : Nat) (s : State) : ∀ t, execSetCap src slot watts s = .next t → Ok s t := by
  intro t h
  have e : t = _ := (Host.Outcome.next.inj h).symm
  rw [e]; clear e h
  have ok0 : Ok s s := ok_refl _
  repeat' first
    | with_reducible assumption | intro _ | dsimp only | with_reducible apply ok_ite | with_reducible apply ok_iteP
    | with_reducible apply ok_elim | with_reducible apply ok_elimP | with_reducible apply trayChange_ok
    | with_reducible apply slotCap_ok | with_reducible apply command_ok | split

theorem execSetState_ok (src : CmdSrc) (slot : Fin 8) (state : PState) (grace : Option Nat) (force : Bool) (s : State) : ∀ t, execSetState src slot state grace force s = .next t → Ok s t := by
  intro t h
  have e : t = _ := (Host.Outcome.next.inj h).symm
  rw [e]; clear e h
  have ok0 : Ok s s := ok_refl _
  repeat' first
    | with_reducible assumption | intro _ | dsimp only | with_reducible apply ok_ite | with_reducible apply ok_iteP
    | with_reducible apply ok_elim | with_reducible apply ok_elimP | with_reducible apply trayChange_ok
    | with_reducible apply answerOpen_ok | with_reducible apply slotState_ok | with_reducible apply command_ok | split

theorem execGetStatus_ok (src : CmdSrc) (slot : Fin 8) (s : State) : ∀ t, execGetStatus src slot s = .next t → Ok s t := by
  intro t h
  have e : t = _ := (Host.Outcome.next.inj h).symm
  rw [e]; clear e h
  have ok0 : Ok s s := ok_refl _
  repeat' first
    | with_reducible assumption | intro _ | dsimp only | with_reducible apply ok_ite | with_reducible apply ok_iteP
    | with_reducible apply ok_elim | with_reducible apply ok_elimP | with_reducible apply modFree_ok
    | with_reducible apply emit_ok | with_reducible apply answer_ok | with_reducible apply command_ok | split

theorem execResetPkg_ok (src : CmdSrc) (slot : Fin 8) (s : State) : ∀ t, execResetPkg src slot s = .next t → Ok s t := by
  intro t h
  have e : t = _ := (Host.Outcome.next.inj h).symm
  rw [e]; clear e h
  have ok0 : Ok s s := ok_refl _
  repeat' first
    | with_reducible assumption | intro _ | dsimp only | with_reducible apply ok_ite | with_reducible apply ok_iteP
    | with_reducible apply ok_elim | with_reducible apply ok_elimP | with_reducible apply answer_ok
    | with_reducible apply resetSlot_ok | with_reducible apply command_ok | split

theorem execColdCycle_ok (src : CmdSrc) (slot : Fin 8) (nowMs : Nat) (s : State) : ∀ t, execColdCycle src slot nowMs s = .next t → Ok s t := by
  intro t h
  have e : t = _ := (Host.Outcome.next.inj h).symm
  rw [e]; clear e h
  have ok0 : Ok s s := ok_refl _
  repeat' first
    | with_reducible assumption | intro _ | dsimp only | with_reducible apply ok_ite | with_reducible apply ok_iteP
    | with_reducible apply ok_elim | with_reducible apply ok_elimP | with_reducible apply answer_ok
    | with_reducible apply coldSlot_ok | with_reducible apply command_ok | split

theorem execGateForce_ok (src : CmdSrc) (slot : Fin 8) (s : State) : ∀ t, execGateForce src slot s = .next t → Ok s t := by
  intro t h
  have e : t = _ := (Host.Outcome.next.inj h).symm
  rw [e]; clear e h
  have ok0 : Ok s s := ok_refl _
  repeat' first
    | with_reducible assumption | intro _ | dsimp only | with_reducible apply ok_ite | with_reducible apply ok_iteP
    | with_reducible apply ok_elim | with_reducible apply ok_elimP | with_reducible apply modSlot_ok
    | with_reducible apply answer_ok | with_reducible apply command_ok | split

theorem execGateRelease_ok (src : CmdSrc) (slot : Fin 8) (s : State) : ∀ t, execGateRelease src slot s = .next t → Ok s t := by
  intro t h
  have e : t = _ := (Host.Outcome.next.inj h).symm
  rw [e]; clear e h
  have ok0 : Ok s s := ok_refl _
  repeat' first
    | with_reducible assumption | intro _ | dsimp only | with_reducible apply ok_ite | with_reducible apply ok_iteP
    | with_reducible apply ok_elim | with_reducible apply ok_elimP | with_reducible apply modSlot_ok
    | with_reducible apply answer_ok | with_reducible apply openGate_ok | with_reducible apply command_ok | split

theorem retrainSlotLinks_ok (s : State) (k : Nat) {orig : State} (ok0 : Ok orig s) :
    Ok orig (retrainSlotLinks s k) := by
  unfold retrainSlotLinks
  repeat' first
    | with_reducible assumption | intro _ | dsimp only | with_reducible apply ok_ite | with_reducible apply ok_iteP
    | with_reducible apply ok_elim | with_reducible apply ok_elimP | with_reducible apply restartTraining_ok
    | with_reducible apply tell_ok | split

theorem execRetrain_ok (src : CmdSrc) (slot : Fin 8) (s : State) : ∀ t, execRetrain src slot s = .next t → Ok s t := by
  intro t h
  have e : t = _ := (Host.Outcome.next.inj h).symm
  rw [e]; clear e h
  have ok0 : Ok s s := ok_refl _
  repeat' first
    | with_reducible assumption | intro _ | dsimp only | with_reducible apply ok_ite | with_reducible apply ok_iteP
    | with_reducible apply ok_elim | with_reducible apply ok_elimP | with_reducible apply answer_ok
    | with_reducible apply command_ok | with_reducible apply retrainSlotLinks_ok | split

theorem writeTrayId_ok (s : State) (id : Nat) {orig : State} (ok0 : Ok orig s) :
    Ok orig (writeTrayId s id) := by
  unfold writeTrayId
  repeat' first
    | with_reducible assumption | intro _ | dsimp only | with_reducible apply ok_ite | with_reducible apply ok_iteP
    | with_reducible apply ok_elim | with_reducible apply ok_elimP | with_reducible apply writeRank_ok
    | with_reducible apply tell_ok | with_reducible apply id_ok | ((with_reducible apply modTray_ok); · intro t; rfl)
    | with_reducible refine each_ok (fun _ _ h => ?_) ?_ | split

theorem execSetTrayId_ok (src : CmdSrc) (trayId : Fin 128) (s : State) : ∀ t, execSetTrayId src trayId s = .next t → Ok s t := by
  intro t h
  have e : t = _ := (Host.Outcome.next.inj h).symm
  rw [e]; clear e h
  have ok0 : Ok s s := ok_refl _
  repeat' first
    | with_reducible assumption | intro _ | dsimp only | with_reducible apply ok_ite | with_reducible apply ok_iteP
    | with_reducible apply ok_elim | with_reducible apply ok_elimP | with_reducible apply answer_ok
    | with_reducible apply command_ok | with_reducible apply writeTrayId_ok | split

theorem execSetTempo_ok (src : CmdSrc) (track : Bool) (s : State) : ∀ t, execSetTempo src track s = .next t → Ok s t := by
  intro t h
  have e : t = _ := (Host.Outcome.next.inj h).symm
  rw [e]; clear e h
  have ok0 : Ok s s := ok_refl _
  repeat' first
    | with_reducible assumption | intro _ | dsimp only | with_reducible apply ok_ite | with_reducible apply ok_iteP
    | with_reducible apply ok_elim | with_reducible apply ok_elimP | with_reducible apply answer_ok
    | with_reducible apply command_ok | ((with_reducible apply modTray_ok); · intro t; rfl) | split

theorem execSetBoot_ok (src : CmdSrc) (slot : Fin 8) (hubBank sldBank : Bool) (s : State) : ∀ t, execSetBoot src slot hubBank sldBank s = .next t → Ok s t := by
  intro t h
  have e : t = _ := (Host.Outcome.next.inj h).symm
  rw [e]; clear e h
  have ok0 : Ok s s := ok_refl _
  repeat' first
    | with_reducible assumption | intro _ | dsimp only | with_reducible apply ok_ite | with_reducible apply ok_iteP
    | with_reducible apply ok_elim | with_reducible apply ok_elimP | with_reducible apply answer_ok
    | with_reducible apply answerOpen_ok | with_reducible apply selectBanks_ok | with_reducible apply command_ok | split

theorem execSetInput_ok (src : CmdSrc) (watts : Nat) (s : State) : ∀ t, execSetInput src watts s = .next t → Ok s t := by
  intro t h
  have e : t = _ := (Host.Outcome.next.inj h).symm
  rw [e]; clear e h
  have ok0 : Ok s s := ok_refl _
  repeat' first
    | with_reducible assumption | intro _ | dsimp only | with_reducible apply ok_ite | with_reducible apply ok_iteP
    | with_reducible apply ok_elim | with_reducible apply ok_elimP | with_reducible apply trayChange_ok
    | with_reducible apply answer_ok | with_reducible apply answerOpen_ok | with_reducible apply command_ok
    | ((with_reducible apply modTray_ok); · intro t; rfl) | split

theorem execSetRecover_ok (src : CmdSrc) (slot : Fin 8) (auto : Bool) (s : State) : ∀ t, execSetRecover src slot auto s = .next t → Ok s t := by
  intro t h
  have e : t = _ := (Host.Outcome.next.inj h).symm
  rw [e]; clear e h
  have ok0 : Ok s s := ok_refl _
  repeat' first
    | with_reducible assumption | intro _ | dsimp only | with_reducible apply ok_ite | with_reducible apply ok_iteP
    | with_reducible apply ok_elim | with_reducible apply ok_elimP | with_reducible apply modSlot_ok
    | with_reducible apply answer_ok | with_reducible apply command_ok | split

theorem execPldmSensorRead_ok (sensor : Sensor) (measured : Int) (s : State) : ∀ t, execPldmSensorRead sensor measured s = .next t → Ok s t := by
  intro t h
  have e : t = _ := (Host.Outcome.next.inj h).symm
  rw [e]; clear e h
  have ok0 : Ok s s := ok_refl _
  repeat' first
    | with_reducible assumption | intro _ | dsimp only | with_reducible apply ok_ite | with_reducible apply ok_iteP
    | with_reducible apply ok_elim | with_reducible apply ok_elimP | with_reducible apply emit_ok
    | with_reducible apply larkspur_ok | split

theorem responder_ok (s : State) (lk : Bool) (f : State → State) {orig : State} (hf : ∀ s, Ok orig s → Ok orig (f s)) (ok0 : Ok orig s) :
    Ok orig (responder s lk f) := by
  unfold responder
  repeat' first
    | with_reducible assumption | intro _ | dsimp only | with_reducible apply ok_ite | with_reducible apply ok_iteP
    | with_reducible apply ok_elim | with_reducible apply ok_elimP | with_reducible apply hf | split

theorem execSpdmGetVersion_ok (larkspur : Bool) (s : State) : ∀ t, execSpdmGetVersion larkspur s = .next t → Ok s t := by
  intro t h
  have e : t = _ := (Host.Outcome.next.inj h).symm
  rw [e]; clear e h
  have ok0 : Ok s s := ok_refl _
  repeat' first
    | with_reducible assumption | intro _ | dsimp only | with_reducible apply ok_ite | with_reducible apply ok_iteP
    | with_reducible apply ok_elim | with_reducible apply ok_elimP | with_reducible apply emit_ok
    | with_reducible apply larkspur_ok | with_reducible apply responder_ok | split

theorem execSpdmGetCapabilities_ok (larkspur : Bool) (s : State) : ∀ t, execSpdmGetCapabilities larkspur s = .next t → Ok s t := by
  intro t h
  have e : t = _ := (Host.Outcome.next.inj h).symm
  rw [e]; clear e h
  have ok0 : Ok s s := ok_refl _
  repeat' first
    | with_reducible assumption | intro _ | dsimp only | with_reducible apply ok_ite | with_reducible apply ok_iteP
    | with_reducible apply ok_elim | with_reducible apply ok_elimP | with_reducible apply emit_ok
    | with_reducible apply larkspur_ok | with_reducible apply responder_ok | split

theorem execSpdmNegotiateAlgorithms_ok (larkspur ecdsaP384 sha384 : Bool) (s : State) : ∀ t, execSpdmNegotiateAlgorithms larkspur ecdsaP384 sha384 s = .next t → Ok s t := by
  intro t h
  have e : t = _ := (Host.Outcome.next.inj h).symm
  rw [e]; clear e h
  have ok0 : Ok s s := ok_refl _
  repeat' first
    | with_reducible assumption | intro _ | dsimp only | with_reducible apply ok_ite | with_reducible apply ok_iteP
    | with_reducible apply ok_elim | with_reducible apply ok_elimP | with_reducible apply emit_ok
    | with_reducible apply larkspur_ok | with_reducible apply responder_ok | split

theorem execSpdmGetDigests_ok (larkspur : Bool) (s : State) : ∀ t, execSpdmGetDigests larkspur s = .next t → Ok s t := by
  intro t h
  have e : t = _ := (Host.Outcome.next.inj h).symm
  rw [e]; clear e h
  have ok0 : Ok s s := ok_refl _
  repeat' first
    | with_reducible assumption | intro _ | dsimp only | with_reducible apply ok_ite | with_reducible apply ok_iteP
    | with_reducible apply ok_elim | with_reducible apply ok_elimP | with_reducible apply emit_ok
    | with_reducible apply larkspur_ok | with_reducible apply responder_ok | split

theorem execSpdmGetCertificate_ok (larkspur : Bool) (off len : Nat) (s : State) : ∀ t, execSpdmGetCertificate larkspur off len s = .next t → Ok s t := by
  intro t h
  have e : t = _ := (Host.Outcome.next.inj h).symm
  rw [e]; clear e h
  have ok0 : Ok s s := ok_refl _
  repeat' first
    | with_reducible assumption | intro _ | dsimp only | with_reducible apply ok_ite | with_reducible apply ok_iteP
    | with_reducible apply ok_elim | with_reducible apply ok_elimP | with_reducible apply emit_ok | with_reducible apply take_ok
    | with_reducible apply larkspur_ok | with_reducible apply responder_ok | split

theorem execSpdmChallenge_ok (larkspur : Bool) (nonce : BitVec 256) (s : State) : ∀ t, execSpdmChallenge larkspur nonce s = .next t → Ok s t := by
  intro t h
  have e : t = _ := (Host.Outcome.next.inj h).symm
  rw [e]; clear e h
  have ok0 : Ok s s := ok_refl _
  repeat' first
    | with_reducible assumption | intro _ | dsimp only | with_reducible apply ok_ite | with_reducible apply ok_iteP
    | with_reducible apply ok_elim | with_reducible apply ok_elimP | with_reducible apply modFree_ok
    | with_reducible apply emit_ok | with_reducible apply larkspur_ok | with_reducible apply responder_ok | split

theorem execSpdmGetMeasurements_ok (larkspur : Bool) (index : Nat) (s : State) : ∀ t, execSpdmGetMeasurements larkspur index s = .next t → Ok s t := by
  intro t h
  have e : t = _ := (Host.Outcome.next.inj h).symm
  rw [e]; clear e h
  have ok0 : Ok s s := ok_refl _
  repeat' first
    | with_reducible assumption | intro _ | dsimp only | with_reducible apply ok_ite | with_reducible apply ok_iteP
    | with_reducible apply ok_elim | with_reducible apply ok_elimP | with_reducible apply emit_ok
    | with_reducible apply larkspur_ok | with_reducible apply responder_ok | split

theorem redfishState_ok (s : State) (k : Nat) (v : PState) (grace : Option Nat) (force : Bool) {orig : State} (ok0 : Ok orig s) :
    Ok orig (redfishState s k v grace force) := by
  unfold redfishState
  repeat' first
    | with_reducible assumption | intro _ | dsimp only | with_reducible apply ok_ite | with_reducible apply ok_iteP
    | with_reducible apply ok_elim | with_reducible apply ok_elimP | with_reducible apply trayChange_ok
    | with_reducible apply slotState_ok | split

theorem processorReset_ok (s : State) (k : Nat) (kind : RedfishReset) (nowMs : Nat) {orig : State} (ok0 : Ok orig s) :
    Ok orig (processorReset s k kind nowMs) := by
  unfold processorReset
  repeat' first
    | with_reducible assumption | intro _ | dsimp only | with_reducible apply ok_ite | with_reducible apply ok_iteP
    | with_reducible apply ok_elim | with_reducible apply ok_elimP | with_reducible apply emit_ok | with_reducible apply answer_ok
    | with_reducible apply resetSlot_ok | with_reducible apply coldSlot_ok | with_reducible apply redfishState_ok | split

theorem execRedfishProcessorReset_ok (slot : Fin 8) (kind : RedfishReset) (nowMs : Nat) (s : State) : ∀ t, execRedfishProcessorReset slot kind nowMs s = .next t → Ok s t := by
  intro t h
  have e : t = _ := (Host.Outcome.next.inj h).symm
  rw [e]; clear e h
  have ok0 : Ok s s := ok_refl _
  repeat' first
    | with_reducible assumption | intro _ | dsimp only | with_reducible apply ok_ite | with_reducible apply ok_iteP
    | with_reducible apply ok_elim | with_reducible apply ok_elimP | with_reducible apply larkspur_ok
    | with_reducible apply processorReset_ok | split

theorem execRedfishStandby_ok (slot : Fin 8) (s : State) : ∀ t, execRedfishStandby slot s = .next t → Ok s t := by
  intro t h
  have e : t = _ := (Host.Outcome.next.inj h).symm
  rw [e]; clear e h
  have ok0 : Ok s s := ok_refl _
  repeat' first
    | with_reducible assumption | intro _ | dsimp only | with_reducible apply ok_ite | with_reducible apply ok_iteP
    | with_reducible apply ok_elim | with_reducible apply ok_elimP | with_reducible apply larkspur_ok
    | with_reducible apply redfishState_ok | split

theorem execRedfishPowerLimit_ok (slot : Fin 8) (watts : Option Nat) (s : State) : ∀ t, execRedfishPowerLimit slot watts s = .next t → Ok s t := by
  intro t h
  have e : t = _ := (Host.Outcome.next.inj h).symm
  rw [e]; clear e h
  have ok0 : Ok s s := ok_refl _
  repeat' first
    | with_reducible assumption | intro _ | dsimp only | with_reducible apply ok_ite | with_reducible apply ok_iteP
    | with_reducible apply ok_elim | with_reducible apply ok_elimP | with_reducible apply larkspur_ok
    | with_reducible apply trayChange_ok | with_reducible apply slotCap_ok | split

theorem execRedfishChassisReset_ok (powerCycle : Bool) (nowMs : Nat) (s : State) : ∀ t, execRedfishChassisReset powerCycle nowMs s = .next t → Ok s t := by
  intro t h
  have e : t = _ := (Host.Outcome.next.inj h).symm
  rw [e]; clear e h
  have ok0 : Ok s s := ok_refl _
  repeat' first
    | with_reducible assumption | intro _ | dsimp only | with_reducible apply ok_ite | with_reducible apply ok_iteP
    | with_reducible apply ok_elim | with_reducible apply ok_elimP | with_reducible apply emit_ok
    | with_reducible apply larkspur_ok | with_reducible apply removePower_ok | with_reducible apply cycleTray_ok
    | with_reducible refine each_ok (fun _ _ h => ?_) ?_ | split

theorem execTrayPowerCycle_ok (s : State) : ∀ t, execTrayPowerCycle s = .next t → Ok s t := by
  intro t h
  have e : t = _ := (Host.Outcome.next.inj h).symm
  rw [e]; clear e h
  have ok0 : Ok s s := ok_refl _
  repeat' first
    | with_reducible assumption | intro _ | dsimp only | with_reducible apply ok_ite | with_reducible apply ok_iteP
    | with_reducible apply ok_elim | with_reducible apply ok_elimP | with_reducible apply railsOut_ok
    | with_reducible apply cycleTray_ok | with_reducible refine each_ok (fun _ _ h => ?_) ?_ | split

theorem execFirmwareUpdateRequest_ok (comp : Component) (image : List Byte) (sigOk staged complete : Bool) (s : State) : ∀ t, execFirmwareUpdateRequest comp image sigOk staged complete s = .next t → Ok s t := by
  intro t h
  have e : t = _ := (Host.Outcome.next.inj h).symm
  rw [e]; clear e h
  have ok0 : Ok s s := ok_refl _
  repeat' first
    | with_reducible assumption | intro _ | dsimp only | with_reducible apply ok_ite | with_reducible apply ok_iteP
    | with_reducible apply ok_elim | with_reducible apply ok_elimP | with_reducible apply larkspur_ok
    | with_reducible apply answer_ok | with_reducible apply answerOpen_ok | with_reducible apply update_ok | split

theorem execHealthCheckFail_ok (comp : Component) (s : State) : ∀ t, execHealthCheckFail comp s = .next t → Ok s t := by
  intro t h
  have e : t = _ := (Host.Outcome.next.inj h).symm
  rw [e]; clear e h
  have ok0 : Ok s s := ok_refl _
  repeat' first
    | with_reducible assumption | intro _ | dsimp only | with_reducible apply ok_ite | with_reducible apply ok_iteP
    | with_reducible apply ok_elim | with_reducible apply ok_elimP | with_reducible apply rollBack_ok | split

end Sys2Proof.Laws
end

