-- ==== Sys2Proof/Laws/Access.lean ====
section
/-! SUPPORT. What reading gives after writing: entries of vectors, maps, steps, groups, lines and tray slots; what charging an access, a
signal and an issue leave alone; and the guards of a host access and of a tray command once they hold. -/

namespace Sys2Proof.Laws
open Sys2Proof Sys2Proof.Machine

/-! ## Vectors, steps, charges, signals -/

theorem vmodN_set {α : Type} {n : Nat} (v : Vector α n) (i : Fin n) (f : α → α) : vmodN v i f = v.set i (f v[i]) := by simp [vmodN, i.isLt]
theorem vat_get {α : Type} {n : Nat} (v : Vector α n) (i : Fin n) (d : α) : vat v i d = v[i] := by simp [vat, i.isLt]
theorem vat_vmodN {α : Type} {n : Nat} (v : Vector α n) (i j : Nat) (f : α → α) (d : α) : vat (vmodN v i f) j d = if i = j ∧ i < n then f (vat v j d) else vat v j d := by
  unfold vat vmodN
  by_cases hi : i < n
  · rw [dif_pos hi]
    by_cases hij : i = j
    · subst hij; simp [hi]
    · by_cases hj : j < n
      · rw [dif_pos hj, dif_pos hj, if_neg (fun x => hij x.1), Vector.getElem_set_ne _ _ hij]
      · rw [dif_neg hj, dif_neg hj, if_neg (fun x => hij x.1)]
  · rw [dif_neg hi, if_neg (fun x => hi x.2)]
theorem vat_vmodN_same {α : Type} {n : Nat} (v : Vector α n) (i : Fin n) (f : α → α) (d : α) : vat (vmodN v i f) i d = f v[i] := by
  rw [vat_vmodN, if_pos ⟨rfl, i.isLt⟩, vat_get]
theorem vat_vmodN_ne {α : Type} {n : Nat} (v : Vector α n) (i j : Nat) (f : α → α) (d : α) (h : i ≠ j) : vat (vmodN v i f) j d = vat v j d := by
  rw [vat_vmodN, if_neg (fun x => h x.1)]
theorem hostAccess_open {s : State} {fn : Nat} (h1 : s.hif.linkUp = true) (h2 : decodes s fn = true) (f) : hostAccess s fn f = f s := by simp [hostAccess, h1, h2]
theorem hostAccess_open_primary {s : State} (h1 : s.hif.linkUp = true) (h2 : decodes s 0 = true) (f) : hostAccess s (0 : Fn).val f = f s := by simp [hostAccess, h1, h2]
theorem each_proj {γ α : Type} (g : State → γ) (f : State → α → State) (h : ∀ s x, g (f s x) = g s) (xs : List α) (s : State) : g (s.each xs f) = g s := by
  unfold State.each
  induction xs generalizing s with
  | nil => rfl
  | cons x xs ih => exact (ih _).trans (h s x)
theorem find?_modStep (i : Nat) (f : Step → Step) (hf : ∀ x, (f x).id = x.id) (l : List Step) (t : Step) (h : l.find? (fun t => t.id == i) = some t) :
    (l.map fun x => if x.id = i then f x else x).find? (fun t => t.id == i) = some (f t) := by
  induction l with
  | nil => cases h
  | cons a as ih =>
    rw [List.find?_cons] at h
    rw [List.map_cons, List.find?_cons]
    by_cases ha : a.id = i
    · have h1 : (a.id == i) = true := by simpa using ha
      rw [h1] at h
      rw [if_pos ha, hf, h1]
      exact congrArg some (congrArg f (Option.some.inj h))
    · have h1 : (a.id == i) = false := by simpa using ha
      rw [h1] at h
      rw [if_neg ha, h1]
      exact ih h
theorem getStep_modStep (s : State) (i : Nat) (f : Step → Step) (hf : ∀ x, (f x).id = x.id) (t : Step) (h : getStep s i = some t) :
    getStep (s.modStep i f) i = some (f t) := find?_modStep i f hf _ _ h
theorem getStep_id {s : State} {i : Nat} {t : Step} (h : getStep s i = some t) : t.id = i := by
  have := List.find?_some h; simpa using this
theorem violate_stp (s : State) (m u) : (s.violate m u).stp = s.stp := by
  unfold State.violate; rw [each_proj (fun s => s.stp)]; rfl; intro s x; rfl
theorem signal_proj {γ : Type} (g : State → γ) (h1 : ∀ s f, g (State.modHif s f) = g s) (h2 : ∀ s o, g (State.emit s o) = g s) (s : State) (a b) : g (s.signal a b) = g s := by
  unfold State.signal; split
  · exact h1 _ _
  · split
    · exact h2 _ _
    · rfl

/-! ## Groups of a tile and its register maps -/

theorem assoc_map_same {β : Type} (l : List (Nat × β)) (k : Nat) (f : β → β) (g : β) (h : assoc l k = some g) :
    assoc (l.map fun e => if e.1 = k then (e.1, f e.2) else e) k = some (f g) := by
  induction l with
  | nil => cases h
  | cons e m ih =>
    rw [assoc] at h; rw [List.map_cons, assoc]
    by_cases he : e.1 = k
    · simp only [he, if_true] at h ⊢; cases h; rfl
    · simp only [he, if_false] at h ⊢; exact ih h
theorem assoc_map_ne {β : Type} (l : List (Nat × β)) (k j : Nat) (f : β → β) (h : j ≠ k) :
    assoc (l.map fun e => if e.1 = k then (e.1, f e.2) else e) j = assoc l j := by
  induction l with
  | nil => rfl
  | cons e m ih =>
    rw [List.map_cons, assoc, assoc, ih]
    by_cases he : e.1 = k
    · simp only [he, if_true, (Ne.symm h), if_false]
    · simp only [he, if_false]
theorem getGroup_mod {s : State} {a b : Nat} {g : Group} (f) (h : getGroup s a b = some g) : getGroup (s.modGroup a b f) a b = some (f g) :=
  assoc_map_same _ _ f g h
theorem getGroup_mod_ne {s : State} {a b c d : Nat} (f) (h : gKey c d ≠ gKey a b) : getGroup (s.modGroup a b f) c d = getGroup s c d :=
  assoc_map_ne _ _ _ f h
theorem issuing_group {s : State} {a b c d u g w} (h : issuing s a b c d u = some (g, w)) : getGroup s a b = some g := by
  unfold issuing at h
  split at h
  · split at h
    · split at h
      · rename_i h1 _ _; rw [h1]; cases h; rfl
      · cases h
    · cases h
  · cases h
/-- A fetch holds its group or leaves it. -/
theorem getGroup_fetch {s : State} {a b : Nat} {g : Group} (h : getGroup s a b = some g) :
    ∃ v, getGroup (s.fetch a b) a b = some { g with fetching := v } := by
  unfold State.fetch
  rw [h]
  dsimp only
  split
  · exact ⟨g.fetching, h⟩
  · exact ⟨true, assoc_map_same s.tile.groups (gKey a b) (fun g => { g with fetching := true }) g h⟩
theorem getGroup_fetch_ne {s : State} {a b i j : Nat} (h : gKey i j ≠ gKey a b) : getGroup (s.fetch a b) i j = getGroup s i j := by
  unfold State.fetch
  split
  · rfl
  · split
    · rfl
    · exact assoc_map_ne s.tile.groups _ _ (fun g => { g with fetching := true }) h
theorem fetch_frame (s : State) (a b : Nat) : s.fetch a b = { s with tile := { s.tile with
    groups := (s.fetch a b).tile.groups, fetchMiss := (s.fetch a b).tile.fetchMiss } } := by
  unfold State.fetch
  split
  · rfl
  · split <;> rfl
theorem getGroup_retire {s : State} {a b c d : Nat} {g : Group} (f) (h : getGroup s a b = some g) :
    ∃ v, getGroup (s.retire a b c d f) a b = some { (f g).advance with fetching := v } :=
  getGroup_fetch (getGroup_mod _ h)
theorem getGroup_retire_ne {s : State} {a b c d i j : Nat} (f) (h : gKey i j ≠ gKey a b) :
    getGroup (s.retire a b c d f) i j = getGroup s i j := (getGroup_fetch_ne h).trans (getGroup_mod_ne _ h)
theorem retire_frame (s : State) (a b c d : Nat) (f) : s.retire a b c d f = { s with tile := { s.tile with
    groups := (s.retire a b c d f).tile.groups, lastSlot := (s.retire a b c d f).tile.lastSlot
    nextIssue := (s.retire a b c d f).tile.nextIssue, fetchMiss := (s.retire a b c d f).tile.fetchMiss } } := by
  have h := fetch_frame ((s.issued a b c d).modGroup a b fun g => (f g).advance) a b
  unfold State.retire
  rw [h]
  rfl
theorem writeLanes_eq (g : Group) (code : Nat) (ls : List Nat) (r : Nat → W32) :
    ls.foldl (fun (h : Group) l => h.writeDst code l (r l)) g =
      { g with regs := if code < 0x80 then ls.foldl (fun m l => mset 0 m (32 * code + l) (r l)) g.regs else g.regs,
               rc := if 0x80 ≤ code ∧ code < 0x86 then ls.foldl (fun m l => mset 0 m (32 * (code - 0x80) + l) (r l)) g.rc else g.rc } := by
  induction ls generalizing g with
  | nil => simp
  | cons l ls ih =>
    rw [List.foldl_cons, ih]
    unfold Group.writeDst
    by_cases h1 : code < 0x80
    · have : ¬ (0x80 ≤ code ∧ code < 0x86) := by omega
      simp [h1, this]
    · by_cases h2 : code < 0x86
      · have h3 : 0x80 ≤ code ∧ code < 0x86 := by omega
        simp [h1, h2, h3]
      · have h3 : ¬ (0x80 ≤ code ∧ code < 0x86) := by omega
        simp [h1, h2]
theorem mget_append {β : Type} (d : β) (a b : NMap β) (k : Nat) (h : ∀ e ∈ a, e.1 ≠ k) : mget d (a ++ b) k = mget d b k := by
  induction a with
  | nil => rfl
  | cons e m ih =>
    rw [List.cons_append, mget, if_neg (h e List.mem_cons_self), ih (fun x hx => h x (List.mem_cons_of_mem _ hx))]
theorem mget_append_of {β : Type} (d : β) (a b : NMap β) (k : Nat) (h : ∀ e ∈ b, e.1 ≠ k) : mget d (a ++ b) k = mget d a k := by
  induction a with
  | nil =>
    rw [List.nil_append]
    have := mget_append d b [] k h
    rw [List.append_nil] at this; exact this
  | cons e m ih => rw [List.cons_append, mget, mget, ih]
theorem mget_filter {β : Type} (d : β) (p : Nat → Bool) (a : NMap β) (k : Nat) (h : p k = true) : mget d (a.filter fun e => p e.1) k = mget d a k := by
  induction a with
  | nil => rfl
  | cons e m ih =>
    rw [List.filter_cons]
    split
    · rw [mget, mget, ih]
    · rename_i h1
      rw [mget, if_neg (fun h2 : e.1 = k => h1 (by rw [h2]; exact h)), ih]
theorem mem_filter_ne {β : Type} (p : Nat → Bool) (a : NMap β) (k : Nat) (h : p k = false) : ∀ e ∈ (a.filter fun e => p e.1), e.1 ≠ k := by
  intro e he h1
  have := (List.mem_filter.mp he).2
  rw [h1, h] at this; cases this
theorem keepFrom_rc (g kept : Group) (w cycle key : Nat) : mget 0 (g.keepFrom kept w cycle).rc key =
    if fKeep w = true ∧ key / 32 = fKslot w then mget 0 kept.rc key else mget 0 g.rc key := by
  unfold Group.keepFrom
  by_cases hk : fKeep w = true
  · rw [if_pos hk]
    have : ∀ (h : Group) c d, (h.setReady c d).rc = h.rc := by intro h c d; unfold Group.setReady; split <;> rfl
    rw [this]
    show mget 0 (_ ++ _ ++ _) key = _
    by_cases h1 : key / 32 = fKslot w
    · rw [if_pos ⟨hk, h1⟩]
      rw [mget_append_of _ _ _ _ (mem_filter_ne (fun k => decide (fKslot w < k / 32)) _ _ (by simp [h1]))]
      rw [mget_append _ _ _ _ (mem_filter_ne (fun k => decide (k / 32 < fKslot w)) _ _ (by simp [h1]))]
      exact mget_filter 0 (fun k => k / 32 == fKslot w) _ _ (by simp [h1])
    · rw [if_neg (fun x => h1 x.2)]
      rw [List.append_assoc]
      by_cases h2 : key / 32 < fKslot w
      · rw [mget_append_of]
        · exact mget_filter 0 (fun k => decide (k / 32 < fKslot w)) _ _ (by simp [h2])
        · intro e he
          rcases List.mem_append.mp he with he | he
          · exact mem_filter_ne (fun k => k / 32 == fKslot w) _ _ (by simp [h1]) e he
          · exact mem_filter_ne (fun k => decide (fKslot w < k / 32)) _ _ (by simp; omega) e he
      · rw [mget_append _ _ _ _ (mem_filter_ne (fun k => decide (k / 32 < fKslot w)) _ _ (by simpa using h2))]
        rw [mget_append _ _ _ _ (mem_filter_ne (fun k => k / 32 == fKslot w) _ _ (by simpa using h1))]
        exact mget_filter 0 (fun k => decide (fKslot w < k / 32)) _ _ (by simp; omega)
  · rw [if_neg hk, if_neg (fun x => hk x.1)]
theorem setReady_same (h : Group) (c d) : h.setReady c d = { h with ready := (h.setReady c d).ready } := by unfold Group.setReady; split <;> rfl
theorem keepFrom_same (g kept : Group) (w c) : g.keepFrom kept w c = { g with rc := (g.keepFrom kept w c).rc, ready := (g.keepFrom kept w c).ready } := by
  unfold Group.keepFrom; split
  · unfold Group.setReady; split <;> rfl
  · rfl
theorem setReady_regs (h : Group) (c d) : (h.setReady c d).regs = h.regs := by rw [setReady_same]
theorem setReady_rc (h : Group) (c d) : (h.setReady c d).rc = h.rc := by rw [setReady_same]
theorem keepFrom_regs (g kept : Group) (w c) : (g.keepFrom kept w c).regs = g.regs := by rw [keepFrom_same]
theorem applyKeep_rc (g : Group) (w tile slot beat cycle : Nat) (r : Option (Nat → W32)) (hk : fKeep w = true) (h6 : fKslot w < 6) (hr : fKsel w = 0 → r.isSome) :
   (g.applyKeep w tile slot beat cycle r).rc = (lanesOf (g.active w)).foldl (fun m l => mset 0 m (32 * fKslot w + l)
          (if fKsel w = 0 then (r.getD fun _ => 0) l else g.keepSource w tile slot beat l)) g.rc := by
  unfold Group.applyKeep
  rw [if_pos hk]
  simp only [setReady_rc]
  have h : ∀ (v : Nat → W32), ((lanesOf (g.active w)).foldl (fun (h : Group) l => h.writeDst (0x80 + fKslot w) l (v l)) g).rc = (lanesOf (g.active w)).foldl (fun m l => mset 0 m (32 * fKslot w + l) (v l)) g.rc := by
    intro v; rw [writeLanes_eq]
    show (if _ then _ else _) = _
    rw [if_pos (by omega)]
    simp
  by_cases hs : fKsel w = 0
  · simp only [hs, if_true]
    cases r with
    | none => have := hr hs; cases this
    | some r => exact h r
  · simp only [hs, if_false]
    exact h _
theorem getGroup_issued_mod {s : State} {a b c d : Nat} {g : Group} (f) (h : getGroup s a b = some g) :
    getGroup ((s.issued a b c d).modGroup a b f) a b = some (f g) := getGroup_mod _ h
theorem assoc_foldl_assocSet (ws : List (BitVec 64)) (K : Nat) (m : List (Nat × BitVec 64)) (i : Nat) (w : BitVec 64) (h : ws[0]? = some w) :
    assoc ((ws.zipIdx i).foldl (fun m e => assocSet m (K + e.2) e.1) m) (K + i) = some w := by
  have same : ∀ (l : List (Nat × BitVec 64)) k g, assoc (assocSet l k g) k = some g := by
    intro l k g
    induction l with
    | nil => simp [assocSet, assoc]
    | cons e m ih => 
      unfold assocSet; split
      · simp [assoc]
      · split
        · simp [assoc]
        · rename_i h1 h2; simp [assoc, Ne.symm h2, ih]
  have other : ∀ (l : List (Nat × BitVec 64)) k j g, j ≠ k → assoc (assocSet l k g) j = assoc l j := by
    intro l k j g hj
    induction l with
    | nil => simp [assocSet, assoc, Ne.symm hj]
    | cons e m ih => 
      unfold assocSet; split
      · simp [assoc, Ne.symm hj]
      · split
        · rename_i h1 h2; subst h2; simp [assoc, Ne.symm hj]
        · simp [assoc, ih]
  have rest : ∀ (ws : List (BitVec 64)) j m, i < j → assoc ((ws.zipIdx j).foldl (fun m e => assocSet m (K + e.2) e.1) m) (K + i) = assoc m (K + i) := by
    intro ws
    induction ws with
    | nil => intro j m h; rfl
    | cons x xs ih =>
      intro j m h
      rw [List.zipIdx_cons, List.foldl_cons, ih _ _ (by omega), other _ _ _ _ (by simp; omega)]
  cases ws with
  | nil => cases h
  | cons x xs =>
    rw [List.zipIdx_cons, List.foldl_cons, rest _ _ _ (by omega), same]
    exact h

/-! ## The Granary -/

theorem find?_map_invariant {α : Type} (p : α → Bool) (f : α → α) (hp : ∀ x, p (f x) = p x) (l : List α) : (l.map f).find? p = (l.find? p).map f := by
  induction l with
  | nil => rfl
  | cons a as ih =>
    rw [List.map_cons, List.find?_cons, List.find?_cons, hp]
    cases p a <;> simp [ih]
theorem findLine_modLine (s : State) (a b : Nat) (f : GLine → GLine) (hf : ∀ l, (f l).line = l.line ∧ (f l).part = l.part) (l : GLine)
    (h : findLine s a b = some l) : findLine (s.modLine a b f) a b = some (f l) := by
  unfold findLine at *
  show List.find? _ (List.map _ _) = _
  rw [find?_map_invariant (fun l : GLine => l.line == a && l.part == b) (fun l => if l.line = a ∧ l.part = b then f l else l) ?_ _, h]
  · have := List.find?_some h; simp only [Bool.and_eq_true, beq_iff_eq] at this
    simp [this]
  · intro x; split <;> simp [hf]
theorem findLine_key {s : State} {a b : Nat} {l : GLine} (h : findLine s a b = some l) : l.line = a ∧ l.part = b := by
  have := List.find?_some h; simpa using this
theorem trackHit_mem (s a p) : (trackHit s a p).mem = s.mem := by unfold trackHit; split <;> rfl
theorem trackHit_tile (s a p) : (trackHit s a p).tile = s.tile := by unfold trackHit; split <;> rfl
theorem trackHit_lines (s a p) : (trackHit s a p).grn.lines = s.grn.lines := by unfold trackHit; split <;> rfl
theorem trackHit_win (s a p) : (trackHit s a p).grn.win = s.grn.win := by unfold trackHit; split <;> rfl
theorem trackHit_reqs (s a p) : (trackHit s a p).grn.reqs = s.grn.reqs := by unfold trackHit; split <;> rfl
theorem trackHit_clock (s a p) : (trackHit s a p).grn.clock = s.grn.clock := by unfold trackHit; split <;> rfl

/-! ## The tray -/

theorem larkspur_started {s : State} (h : s.tray.started = true) (f) : larkspur s f = f s := by simp [larkspur, h]
theorem command_started {s : State} (h : s.tray.started = true) (f) : command s true f = f s := by simp [command, larkspur, h]
theorem slotSt_get (s : State) (k : Fin 8) : slotSt s k = s.tray.slot[k] := by simp [slotSt, vat_get]
theorem modSlot_eq (s : State) (k : Fin 8) (f) : s.modSlot k f = { s with tray := { s.tray with slot := s.tray.slot.set k (f s.tray.slot[k]) } } := by
  simp [State.modSlot, State.modTray, vmodN_set]

end Sys2Proof.Laws
end

