-- ==== Sys2Proof/Machine/Pins.lean ====
section
/-! DEFINITION. The package's pins at 1.8 V (18): what it drives on them, and the test access port that reads them (R622 to R628, R647). -/

namespace Sys2Proof.Machine

/-- The 1.8 V CMOS pins of Table 18-2, without those of the test access port itself (log 139). -/
inductive Pin where
  | perst | resetN | pkgGood | faultN | thermtripN
  | vrEn (d : Fin 64) | vrPg (d : Fin 64)
  | avsClk | avsMdata | avsSdata
  | spiClk | spiCsN | spiIo (i : Fin 4)
  deriving DecidableEq, Repr

/-- What the package does with a pin: it drives a level, leaves it high-impedance, drives what its bus carries, or reads it. -/
inductive Drive where
  | level (high : Bool)
  | released
  | bus
  | input
  deriving DecidableEq, Repr

/-- The package drives the SPI pins (R626). -/
def drivesSpi (s : State) : Bool := s.rst.resetN && s.rst.perst && !s.rst.lockout

/-- An open-drain output: low when asserted, else released (Table 18-2). -/
def openDrain (asserted : Bool) : Drive := if asserted then .level false else .released

/-- What the package does with a pin while VDDIO_AON is on (Tables 18-2 and 18-5). -/
def Pin.driveOn (s : State) : Pin → Drive
  | .pkgGood => .level s.rst.pkgGood
  | .faultN => openDrain (!s.rst.faultN)
  | .thermtripN => openDrain s.rst.thermtrip
  | .vrEn d => .level (s.rst.vrEn.getLsbD d)
  | .avsClk => .bus
  | .avsMdata => .bus
  | .spiClk => if drivesSpi s then .bus else .released
  | .spiCsN => if drivesSpi s then .bus else .released
  | .spiIo _ => if drivesSpi s then .bus else .released
  | .perst => .input
  | .resetN => .input
  | .vrPg _ => .input
  | .avsSdata => .input

/-- What the package does with a pin: without VDDIO_AON every 1.8 V output is high-impedance (R624). -/
def Pin.drive (s : State) (p : Pin) : Drive :=
  match p.driveOn s with
  | .input => .input
  | d => if s.rst.aon then d else .released

/-- The level that a reader sees of a status output through the pulls of R625; none where a bus carries it or nothing is fitted. -/
def Pin.level (s : State) (p : Pin) : Option Bool := match p, p.drive s with
  | _, .level b => some b
  | .pkgGood, .released => some false
  | .vrEn _, .released => some false
  | .faultN, .released => some true
  | .thermtripN, .released => some true
  | .perst, _ => some s.rst.perst
  | .resetN, _ => some s.rst.resetN
  | .vrPg d, _ => some (s.rst.vrPg.getLsbD d)
  | _, _ => none

/-- The rails of Table 18-3 by index. -/
def railIndexes : List (Fin 64) := (List.finRange 64).filter fun d => railExists d

/-- The boundary-scan chain covers every 1.8 V CMOS pin (R628); the order is the model's (log 139). -/
def boundaryChain : List Pin :=
  [.perst, .resetN, .pkgGood, .faultN, .thermtripN] ++ railIndexes.map .vrEn ++ railIndexes.map .vrPg ++
    [.avsClk, .avsMdata, .avsSdata, .spiClk, .spiCsN] ++ (List.finRange 4).map .spiIo

/-- What the boundary-scan register captures: the level of each pin of its chain, none where the model holds no level. -/
def boundaryCapture (s : State) : List (Option Bool) := boundaryChain.map (Pin.level s)

end Sys2Proof.Machine
end

