-- ==== Sys2Proof/WellFormed.lean ====
section
/-! DEFINITION. Which commands are well formed: the operands have the shape that the event they stand for gives them. A command that
is not well formed stands for no event of the block. -/

namespace Sys2Proof

/-- A ring flit carries at most 64 bytes of payload (R430). -/
def RingFlit.wf (f : RingFlit) : Bool := decide (f.vals.length ≤ 16) && decide (f.planId < 2 ^ 16)

/-- A reduction flit carries 64 bytes unless it is POISON (R239). -/
def RedFlit.wf (f : RedFlit) : Bool := f.poison || decide (f.bytes.length = 64)

/-- What a slot runs has operands of the widths of its record. -/
def SlotAction.wf : SlotAction → Bool
  | .launch _ _ _ _ _ args => decide (args.length ≤ 8)
  | .collective _ _ _ _ root _ _ => decide (root < 1024)
  | _ => true

/-- The command's operands have the shape of its event. -/
def Instr.wf : Instr → Bool
  | .slotStart _ _ actions => actions.all SlotAction.wf
  | .icacheFill _ _ words => decide (words ≤ 32)
  | .granaryFill _ bursts => decide (bursts.length = 8)
  | .stackPatrol _ bursts => decide (bursts.length = 8)
  | .thresherInput _ _ _ flit => flit.wf
  | .consensusWordReceive _ bytes => decide (bytes.length = 32)
  | .updateWordReceive _ bytes => decide (bytes.length = 32)
  | .ringFlitReceive _ flit => flit.wf
  | .bar2Write _ _ data _ => decide (0 < data.length)
  | .bar2Read _ _ len => decide (0 < len)
  | .registerWrite _ off size value => decide (off < 2 ^ 24) && [1, 2, 4, 8].contains size && decide (value.toNat < 256 ^ size)
  | .coolingUpdate temps => decide (temps.length = 8)
  | _ => true

end Sys2Proof
end

