-- ==== Sys2Proof/Tests/Slice0.lean ====
section
/-! SUPPORT. Tests on small states: what WellFormed refuses, states and operands that meet the hypotheses of every statement, and a
few results worked out by hand from the manual. Each is one step on the state `up` or a part of it. -/

namespace Sys2Proof.Tests

open Sys2Proof Sys2Proof.Machine

set_option Elab.async false

/-! ## A small running package -/

/-- Partition 0 of the test structure: sheaf 0, the 64 pseudo-channels of stack 0, engines 0 and 1. -/
def part0 : PartDesc where
  part := 0
  enabled := true
  deadreadFault := false
  ring := true
  c0 := true
  vf := 0
  grWays := 4
  share := 1
  ctxBase := 0
  ctxCount := 100
  dmaMask := 3
  sheafMask := 1
  channelMask := 0xFFFFFFFFFFFFFFFF

/-- A plan of one tile for ten beats with one slot of four. -/
def plan1 : PlanRec where
  id := 1
  codeId := 7
  tiles := 1
  part := 0
  variant := 0
  collective := false
  grades := [{ grade := 0, fgBeats := 10, tiles := [5], refs := [], slots := [{ off := 0, beats := 4, cycles := 4000 }] }]

/-- A collective plan. -/
def plan2 : PlanRec := { plan1 with id := 2, collective := true }

/-- The structure in force. -/
def str1 : Structure where
  hash := 0
  compatClass := 1
  minor := 0
  c0Period := 100
  parts := [part0]
  windows := []
  degrade := none
  trees := []
  compat := []
  budgets := []
  mcasts := []
  plans := [plan1, plan2]
  codes := [{ id := 7, part := 0, addr := 0x1000, image := [] }]
  seq := none
  refresh := none
  optable := none
  dieShare := []

/-- A package after its wake: the link is up, the dies are powered, beat 5,000 of a LOCKED tempo. -/
def up : State := { State.reset with
  str := some str1
  hif := { State.reset.hif with linkUp := true }
  rst := { State.reset.rst with
    resetN := true, perst := true, done := true, pkgGood := true, vrEn := 0xFFFFFFFFFF, vrPg := 0xFFFFFFFFFF
    die := Vector.replicate 4 { powered := true } }
  tmp := { State.reset.tmp with counting := true, beat := 5000, mode := .locked }
  stp := { State.reset.stp with part := Vector.replicate 8 { state := .active } }
  mem := { State.reset.mem with stack := Vector.replicate 8 { trained := true } } }

/-- A command answers a next state with a property. -/
def after (c : Instr) (s : State) (p : State → Bool) : Bool := match exec c s with
  | .next t => p t
  | _ => false

/-- A step answers a next state with a property. -/
def stepped (s : State) (p : State → Bool) : Bool := match step s with
  | .next t => p t
  | _ => false

/-! ## What WellFormed and the decoder refuse -/

theorem test_slotStart_args : (Instr.slotStart 0 0 [.launch 0 0 0 0 0 (List.replicate 9 0)]).wf = false := by decide

theorem test_slotStart_root : (Instr.slotStart 0 0 [.collective .broadcast .x true 1 1024 0 0]).wf = false := by decide

theorem test_icacheFill_words : (Instr.icacheFill 0 0 33).wf = false := by decide

theorem test_granaryFill_bursts : (Instr.granaryFill 0 (List.replicate 7 .clean)).wf = false := by decide

theorem test_stackPatrol_bursts : (Instr.stackPatrol 0 (List.replicate 9 .clean)).wf = false := by decide

theorem test_thresherInput_bytes : (Instr.thresherInput 0 0 0 { poison := false, bytes := [0] }).wf = false := by decide

theorem test_consensusWord_bytes : (Instr.consensusWordReceive 0 [0]).wf = false := by decide

theorem test_updateWord_bytes : (Instr.updateWordReceive 0 [0]).wf = false := by decide

theorem test_ringFlit_vals : (Instr.ringFlitReceive 0
    { red := true, part := 0, planId := 1, start := 0, chunk := 0, index := 0, poison := false, vals := List.replicate 17 0 }).wf = false := by
  decide

theorem test_ringFlit_plan : (Instr.ringFlitReceive 0
    { red := true, part := 0, planId := 65536, start := 0, chunk := 0, index := 0, poison := false, vals := [0] }).wf = false := by decide

theorem test_bar2Write_empty : (Instr.bar2Write 0 0 [] false).wf = false := by decide

theorem test_bar2Read_empty : (Instr.bar2Read 0 0 0).wf = false := by decide

theorem test_registerWrite_off : (Instr.registerWrite 0 0x1000000 4 0).wf = false := by decide

theorem test_registerWrite_size : (Instr.registerWrite 0 0 3 0).wf = false := by decide

theorem test_registerWrite_value : (Instr.registerWrite 0 0 4 0x100000000).wf = false := by decide

theorem test_coolingUpdate_temps : (Instr.coolingUpdate [none]).wf = false := by decide

theorem test_wf_accepts : (Instr.bar2Read 0 0 1).wf = true ∧ (Instr.registerWrite 0 0xFFFFFC 4 0xFFFFFFFF).wf = true := by decide

/-- The table gives no row any bits, so no word spells a command. -/
theorem test_decode_none : decodeTableWord 0 0 = none ∧ decodeTableWord 32 0xFFFFFFFF = none := by decide

/-- With nothing decoded, no command is put in front. -/
theorem test_withFetchWord : up.withFetchWord 32 1 = up := rfl

/-! ## Witnesses: the queue and every step -/

/-- `up` with a command at the front of its queue and another behind it. -/
def queued : State := { up with pending := [.coolingWatchdogExpiry 5, .holdoverExit] }

theorem witness_StepRunsFrontCommand : queued.pending = .coolingWatchdogExpiry 5 :: [.holdoverExit] := by decide

theorem witness_StepTakesOneCommand : stepped queued (fun t => t.pending == [.holdoverExit]) = true := by decide +kernel

theorem witness_StepKeepsMemoryCanonical : queued.mem.wf = true ∧
    stepped { queued with mem := { queued.mem with cells := [(3, 7)] } } (fun t => t.mem.wf) = true := by decide +kernel

theorem witness_StepKeepsCoolingFull : coolingHeld { up.tray with wdHold := true, cool0 := 30, cool1 := 30, fans := 30 } = true ∧
    stepped queued (fun t => t.tray.wdHold && coolingHeld t.tray) = true := by decide +kernel

theorem witness_FusesChangeOnlyByKeyop : (∀ good data, Instr.holdoverExit ≠ .sldReadDone good data) ∧
    after .holdoverExit up (fun t => t.fuses == up.fuses) = true := by
  exact ⟨fun _ _ h => (nomatch h), by decide +kernel⟩

theorem witness_CoolingChangesOnlyByCoolingCommands :
    after (.coolingWatchdogExpiry 5) up (fun t => decide (t.tray.cool0 ≠ up.tray.cool0)) = true := by decide +kernel

theorem witness_KeySlotMoves : stepped queued (fun t => t.fuses.keyState[(0 : Fin 4)] == .empty) = true := by decide +kernel

/-! ## Witnesses: tempo -/

/-- A member that aligns on link group 2, with the marker of its last frame. -/
def ringUp : State := { up with
  rhl := { up.rhl with rank := some (5, 2), state := .member, members := [1, 42], master := some 1, link := up.rhl.link.set 2 { state := .up } }
  tmp := { up.tmp with alignLink := 2, linkDelay := up.tmp.linkDelay.set 2 (some 30), marker := some { link := 2, beatNo := 7168, atTicks := 0, atBeat := 4095 } } }

theorem witness_BeatBoundaryCounts : up.tmp.counting = true ∧ (5001 : Nat) % 1024 ≠ 0 ∧
    (5001 : Nat) = (if up.tmp.realignArmed = true ∧ up.tmp.realign = .skip then up.tmp.beat + 2
      else if up.tmp.realignArmed = true ∧ up.tmp.realign = .hold then up.tmp.beat else up.tmp.beat + 1) := by decide

theorem witness_BeatNowReads : up.hif.linkUp = true ∧ decodes up 0 = true := by decide +kernel

theorem witness_ReferenceLoss : up.tmp.mode = .locked ∧ 200 < (201 : Int).natAbs ∧ 200 < (-201 : Int).natAbs ∧ (-200 : Int).natAbs ≤ 200 := by
  decide

theorem witness_LeavingHoldoverAndFenced :
    (let s := { up with tmp := { up.tmp with mode := .holdover, validBeats := 16 } }; s.tmp.mode = .holdover ∧ 16 ≤ s.tmp.validBeats) ∧
    (let s := { up with tmp := { up.tmp with mode := .fenced, validBeats := 1024 } }
     s.tmp.mode = .fenced ∧ s.tmp.counting = true ∧ 1024 ≤ s.tmp.validBeats) := by decide

theorem witness_HoldoverEndsFenced :
    let s := { up with tmp := { up.tmp with mode := .holdover, holdoverLeft := 0 } }; s.tmp.mode = .holdover ∧ s.tmp.holdoverLeft = 0 := by
  decide

theorem witness_MarkerAligns : ringUp.tmp.counting = true ∧ linkLive (linkSt ringUp (2 : Link)).state = true ∧ alignsOn ringUp (2 : Link) = true ∧
    ringUp.tmp.linkDelay[(2 : Link)] = some 30 ∧ ringUp.rhl.state = .member := by decide +kernel

theorem witness_RealignArmsAtGuardBeat :
    (let s := { up with tmp := { up.tmp with beat := 5119, realign := .hold } }
     s.tmp.counting = true ∧ s.tmp.realign = .hold ∧ bInF s.tmp.beat = 1023) ∧
    (let s := { up with tmp := { up.tmp with beat := 5118, realign := .skip } }
     s.tmp.counting = true ∧ s.tmp.realign = .skip ∧ bInF s.tmp.beat = 1022 ∧ announcedFor s (frameOf s.tmp.beat + 1) = false) := by decide +kernel

theorem witness_BeatNumberLoadTakesMasterCount :
    let s := { ringUp with tmp := { ringUp.tmp with beat := 5120, realign := .load } }
    s.tmp.marker = some { link := 2, beatNo := 7168, atTicks := 0, atBeat := 4095 } ∧ s.tmp.linkDelay[(2 : Link)] = some 30 ∧
      s.tmp.counting = true ∧ s.tmp.realign = .load ∧ ownState s = .member ∧ ownMaster s ≠ ownRank s ∧ s.tmp.beat % 1024 = 0 ∧
      (4095 : Nat) ≠ s.tmp.beat := by decide +kernel

/-! ## Witnesses: steps and partitions -/

/-- A step of partition 0 that is placed at beat 5,000. -/
def step1 : Step where
  id := 1
  part := 0
  cls := 1
  planId := 1
  runPlan := 1
  irq := true
  ordered := false
  ingest := false
  ctxFirst := 0
  ctxCount := 0
  argAddr := 0
  tag := 5
  notBefore := 0
  readBeat := 0
  phase := .placed
  start := 5000
  grade := 0
  begun := []
  running := []
  delays := []
  overrun := 0
  charge := 0
  fault := none
  faultAt := none
  dlMiss := false
  tokenHeld := false
  slip := false
  snap := none
  snapCode := none
  dstep := 0

/-- `up` with some steps. -/
def withSteps (xs : List Step) : State := { up with stp := { up.stp with steps := xs } }

/-- The step in flight. -/
def live1 : Step := { step1 with phase := .live }

/-- A C0 step that waits. -/
def c0Step : Step := { step1 with cls := 0, phase := .read }

/-- Beat 5,121 is the first C0 slot start of frame 5; only partition 0 is active. -/
def c0Up : State := { withSteps [c0Step] with
  tmp := { up.tmp with beat := 5121 }
  stp := { (withSteps [c0Step]).stp with part := (Vector.replicate 8 {}).set 0 { state := .active } } }

/-- A whole line of partition 0 in the Granary, clean, with these first bytes. -/
def held (line : Nat) (b : List Byte) : GLine :=
  { line := line, part := 0, way := 0, data := b ++ List.replicate (256 - b.length) 0, valid := BitVec.allOnes 256, dirty := 0, win := none
    used := 0, inserted := 0 }

/-- A queue that holds a descriptor of plan 1 at its head, in device memory at 0x2000, and in its slice. -/
def descUp : State := { up with
  stp := { up.stp with queue := up.stp.queue.set 1 { base := 0x2000, tail := 1 } }
  mem := { up.mem with cells := [(0x2000, 1)] }
  grn := { up.grn with lines := [held 0x20 [1]] } }

theorem witness_DoorbellSetsTail : up.hif.linkUp = true ∧ decodes up 0 = true ∧ mayPart up 0 0 = true ∧ servingFn up 0 = 0 ∧
    (2 ^ (queueSt up 0).size.toNat ≤ (0x00000010 : W32).toNat % 4096) ∧
    (¬(2 ^ (queueSt up 1).size.toNat ≤ (0x4000000F : W32).toNat % 4096 ∨ up.stp.part[(0 : Part)].state = .disabled ∨
      up.stp.part[(0 : Part)].state = .resetting ∨ up.rst.warm = some true)) ∧ (∀ e ∈ up.hif.posted, e.1 ≠ 0) ∧
    (∃ e ∈ [(0, 3)], e.1 = (0 : Nat)) := by decide +kernel

theorem witness_DescriptorBecomesStep : (queueSt descUp 1).head ≠ (queueSt descUp 1).tail ∧ cqFree descUp 0 = true ∧
    descUp.pwr.stage = .run ∧ descUp.rst.warm = none ∧ rangeCode descUp 0 0x2000 64 = none ∧ enginesIdle descUp = true ∧
    rangeHeld descUp 0x2000 64 = true ∧ descChecks descUp 0 1 (heldBytes descUp 0x2000 64) = none := by decide +kernel

theorem witness_StepAdmitted : let s := withSteps [step1]
    getStep s 1 = some step1 ∧ step1.phase = .placed ∧ step1.start ≤ s.tmp.beat ∧ isFg s.tmp.beat = true ∧ admitting s = true ∧
      collectiveStep s step1 = false ∧ partTripped s 0 = false ∧ step1.ingest = false ∧ step1.snapCode = none ∧ stepPlan s step1 = some plan1 ∧
      (∃ g ∈ plan1.grades, chooseGrade s plan1 s.tmp.beat = some g ∧ g.tiles.any (tileHeld s) = false) := by decide +kernel

theorem witness_C0StepAdmittedAtSlotStart : isC0Slot c0Up c0Up.tmp.beat = true ∧ c0Up.tmp.again = false ∧ isFg c0Up.tmp.beat = true ∧
  admitting c0Up = true ∧
    (idx 8 fun k => (partSt c0Up k).state == .active) = [0] ∧ c0Waiting c0Up 0 = [c0Step] ∧ getStep c0Up 1 = some c0Step ∧
    c0Step.notBefore ≤ c0Up.tmp.beat ∧ collectiveStep c0Up c0Step = false ∧ partTripped c0Up 0 = false ∧ c0Step.ingest = false ∧
      c0Step.snapCode = none ∧
    stepPlan c0Up c0Step = some plan1 ∧
    (∃ g ∈ plan1.grades, chooseGrade c0Up plan1 c0Up.tmp.beat = some g ∧ g.tiles.any (tileHeld c0Up) = false) ∧
    ctxsFree c0Up c0Step = true ∧ c0InFlight c0Up < 32 := by decide +kernel

theorem witness_SlotLaunchesGroup : let s := withSteps [live1]
    getStep s 1 = some live1 ∧ slotOf s live1 0 = some { off := 0, beats := 4, cycles := 4000 } ∧
      live1.phase = .live ∧ slotFirst live1 { off := 0, beats := 4, cycles := 4000 } = s.tmp.beat ∧ 0 ∉ live1.begun ∧
        namesTile s live1 (5 : Tile) = true ∧
      getGroup s (5 : Tile) (2 : GSlot) = none ∧
      (s.str.bind fun y => y.codes.find? fun d => d.id == 7 && (d.part == live1.part || d.part == 0xFF)) =
        some { id := 7, part := 0, addr := 0x1000, image := [] } := by decide +kernel

theorem witness_SlotOverrunDelays : ∀ limited : Bool,
    let r : RunSlot := { slot := 0, last := 5003, dies := [0], limited := limited }
    let x := { live1 with begun := [0], running := [r] }
    let s := { withSteps [x] with tmp := { up.tmp with beat := 5003 } }
    getStep s x.id = some x ∧ slotOf s x 0 = some { off := 0, beats := 4, cycles := 4000 } ∧ (x.running.find? fun q => q.slot == 0) = some r ∧
      r.last ≤ s.tmp.beat ∧ slotBusy s x.id 0 = false := by decide +kernel

theorem witness_StepCompletes : let s := { withSteps [live1] with tmp := { up.tmp with beat := 5009 } }
    getStep s 1 = some live1 ∧ live1.part = (0 : Part).val ∧ live1.phase = .live ∧ outstanding s 1 = false ∧ runOver s live1 = true ∧
      runOver (withSteps [live1]) live1 = false ∧ s.hif.linkUp = true := by decide +kernel

theorem witness_ShareAndC0Writes : up.hif.linkUp = true ∧ decodes up 0 = true ∧ (0xFFFF : W32).toNat % 65536 ≠ 0 ∧
    (0x10000 : W32).toNat % 65536 = 0 ∧ c0Period up = 100 ∧ (1 ≤ (98 : W32).toNat % 1024 ∧ (98 : W32).toNat % 1024 ≤ c0Period up - 2) ∧
    (∀ k : Fin 64, (1 : W64).getLsbD k = true → ownsSheaf up (0 : Part) k = true) ∧
    (∃ k : Fin 64, (2 : W64).getLsbD k = true ∧ ownsSheaf up (0 : Part) k = false) := by decide +kernel

theorem witness_PartResetClears : up.hif.linkUp = true ∧ decodes up 0 = true ∧ up.stp.part[(7 : Part)].state ≠ .disabled := by decide +kernel

theorem witness_QueueConfigWrites : up.hif.linkUp = true ∧ decodes up 0 = true ∧ mayPart up 0 0 = true ∧
    (up.stp.queue[(1 : Fin 32)].head = up.stp.queue[(1 : Fin 32)].tail ∧ noSteps up 0 = true) ∧
    descUp.stp.queue[(1 : Fin 32)].head ≠ descUp.stp.queue[(1 : Fin 32)].tail ∧ noSteps (withSteps [step1]) 0 = false ∧
    (partSt up 0).cqHead = (partSt up 0).cqTail := by decide +kernel

/-! ## Witnesses: the loader -/

/-- `up` with an operation of the loader under way. -/
def loading (k : JobKind) (g : JobStage) : State := { up with
  sld := { up.sld with busy := true, job := some { kind := k, src := 0, stage := g, held := [], digest := 0, shadow := none } } }

theorem witness_LoaderStarts : up.hif.linkUp = true ∧ decodes up 0 = true ∧ up.sld.busy = false ∧ up.rst.done = true ∧
    (0 : BitVec 2) ≠ 3 ∧
    (let s := { up with sld := { up.sld with srcAddr := 0x1000, srcLen := 0x10000000 } }
     s.sld.srcAddr.toNat % 4096 = 0 ∧ 256 ≤ s.sld.srcLen.toNat ∧ s.sld.srcLen.toNat ≤ 2 ^ 28) ∧
    (let s := { up with sld := { up.sld with srcAddr := 0x1000, srcLen := 264 } }
     s.sld.srcLen.toNat = 264 ∧ s.sld.srcAddr.toNat % 4096 = 0) := by decide +kernel

theorem witness_LoaderRejectsGo : up.hif.linkUp = true ∧ decodes up 0 = true ∧ (loading .load .header).sld.busy = true ∧
    up.sld.busy = false ∧ up.rst.done = true := by decide +kernel

/-- A container header of 512 bytes in two records for any bin, structure version 1 (Table 3-3). -/
def header : List Byte := leBytes 4 0x594C4253 ++ leBytes 2 1 ++ leBytes 2 256 ++ leBytes 4 512 ++ leBytes 4 2 ++ [0x11, 0, 0, 0] ++
  leBytes 2 1 ++ List.replicate 234 0

theorem witness_LoaderReadDone :
    (∀ k ∈ [JobKind.validate, .load], let s := loading k .header
      (s.sld.job.map (·.kind)) = some k ∧ s.rst.warm = none ∧ vat s.flash.structImage 0 none = none ∧ header.length = 256 ∧
        headStep 2 .hdrBad (headerChecks header none) = none) ∧
    (let s := loading .keyop .keyBlock
     (s.sld.job.map (·.stage)) = some .keyBlock ∧ s.rst.warm = none ∧ vat s.flash.structImage 0 none = none ∧
       keyOperation s.fuses s.sld.nonce [] = none) := by decide +kernel

/-! ## Witnesses: tiles -/

/-- An instruction word by its fields (Table 4-5), always executed: CLS, OP, DST, A, B, C and bits 9 to 0. -/
def word (cls op dst a b c cx : Nat) : Nat :=
  cls * 2 ^ 60 + op * 2 ^ 52 + 7 * 2 ^ 48 + dst * 2 ^ 40 + a * 2 ^ 32 + b * 2 ^ 24 + c * 2 ^ 16 + cx

/-- A group of step 1 at instruction 9 with one active lane; its registers 0 and 1 hold 64 and 0, register 2 holds `x`. -/
def group1 (x : W32) (lanes : W32) : Group where
  id := 77
  part := 0
  step := 1
  cls := 1
  codeBase := 0x1000
  pc := 9
  exec := lanes
  preds := [1, 0, 0, 0, 0, 0, 0]
  regs := [(0, 64), (1, 128), (64, x)]
  rc := []
  ready := []
  predReady := []
  memReady := 0
  loadsBack := 0
  resumeAt := 0
  fetching := false
  hold := .none
  deadline := 6000
  slotEnd := 5100

/-- `up` with that group in slot 2 of tile 5 and a word at its pc in the instruction cache. -/
def tileUp (w : Nat) (g : Group) : State := { withSteps [live1] with
  tile := { up.tile with groups := [(gKey 5 2, g)], icache := [(2 ^ 40 * 5 + 0x1000 / 8 + 9, BitVec.ofNat 64 w)] } }

/-- Slot 2 of tile 5 issues the word in cycle 100 as an instruction of the class. -/
def ready (cls w : Nat) (use : OpUse) (g : Group) : Bool := issuing (tileUp w g) (5 : Tile) (2 : GSlot) 100 cls use == some (g, w)

theorem witness_AluAndConvertWriteActiveLanes :
    (∀ w ∈ [word 0 1 3 0 1 2 0, word 0 1 3 0 1 2 0x200, word 0 1 0x85 0 1 0xFF 0x400, word 0 1 127 0 1 2 0xAC00],
      ready 0 w .plain (group1 1 3) = true ∧ aluOk w = true) ∧
    (∀ w ∈ [word 7 0 3 0 0 0 0, word 7 0 0xFF 0 0 0 0x400], ready 7 w .plain (group1 1 3) = true ∧ convertOk w = true) := by decide +kernel

theorem witness_ControlAndFetch :
    (∀ k ∈ [ControlKind.branch, .setExec, .saveExec, .restoreExec], let w := word 6 0 3 2 0 0 0
      ready 6 w (if k = .restoreExec then .operandA else .plain) (group1 1 3) = true ∧ controlOk w k = true) ∧
    (let s := { tileUp 0 (group1 1 1) with
       tile := { (tileUp 0 (group1 1 1)).tile with icache := [] }, grn := { up.grn with lines := [held 16 []] } }
     getGroup s (5 : Tile) (2 : GSlot) = some (group1 1 1) ∧ fetchWord s (5 : Tile) (group1 1 1) = none ∧ 0 < 1 ∧ enginesIdle s = true ∧
       rangeHeld s ((group1 1 1).codeBase + 8 * (group1 1 1).pc) (8 * 1) = true) := by decide +kernel

theorem witness_MatrixEngine :
    (∀ f ∈ [0, 1, 2, 3, 4, 5], let w := word 1 0 0 0 0 0 (16 * f)
      ready 1 w .mma (group1 1 1) = true ∧ ready 1 w .mxeSt (group1 1 1) = true ∧ mxeOk w = true ∧ lanesOf ((group1 1 1).active w) = [0] ∧
        fFmt w = f ∧
      ownRange (5 : Tile) ((group1 1 1).operand 5 2 5000 0 (fA w)).toNat (32 * mxeRowBytes f) = some 64 ∧
      ownRange (5 : Tile) ((group1 1 1).operand 5 2 5000 0 (fC w)).toNat (mxeScaleBytes f) = some 64) ∧
    (mxeScaled 0 = true ∨ mxeScaled 5 = true) ∧ (mxeScaled 0 = false ∨ mxeScaled 5 = false) ∧
    (let w := word 1 0 0 0 0 0 0; let s := tileUp w (group1 1 1)
     ∀ fp32 : Bool, ownRange (5 : Tile) ((group1 1 1).operand 5 2 5000 0 (fA w)).toNat (mxeStBytes s (5 : Tile) 0 0 fp32).length = some 64 ∧
       ownRange (5 : Tile) ((group1 1 1).operand 5 2 5000 0 (fC w)).toNat 32 = some 64) := by decide +kernel

theorem witness_LocalLoadsAndStores :
    (let w := word 2 0 3 0 2 0 0; let s := tileUp w (group1 7 1)
     (fSize w).getD 4 = 4 ∧ ready 2 w .load (group1 7 1) = true ∧ ready 2 w .store (group1 7 1) = true ∧ localOk w false = true ∧
       localOk w true = true ∧
       lanesOf ((group1 7 1).active w) = [0] ∧ localAddr (group1 7 1) w 5 2 5000 4 0 = 64 ∧ localCheck (5 : Tile) 4 [64] = none ∧
       localTarget (5 : Tile) 64 = some (5, 64) ∧ sbCount s (5 : Tile) < 32 ∧ sbOpen s (5 : Tile) (some 5) 1 = none) ∧
    (let w := word 3 0 3 0 2 0 0; let s := tileUp w (group1 7 1)
     ready 3 w .store (group1 7 1) = true ∧ deviceOk w true = true ∧ deviceAddr (group1 7 1) w 5 2 5000 4 0 = 64 ∧
       deviceCheck s 0 4 [64] = none ∧ lanesOf ((group1 7 1).active w) = [0] ∧ sbCount s (5 : Tile) < 32 ∧
       sbOpen s (5 : Tile) none 1 = none) := by decide +kernel

/-- A store-buffer entry of tile 5. -/
def entry1 (space : Option Nat) (begun : Option Nat) : SbEntry where
  id := 3
  tile := 5
  space := space
  block := 1
  mask := 15
  data := List.replicate 64 7
  taken := 84
  begun := begun
  groups := [77]
  part := 0
  step := 1
  cls := 1
  deadline := none

/-- A load of slot 2 of tile 5 whose line has answered. -/
def load1 (code : Option Code) : Load where
  id := 4
  tile := 5
  slot := 2
  group := 77
  pc := 8
  dst := 3
  keep := none
  size := 4
  lanes := [{ lane := 0, addr := 64, ovl := [] }]
  need := [0]
  got := [(0, List.replicate 256 9)]
  code := code
  partialOvl := false
  slots := 1
  issue := 50
  deadline := none
  demoted := 0

theorem witness_DeviceLoadsAndDrains :
    (let w := word 3 0 3 0 2 0 0; let s := tileUp w (group1 7 1)
     ready 3 w .load (group1 7 1) = true ∧ deviceOk w false = true ∧ (fSize w).getD 4 = 4 ∧
       deviceCheck s 0 4 ((lanesOf ((group1 7 1).active w)).map (deviceAddr (group1 7 1) w 5 2 5000 4)) = none ∧
       lanesOf ((group1 7 1).active w) ≠ []) ∧
    (∀ sp ∈ [none, some 5], let s := { tileUp 0 (group1 7 1) with tile := { (tileUp 0 (group1 7 1)).tile with storeBuf := [entry1 sp none] } }
      (s.tile.storeBuf.filter fun x => x.tile == 5 && x.begun.isNone) = [entry1 sp none] ∧
        (∀ x ∈ s.tile.storeBuf, x.tile = 5 → x.begun ≠ some 100) ∧ (entry1 sp none).taken + 16 ≤ 100) ∧
    (∀ sp ∈ [none, some 5], let e := entry1 sp (some 96)
      let s := { tileUp 0 (group1 7 1) with tile := { (tileUp 0 (group1 7 1)).tile with storeBuf := [e] } }
      (s.tile.storeBuf.find? fun x => x.tile == 5 && x.id == e.id) = some e ∧
        (s.tile.storeBuf.find? fun x => x.tile == e.tile && x.space == e.space && x.block == e.block) = some e ∧
        96 + 4 ≤ 100 ∧ storePending s (5 : Tile) 3 = false) ∧
    (∀ c ∈ [none, some Code.poison], let l := load1 c
      let s := { tileUp 0 (group1 7 1) with tile := { (tileUp 0 (group1 7 1)).tile with loads := [l] } }
      (s.tile.loads.find? fun x => x.id == l.id) = some l ∧ getGroup s (5 : Tile) (2 : GSlot) = some (group1 7 1) ∧ (group1 7 1).id = l.group ∧
        ∀ n ∈ l.need, ∃ e ∈ l.got, e.1 = n) := by decide +kernel

theorem witness_FencesAndTokens :
    (∀ op ∈ [0, 1], let w := word 4 op 0 0 0 0 0; ready 4 w .plain (group1 7 1) = true ∧ fenceOk w = true ∧ fOp w = op ∧
      (group1 7 1).active w ≠ 0 ∧ ready 4 w .plain (group1 7 0) = true ∧ (group1 7 0).active w = 0) ∧
    (∀ op ∈ [0, 1, 2], let w := word 5 op 3 0 2 0 5
      ready 5 w .plain (group1 7 3) = true ∧ tokenOk w = true ∧ fOp w = op ∧ lanesOf ((group1 7 3).active w) = [0, 1] ∧
        tokenIndex (group1 7 3) w 5 2 5000 0 = 5 ∧ ownsSheaf (tileUp w (group1 7 3)) 0 (5 / 64) = true ∧
        (vat (tileUp w (group1 7 3)).fab.die (5 / 1024) {}).reloading = false ∧ (tileUp w (group1 7 3)).tile.tokenTurn = [] ∧
        token (tileUp w (group1 7 3)) 5 = .free ∧ fDst w < 0x80) ∧
    (∀ k ∈ [Token.held 0 5 3 1, .held 0 6 2 1, .held 0 5 2 0], let s := tileUp 0 (group1 7 3)
      let s := { s with tile := { s.tile with tokens := [(5, k)] } }
      token s 5 = k ∧ holdOver s (5 : Tile) (group1 7 3).id .release = true ∧ (group1 7 3).loadsBack ≤ 100 ∧ nextWaiter s 5 = none) ∧
    (let v : TokenWaiter := { token := 5, tile := 5, slot := 2, dst := 3, lanes := 3, limit := some 100, keep := none }
     let s := tileUp 0 (group1 7 3)
     let s := { s with tile := { s.tile with tokenWait := [v] } }
     (s.tile.tokenWait.find? fun x => x.tile == 5 && x.slot == 2) = some v ∧ getGroup s (5 : Tile) (2 : GSlot) = some (group1 7 3)) ∧
    (let s := tileUp 0 (group1 7 3)
     let s := { s with tile := { s.tile with tokens := [(5, .held 0 5 2 1)] } }
     holdsToken s (5 : Tile) (2 : GSlot) = true ∧ getStep s 1 = some live1) := by decide +kernel

/-! ## Witnesses: the Granary and the fabric -/

/-- A request for the first eight bytes of line 0 by partition 0. -/
def req1 (write last : Bool) (src : ReqSrc) : MemReq where
  id := 3
  line := 0
  part := 0
  master := 0
  cls := clsNormal
  deadline := none
  last := last
  write := write
  mask := 0xFF
  data := List.replicate 256 7
  poisoned := false
  die := none
  step := some 1
  src := src

/-- Line 0 with all bytes valid. -/
def gline1 : GLine := { line := 0, part := 0, way := 0, data := List.replicate 256 9, valid := BitVec.allOnes 256, dirty := 0, win := none, used := 0, inserted := 0 }

/-- A miss register of line 0 whose stack read is out, with one stored byte. -/
def miss1 (cls : Nat) : Miss where
  line := 0
  part := 0
  waiters := []
  mask := 1
  data := List.replicate 256 7
  dead := false
  alloc := true
  win := none
  issued := true
  deadline := none
  tagged := false
  master := 0
  cls := cls
  fillData := none
  bad := false
  stores := [(0, 1)]
  steps := [1]

/-- `up` with a request, and perhaps its line. -/
def granaryUp (r : MemReq) (ls : List GLine) : State := { up with grn := { up.grn with reqs := [r], lines := ls } }

/-- A store that goes to the stack itself. -/
def wb1 : WbWait where
  id := 8
  x := 0
  line := 0
  mask := 0xFF
  data := List.replicate 256 7
  poisoned := false
  evict := false
  master := 0
  andThen := .ack (req1 true false (.store 5 3))

theorem witness_GranaryServes_reads :
    (∀ last ∈ [true, false], let r := req1 false last (.load 4); let s := granaryUp r [gline1]
      (s.grn.reqs.find? fun q => q.id == r.id && q.write == false) = some r ∧ r.deadline = none ∧ r.src = .load 4 ∧
        noHome s r = false ∧ wasKilled s r.line r.part = false ∧ linePoisoned s r.line = false ∧ findLine s r.line r.part = some gline1 ∧
        r.mask &&& gline1.valid = r.mask ∧ lineClass s gline1 ≠ clsDead ∧ findMiss s r.line r.part = none) ∧
    (let r := req1 false true (.load 4)
     let s := { granaryUp r [gline1] with grn := { (granaryUp r [gline1]).grn with misses := [miss1 clsNormal] } }
     r.last = true ∧ findMiss s r.line r.part = some (miss1 clsNormal)) ∧
    (let r := req1 false false (.load 4); let s := granaryUp r []
     (s.grn.reqs.find? fun q => q.id == r.id && q.write == false) = some r ∧ r.deadline = none ∧ noHome s r = false ∧
       wasKilled s r.line r.part = false ∧ findLine s r.line r.part = none ∧ findMiss s r.line r.part = none ∧ missFree s r = true ∧
       waiterFree s r = true) := by decide +kernel

theorem witness_GranaryServes : up.grn.jobs = [] ∧
    (∀ cls ∈ [clsNormal, clsStream], let m := miss1 cls; let s := { up with grn := { up.grn with misses := [m] } }
      (s.grn.misses.find? fun x => x.line == m.line && x.issued && x.fillData.isNone) = some m ∧ linePoison s m.line = false ∧
        linePoisonAnswer s m.line = false ∧ s.grn.heldMerge = [] ∧ s.grn.heldPool = [] ∧ findLine s m.line m.part = none ∧
        m.dead = false ∧ m.alloc = true ∧ findWay s (256 * m.line) m.part m.cls false = some none) ∧
    (let r := req1 true false (.store 5 3); let s := granaryUp r [gline1]
     (s.grn.reqs.find? fun q => q.id == r.id && q.write == true) = some r ∧ storeBlocked s r = false ∧ r.src = .store 5 3 ∧
       r.deadline = none ∧ r.poisoned = false ∧ noHome s r = false ∧ linePoisoned s r.line = false ∧ findLine s r.line r.part = some gline1) ∧
    (let s := { up with mem := { up.mem with wbWait := [wb1] } }
     nextWrite s (0 : Fin 512) = some wb1 ∧ wb1.evict = false ∧ wb1.andThen = .ack (req1 true false (.store 5 3)) ∧
       stackTripped s (wb1.x / 64) = false) ∧
    (let s := { up with mem := { up.mem with wbWait := [wb1], stack := up.mem.stack.set 0 { trained := true, tripped := true } } }
     nextWrite s (0 : Fin 512) = some wb1 ∧ stackTripped s (wb1.x / 64) = true) := by decide +kernel

/-- A detected tracker that saw no expected miss since the first beat. -/
def tracker1 : Tracker := { part := 0, lastLine := 0, stride := 1, count := 2, detected := true, used := 0, lastBeat := 0 }

theorem witness_WindowsQuotasTrackers : up.hif.linkUp = true ∧ decodes up 0 = true ∧ winAllowed up 0 [up.grn.win[(63 : Fin 64)].part] = true ∧
    (winAllowed up 0 [up.grn.win[(63 : Fin 64)].part, bitsOf (0x80000003 : W32).toNat 15 8] = true ∧ up.grn.armed = []) ∧
    (winAllowed up 0 [(0 : Part)] = true ∧ bitsOf (0x10103 : W32).toNat 20 16 + bitsOf (0x10103 : W32).toNat 12 8 + 1 ≤ waysOf up 0 ∧
      1 ≤ bitsOf (0x10103 : W32).toNat 4 0 ∧ bitsOf (0x10103 : W32).toNat 4 0 ≤ waysOf up 0) ∧
    (bitsOf (0x10100 : W32).toNat 4 0 = 0) ∧
    (let s := { up with hif := { up.hif with vfEnable := true, numVfs := 8 } }; decodes s 8 = true ∧ winAllowed s 8 [(0 : Part)] = false) ∧
    (let s := { up with grn := { up.grn with slice := up.grn.slice.set 1 { trackers := [some tracker1] } } }
     let s := { s with tmp := { s.tmp with elapsed := 1024 } }
     s.grn.slice[(1 : Die)].trackers[(0 : Fin 32).val]? = some (some tracker1) ∧ tracker1.detected = true ∧
       tracker1.lastBeat + 1024 ≤ s.tmp.elapsed) ∧
    (let s := { up with grn := { up.grn with armed := [(63, {})] } }; s.grn.armed = [((63 : Fin 64).val, {})]) := by decide +kernel

/-- A read request for a node. -/
def flit1 (dest : Nat) : FabFlit := { content := .readRequest, dests := [dest], tag := 9 }

/-- `up` with a flit on its way from node 2 to node 1, and an input port of node 1 for what comes from there. -/
def fabUp (shared escape : List FabFlit) : State := { up with fab := { up.fab with
  transit := [(2, 1, flit1 3)]
  ports := [{ node := 1, port := 2, shared := shared, escape := escape }] } }

/-- A tree of two nodes: node 0 sums the leaves of sheaves 0 and 1, node 1 sends the sum on to tile 0. -/
def tree1 : TreeEntry where
  head := { prio := 0, part := 0, valid := true }
  format := 0
  root := 1
  outCode := 0
  dest := 0
  nodes := [{ ins := [0x00, 0x01, 0xFF, 0xFF], site := 0 }, { ins := [0x80, 0xFF, 0xFF, 0xFF], site := 1 }]

/-- A reduction over that tree with a flit in some slots. -/
def red1 (slots : List (Nat × List RedFlit)) : Red :=
  { id := 6, step := 1, part := 0, tree := 0, flits := 1, slots := slots, rootOut := 0, code := none }

/-- `up` with that reduction. -/
def redUp (r : Red) : State := { withSteps [live1] with str := some { str1 with trees := [tree1] }, fab := { up.fab with reds := [r] } }

/-- A flit of sixteen words. -/
def rflit : RedFlit := { poison := false, bytes := List.replicate 64 1 }

theorem witness_FabricMovesFlits_arrival :
    ((flit1 3).dests ≠ [] ∧ (∀ d ∈ (flit1 3).dests, d ≤ 64) ∧
      ((fabUp [flit1 5] []).fab.transit.find? fun e => e.1 == 2 && e.2.1 == 1) = some (2, 1, flit1 3) ∧
      (fabPort (fabUp [flit1 5] []) 1 2).shared.length < 32) ∧
    (let s := fabUp (List.replicate 32 (flit1 5)) [{ content := .storeAck, dests := [5], tag := 8 }]
     32 ≤ (fabPort s 1 2).shared.length ∧ ∀ y ∈ (fabPort s 1 2).escape, flitClass y ≠ flitClass (flit1 3)) ∧
    (let s := fabUp (List.replicate 32 (flit1 5)) [flit1 5]
     32 ≤ (fabPort s 1 2).shared.length ∧ ∃ y ∈ (fabPort s 1 2).escape, flitClass y = flitClass (flit1 3)) ∧
    (let s := { up with fab := { up.fab with transit := [(2, 1, flit1 3)] } }
     s.fab.ports = [] ∧ s.fab.transit = (if 2 = 1 then [] else [(2, 1, flit1 3)]) ∧
       up.fab.ports = [] ∧ up.fab.transit = (if 1 = 1 then [] else [(1, 1, flit1 1)])) := by
  decide +kernel

theorem witness_FabricMovesFlits :
    (let s := { up with fab := { up.fab with ingWait := [req1 true false (.store 5 3)] } }
     (s.fab.ingWait.find? fun q => homeSlice (256 * q.line) == (0 : Die)) = some (req1 true false (.store 5 3)) ∧
       ∀ q ∈ s.fab.ingWait, homeSlice (256 * q.line) ≠ (1 : Die)) ∧
    (let r := red1 []; let s := redUp r
     (s.fab.reds.find? fun x => x.id == r.id) = some r ∧ redTree s r = some tree1 ∧
       (tree1.inputs 0).find? (fun e => e.1 == (0 : Fin 4).val) = some ((0 : Fin 4).val, 0) ∧ 0 < 0x48 ∧ r.received tree1 0 0 < r.total tree1 ∧
       leafOk s r 0 = true) ∧
    (let r := red1 [(0, [rflit]), (1, [rflit])]; let s := redUp r
     let heads := (tree1.inputs 0).map (fun e => (r.slot 0 e.1).take 1)
     (s.fab.reds.find? fun x => x.id == r.id) = some r ∧ redTree s r = some tree1 ∧ 1 = (if 0 = tree1.root then tree1.perOut else 1) ∧ heads ≠ [] ∧
       (∀ h ∈ heads, h.length = 1 ∧ ∀ f ∈ h, f.poison = false) ∧ 0 ≠ tree1.root ∧ tree1.parent 0 = some (1, 0) ∧
         ∀ e ∈ tree1.inputs 0, 4 * 1 + 0 ≠ 4 * 0 + e.1) ∧
    (let r := red1 [(4, [rflit])]; let s := redUp r
     let heads := (tree1.inputs 1).map (fun e => (r.slot 1 e.1).take 1)
     (s.fab.reds.find? fun x => x.id == r.id) = some r ∧ redTree s r = some tree1 ∧ 1 = (if 1 = tree1.root then tree1.perOut else 1) ∧ heads ≠ [] ∧
       (∀ h ∈ heads, h.length = 1 ∧ ∀ f ∈ h, f.poison = false) ∧ 1 = tree1.root ∧ tree1.outCode < 0x10 ∧
         64 * (bitsOf tree1.dest.toNat 12 0 + r.rootOut) ≤ 0x5FFC0) := by decide +kernel

/-- `up` in a consensus beat, after some reloads of die 2, whose own beat number has come to differ, or not. -/
def reloadsUp (k : Nat) (bad : Option Nat) : State := { up with
  tmp := { up.tmp with beat := 5120, frames := 5 }
  fab := { up.fab with die := up.fab.die.set 2 { reloads := k, badBeat := bad } } }

theorem witness_DieConsensus :
    (∀ k ∈ [2, 3], let s := reloadsUp k (some 5001); let d := s.fab.die[(2 : Die)]
      dieChecked s 2 = true ∧ s.tmp.beat % 1024 = 0 ∧ s.tmp.counting = true ∧ d.reportedAt ≠ some s.tmp.frames ∧ d.reloads = k ∧
        ((none : Option Nat).orElse fun _ => d.badBeat).getD s.tmp.beat ≠ s.tmp.beat) ∧
    (let s := reloadsUp 0 none; let d := s.fab.die[(2 : Die)]
     dieChecked s 2 = true ∧ d.reportedAt ≠ some s.tmp.frames ∧ ((none : Option Nat).orElse fun _ => d.badBeat).getD s.tmp.beat = s.tmp.beat ∧
       ((some 0 : Option W64).orElse fun _ => d.badShare).getD 1 = d.fixedCrcRef) ∧
    (let s := { up with fab := { up.fab with die := up.fab.die.set 2 { reportedAt := some 0 } } }
     dieChecked s 2 = true ∧ s.fab.die[(2 : Die)].reportedAt = some s.tmp.frames) ∧
    (let s := { up with fab := { up.fab with die := up.fab.die.set 2 { reloading := true } } }; s.fab.die[(2 : Die)].reloading = true) := by
  decide +kernel

/-! ## Witnesses: stacks and background work -/

/-- `up` with parity retries under way, three retry slots used in this beat, three exhaustions counted. -/
def retryUp (k : ParityKind) (tries : Nat) : State := { up with mem := { up.mem with
  retries := [{ x := 0, line := 0, kind := k, tries := tries, poisonWrite := false }]
  retryUsed := [(0, 3)], exhaust := [(0, 3)] } }

theorem witness_ParityRetries : ∀ k ∈ [ParityKind.command, .write, .read],
    (chanOf (256 * 0) = (0 : Fin 512).val ∧ chanFailed up (0 : Fin 512) = false ∧ stackTripped up 0 = false ∧
      mget 0 up.mem.retryUsed (0 : Fin 512) < 4 ∧
      1 = (findRetry up (0 : Fin 512) 0 k).elim 1 (·.tries + 1)) ∧
    (chanFailed (retryUp k 1) (0 : Fin 512) = false ∧ mget 0 (retryUp k 1).mem.retryUsed (0 : Fin 512) < 4 ∧
      2 = (findRetry (retryUp k 1) (0 : Fin 512) 0 k).elim 1 (·.tries + 1) ∧ 2 < 3) ∧
    (chanFailed (retryUp k 2) (0 : Fin 512) = false ∧ mget 0 (retryUp k 2).mem.retryUsed (0 : Fin 512) < 4 ∧
      3 = (findRetry (retryUp k 2) (0 : Fin 512) 0 k).elim 1 (·.tries + 1) ∧ 3 ≤ 3 ∧
      readUnderWay (retryUp k 2) 0 = none ∧ directUnderWay (retryUp k 2) 0 = none ∧
      mget 0 (retryUp k 2).mem.exhaust (0 : Fin 512) = 3) := by decide +kernel

/-- A remap of row 7 of the highest bank of pseudo-channel 511. -/
def remap1 (copied active : Bool) : Remap :=
  { order := 2, x := 511, bank := 63, row := 7, spare := 12000, copied := copied, active := active, logged := false }

/-- `up` with that remap. -/
def remapUp (copied active : Bool) : State := { up with mem := { up.mem with cells := [(5, 9)], remap := [remap1 copied active] } }

theorem witness_RemapsAndRefresh :
    (let s := remapUp false false; s.mem.wf = true ∧ (s.mem.remap.find? fun q => q.order == 2 && !q.copied &&
      takesCommands s q.x) = some (remap1 false false) ∧
      (remap1 false false).bank < 64 ∧ physRow s 511 63 7 ≠ (remap1 false false).spare) ∧
    ((remapUp true true).mem.remap.find? fun q => q.order == 2 && q.active && !q.logged) = some (remap1 true true) ∧
    slotDue up 0 0 = true ∧ slotDue up 63 1 = false ∧ (∀ k < 8, refreshed up k = true) ∧
      refreshed { up with mem := { up.mem with stack := Vector.replicate 8 { selfRefresh := true } } } 7 = false := by
  decide +kernel

theorem witness_StackTemperature : sampleDue up (7 : Fin 8) = true ∧
    sampleDue { up with mem := { up.mem with stack := up.mem.stack.set 7 { sampledAt := some 0 } } } (7 : Fin 8) = false ∧
    [90, 94, 91].foldl max (89 : Int) < 95 ∧ 105 ≤ [90, 94, 105].foldl max (89 : Int) ∧ up.mem.stack[(7 : Fin 8)].tripped = false ∧
    (let s := { up with tmp := { up.tmp with elapsed := 1024 } }
     s.mem.stack[(7 : Fin 8)].trained = true ∧ s.mem.stack[(7 : Fin 8)].tempLost = false ∧ s.mem.stack[(7 : Fin 8)].tripped = false ∧
       s.mem.stack[(7 : Fin 8)].lastValidBeat + 1024 ≤ s.tmp.elapsed) ∧
    (let s := { up with tmp := { up.tmp with beat := 5120, elapsed := 5120 }, mem := { up.mem with
        stack := up.mem.stack.set 7 { tripped := true, selfRefresh := true, below95Since := some 4096 } } }
     s.mem.stack[(7 : Fin 8)].tripped = true ∧ s.mem.stack[(7 : Fin 8)].tempLost = false ∧ s.tmp.beat % 1024 = 0 ∧
       s.mem.stack[(7 : Fin 8)].below95Since = some 4096 ∧ 4096 + 1024 ≤ s.tmp.elapsed ∧ s.pwr.stage = .run) := by decide +kernel

/-- `up` with a telemetry ring of the PF one record short of its last, the records of the last frame still to be written. -/
def telUp : State := { up with str := none, tel := { up.tel with due := true, fn := up.tel.fn.set 0 { enable := true, tail := 14 } } }

theorem witness_BackgroundWork :
    (patrols up (511 : Fin 512) = true ∧ lineDue up ((511 : Fin 512).val / 64) = true ∧ up.gln.visited.contains (511 : Fin 512).val = false ∧
      (∃ c < 64, 64 * ((511 : Fin 512).val / 64) + c ≠ (511 : Fin 512).val ∧ patrols up (64 * ((511 : Fin 512).val / 64) + c) = true ∧
        up.gln.visited.contains (64 * ((511 : Fin 512).val / 64) + c) = false)) ∧
    (let s := { up with gln := { up.gln with visited := (List.range 63).map (448 + ·) } }
     patrols s (511 : Fin 512) = true ∧ lineDue s ((511 : Fin 512).val / 64) = true ∧ s.gln.visited.contains (511 : Fin 512).val = false ∧
       ∀ c < 64, 64 * ((511 : Fin 512).val / 64) + c = (511 : Fin 512).val ∨ patrols s (64 * ((511 : Fin 512).val / 64) + c) = false ∨
         s.gln.visited.contains (64 * ((511 : Fin 512).val / 64) + c) = true) ∧
    (let s := { up with grn := { up.grn with lines := [gline1] } }
     sliceOut s (0 : Die) = false ∧ s.tmp.counting = true ∧ setDue s (0 : Die) = true ∧ gline1 ∈ s.grn.lines ∧
       homeSlice (256 * gline1.line) = (0 : Die) ∧
       setIndex (256 * gline1.line) = (sliceSt s (0 : Die)).patrolSet ∧ gline1.dirty = 0) ∧
    (let s := { up with tmp := { up.tmp with beat := 1000000 } }; retrains s = true ∧ s.tmp.beat % 1000000 = 0 ∧
      s.gln.retrainActive = false) ∧
    (telUp.tel.due = true ∧ telUp.tmp.counting = true ∧ telUp.hif.vfEnable = false ∧ telUp.hif.linkUp = true ∧
      telUp.tel.fn[0].enable = true ∧ telUp.tel.fn[0].irqEvery = 0 ∧ telUp.tel.fn[0].size = 4 ∧ telUp.tel.fn[0].tail < 15 ∧
      telUp.tel.fn[0].head = 0 ∧ ringRecords telUp 0 700 = [pkgRecord telUp 700]) := by decide +kernel

/-! ## Witnesses: serving and Trellis -/

/-- A walk of partition 0 in a slot, its tokens at 0x400, its root at 0. -/
def walk1 (slot count : Nat) (place : WalkAt) : Walk where
  slot := slot
  part := 0
  fn := some 0
  step := none
  last := none
  tokensAddr := 0x400
  tokenCount := count
  pathMax := 4
  pathAddr := 0x800
  resultAddr := some 0xC00
  node := 0
  matched := 0
  depth := 0
  partialN := 0
  start := 4990
  at_ := place

/-- `up` with that walk, a node of some flags at address 0 and one of two tokens of value 0 at 256, and the lines of its tokens and result,
all held by their slices. -/
def walkUp (flags : Byte) (w : Walk) : State := { up with
  srv := { up.srv with walks := [w] }
  grn := { up.grn with lines := [held 0 [flags], held 1 [1, 2], held 4 [], held 12 []] } }

/-- `up` with a context of 16 bytes length that no step holds. -/
def ctxUp (sel trunc : Nat) : State := { up with
  hif := { up.hif with vfEnable := true, numVfs := 8 }
  srv := { up.srv with ctx := [(128 * 5 + 8, 16)], fn := up.srv.fn.set 0 { sel := sel, truncLen := BitVec.ofNat 64 trunc } } }

theorem witness_ContextsAndWalks_requests :
    (ctxUp 5 16).hif.linkUp = true ∧ decodes (ctxUp 5 16) 0 = true ∧ decodes (ctxUp 5 16) 8 = true ∧
    ctxAllowed (ctxUp 5 16) 8 (ctxUp 5 16).srv.fn[(8 : Fn)].sel = false ∧
    (ctxAllowed (ctxUp 5 16) 0 (ctxUp 5 16).srv.fn[(0 : Fn)].sel = true ∧ ctxOpen (ctxUp 5 16) 5 = false ∧
      (ctxUp 5 16).srv.fn[(0 : Fn)].truncLen.toNat ≤ ctxField (ctxUp 5 16) (ctxUp 5 16).srv.fn[(0 : Fn)].sel 8 8) ∧
    (let s := { up with grn := { up.grn with lines := [held 0 []] } }
     0 = s.srv.fn[(0 : Fn)].walkReq.toNat ∧ (∀ e ∈ s.hif.posted, e.1 ≠ 0) ∧
       ((chanPart s (chanOf 0)).filter fun p => servingFn s p == 0) = some 0 ∧ rangeCode s 0 0 64 = none ∧ enginesIdle s = true ∧
       rangeHeld s 0 64 = true ∧ freeSlot s ((List.range 6).map (8 * 0 + 2 + ·)) = some 2) ∧
    (let s := { up with hif := { up.hif with posted := [(0, 3)] } }; ∃ e ∈ s.hif.posted, e.1 = (0 : Fn).val) := by decide +kernel

theorem witness_ContextsAndWalks :
    (∀ flags ∈ [0, 1], ∀ count ∈ [0, 2], let w := walk1 63 count .root; let s := walkUp flags w; let b := heldBytes s 0 256
     walkIn s (63 : Fin 64) = some w ∧ rangeCode s w.part 0 256 = none ∧ enginesIdle s = true ∧ rangeHeld s 0 256 = true ∧ w.at_ = .root ∧
       0 = w.node ∧ bitOf (fieldAt b 0 1) 0 = decide (flags = 1) ∧ (w.matched = w.tokenCount ↔ count = 0) ∧
       rangeCode s w.part (w.tokensAddr + 4 * w.matched) 4 = none ∧ rangeHeld s (w.tokensAddr + 4 * w.matched) 4 = true ∧
       ∀ l ∈ linesOf (w.tokensAddr + 4 * w.matched) 4, l ∉ linesOf 0 256) := by decide +kernel

theorem witness_ContextsAndWalks_child :
    (let w := walk1 63 1 (.child 256); let s := walkUp 1 w; let b := heldBytes s 256 256
     let want := 4 * min (fieldAt b 1 1) (w.tokenCount - w.matched)
     walkIn s (63 : Fin 64) = some w ∧ rangeCode s w.part 256 256 = none ∧ enginesIdle s = true ∧ rangeHeld s 256 256 = true ∧
       w.at_ = .child 256 ∧ bitOf (fieldAt b 0 1) 0 = true ∧ bitOf (fieldAt b 0 1) 1 = false ∧ fieldAt b 1 1 ≠ 0 ∧
       rangeCode s w.part (w.tokensAddr + 4 * w.matched) want = none ∧ rangeHeld s (w.tokensAddr + 4 * w.matched) want = true ∧
       (∀ l ∈ linesOf (w.tokensAddr + 4 * w.matched) want, l ∉ linesOf 256 256) ∧
       leadMatch b (heldBytes s (w.tokensAddr + 4 * w.matched) want) (min (fieldAt b 1 1) 16) 0 < fieldAt b 1 1) := by decide +kernel

theorem witness_ContextsAndWalks_ended :
    (∀ c ∈ [Code.ok, .rtkNodeBad], let w := walk1 2 2 (.ended c); let s := walkUp 1 w
      walkIn s (2 : Fin 64) = some w ∧ w.at_ = .ended c ∧ w.resultAddr = some 0xC00 ∧ rangeCode s w.part 0xC00 32 = none ∧
        2 ≤ (2 : Fin 64).val % 8 ∧ enginesIdle s = true ∧ rangeHeld s 0xC00 32 = true) := by decide +kernel

/-- `up` with Trellis slot 63 in some state, a step and perhaps a DEGRADE table. -/
def slotUp (x : TSlot) (xs : List Step) (d : Option (List DegradeEntry)) : State := { withSteps xs with
  hif := { up.hif with vfEnable := true, numVfs := 8 }
  trl := { up.trl with slot := up.trl.slot.set 63 x }
  str := some { str1 with degrade := d } }

/-- A slot of partition 0 with two buffers of 4 KiB. -/
def slot1 : TSlot := { ownerValid := true, owner := 0, base := 0x10000, sizeLog2 := 12, configured := true }

/-- A fill of 32 bytes. -/
def fill1 (got : Nat) (void : Bool) : TFill :=
  { buf := true, addr := 0x11000, part := 0, stamp := 0, len := 32, got := got, unacked := [], ackedAt := 0, void := void }

/-- A placed step with INGEST. -/
def ingest1 : Step := { step1 with ingest := true, start := 5001 }

theorem witness_TrellisSlots :
    (let s := slotUp slot1 [] none
     s.hif.linkUp = true ∧ decodes s 0 = true ∧ decodes s 8 = true ∧ trlOwner s 8 63 = false ∧ trlOwner s 0 63 = true ∧
       cfgOk s s.trl.slot[(63 : Fin 64)].owner (bitsOf (0x1000 * 2 ^ 64 + 12 * 2 ^ 32 : BitVec 128).toNat 127 64)
         (bitsOf (0x1000 * 2 ^ 64 + 12 * 2 ^ 32 : BitVec 128).toNat 36 32) = true ∧
       cfgOk s s.trl.slot[(63 : Fin 64)].owner (bitsOf (11 * 2 ^ 32 : BitVec 128).toNat 127 64) (bitsOf (11 * 2 ^ 32 : BitVec 128).toNat 36 32) = false ∧
       2 ^ s.trl.slot[(63 : Fin 64)].sizeLog2 < (4097 : W32).toNat ∧
       ((4096 : W32).toNat ≠ 0 ∧ s.trl.slot[(63 : Fin 64)].configured = true ∧ (4096 : W32).toNat ≤ 2 ^ s.trl.slot[(63 : Fin 64)].sizeLog2 ∧
         s.trl.slot[(63 : Fin 64)].fill = none ∧ s.trl.slot[(63 : Fin 64)].free = true ∧ s.trl.slot[(63 : Fin 64)].pending = none ∧
           s.hif.upWait = [] ∧
         s.hif.upstream.length < tagLimit s.hif)) ∧
    (let s := slotUp { slot1 with fill := some (fill1 16 false) } [] none
     s.trl.slot[(63 : Fin 64)].fill = some (fill1 16 false) ∧ upWaits s (.trellis 63) = false ∧
       (List.replicate 16 (1 : Byte)).length ≤ (fill1 16 false).len - (fill1 16 false).got) ∧
    (∀ void : Bool, let s := slotUp { slot1 with fill := some (fill1 32 void) } [] none
     let s := { s with tmp := { s.tmp with elapsed := 1 } }
     s.trl.slot[(63 : Fin 64)].fill = some (fill1 32 void) ∧ (fill1 32 void).got = (fill1 32 void).len ∧ (fill1 32 void).unacked = [] ∧
       (fill1 32 void).ackedAt < s.tmp.elapsed ∧ s.trl.slot[(63 : Fin 64)].pending = none ∧ s.stp.steps = []) := by decide +kernel

theorem witness_TrellisSlots_snapshot :
    (let s := slotUp slot1 [ingest1] (some [])
     getStep s ingest1.id = some ingest1 ∧ snapshotDue s ingest1 = true ∧ ingestChoice s ingest1.part = none) ∧
    (let s := slotUp slot1 [ingest1] none
     getStep s ingest1.id = some ingest1 ∧ snapshotDue s ingest1 = true ∧ ingestChoice s ingest1.part = some (0xFFFF, 0, 0) ∧
       variantRec s ingest1 0 = some plan1) ∧
    (∀ c ∈ [Code.ingestNomatch, .ingestVariant], let x := { ingest1 with start := 5000, snap := some [], snapCode := some c }
     let s := slotUp slot1 [x] none
     getStep s x.id = some x ∧ x.phase = .placed ∧ x.start ≤ s.tmp.beat ∧ isFg s.tmp.beat = true ∧ admitting s = true ∧
       partTripped s x.part = false ∧ collectiveStep s x = false ∧ x.snap.isSome = true ∧ viewPending s x.id = false ∧
       stepPlan s x = some plan1 ∧ ∃ g ∈ plan1.grades, chooseGrade s plan1 s.tmp.beat = some g ∧
         g.tiles.any (tileHeld s) = false) := by decide +kernel

/-! ## Witnesses: the ring -/

/-- `up` with a tempo rank and link group 7 in some state. -/
def linkUp7 (x : LinkSt) : State := { up with rhl := { up.rhl with rank := some (5, 2), link := up.rhl.link.set 7 x } }

/-- A word of the package of rank 43 with a grade 3 pending for frame 9. -/
def word1 (kind beat : Nat) : CWord where
  hash8 := 0
  compatClass := 1
  minor := 0
  beat := beat
  rankValid := true
  kind := kind
  rank := 43
  state := 1
  pendingValid := true
  pendingGrade := 3
  gradeNow := 0
  effFrame := 9
  thermal := 0
  master := 42

theorem witness_LinkTraining :
    (linkLive .relock = true ∧ linkLive .transit = true ∧ (15 : Nat) ≠ 16) ∧
    canTrain (linkUp7 { code := .trainFail }) = true ∧
    (let s := { linkUp7 { state := .loc } with rhl := { up.rhl with rank := some (5, 2), link := (up.rhl.link.set 7 { state := .loc }).set 6 { state := .loc } } }
     s.rhl.link[(7 : Link)].state = .loc ∧ ∃ k : Link, k ≠ 7 ∧ s.rhl.link[k].state = .loc ∧ s.rhl.link[k].passed1 = false) ∧
    (let s := { linkUp7 { state := .loc } with rhl := { up.rhl with link := (up.rhl.link.set 7 { state := .loc }).set 6 { state := .loc, passed1 := true } } }
     s.rhl.link[(7 : Link)].state = .loc ∧ ∀ k : Link, k ≠ 7 → s.rhl.link[k].state = .loc → s.rhl.link[k].passed1 = true) ∧
    (linkUp7 { state := .ready }).rst.pkgGood = true ∧
    (let s := linkUp7 { state := .ident, peer := some (word1 0 5000) }
     s.rhl.link[(7 : Link)].state = .ident ∧ s.rhl.link[(7 : Link)].peer ≠ none) ∧
    (∀ x ∈ [LinkState.loc, .relock, .ident], ∀ n ∈ [0, 1], (linkUp7 { state := x, tries := n }).rhl.link[(7 : Link)].state = x) ∧
    (let e : Reshape := { d := 4968, rank := 42, link := none, joins := [], leaves := [43], aborted := false }
     ∀ x ∈ [LinkState.ident, .up, .transit], ∀ r ∈ [[], [e]], let s := linkUp7 { state := x }
      let s := { s with rhl := { s.rhl with reshapes := r } }; s.rhl.link[(7 : Link)].state = x ∧ s.rhl.reshapes = r) := by decide +kernel

theorem witness_ConsensusAndUpdateWords :
    (linkLive (linkUp7 { state := .up }).rhl.link[(7 : Link)].state = true) ∧
    parseWord [] = none ∧
    (∀ k ∈ [0, 1, 2, 3], parseWord (word1 k 5000).bytes = some (word1 k 5000)) ∧
    (let s := { linkUp7 { state := .up } with rhl := { (linkUp7 { state := .up }).rhl with seen := [(1, 43, 5000)] } }
     s.rhl.seen.contains ((word1 1 5000).kind, (word1 1 5000).rank, (word1 1 5000).beat) = true) ∧
    (let s := { ringUp with str := some str1 }; let w := { word1 1 8191 with master := 1 }
     fellowMember s w = true ∧ w.master = ownMaster s ∧ fellowMember s { w with state := 0 } = false ∧ (word1 1 8191).master ≠ ownMaster s ∧
       w.pendingValid = true ∧ frameOf w.beat + 2 ≤ frameOfLow s w.effFrame ∧ s.rhl.seen.contains (w.kind, w.rank, w.beat) = false) ∧
    (let s := linkUp7 { state := .up }
     s.rhl.seen.contains ((word1 1 5000).kind, (word1 1 5000).rank, (word1 1 5000).beat) = false ∧
       s.rhl.seen.contains ((word1 2 5000).kind, (word1 2 5000).rank, (word1 2 5000).beat) = false ∧ ({ word1 2 5000 with state := 2 }).state ≠ 1 ∧
       s.rhl.seen.contains ((word1 3 5000).kind, (word1 3 5000).rank, (word1 3 5000).beat) = false) ∧
    (∀ n ∈ [0, 1, 2], let s := linkUp7 { state := .up, silent := n }
      linkLive s.rhl.link[(7 : Link)].state = true ∧ s.rhl.link[(7 : Link)].heard = false ∧ s.rhl.link[(7 : Link)].silent = n) ∧
    (let s := { linkUp7 {} with rhl := { (linkUp7 {}).rhl with joinBeats := 2 }, tmp := { up.tmp with beat := 5120 } }
     s.rhl.rank ≠ none ∧ ownState s = .joining ∧ 2 ≤ s.rhl.joinBeats ∧ s.tmp.beat % 1024 = 0 ∧ s.rhl.counted = []) := by decide +kernel

/-- A collective of step 1 that gathers 40 elements along X from position 0 of 2. -/
def coll1 : Coll where
  step := 1
  part := 0
  planId := 2
  start := 5000
  int32 := false
  tile := 5
  laddr := 64
  phases := [{ kind := .gather, y := false, pos := 0, size := 2, base := 0, count := 40, rootPos := 0 }]
  left := 20
  poisoned := false
  waiting := []
  early := []

/-- A flit of the other position's chunk. -/
def cflit (plan : Nat) : RingFlit :=
  { red := false, part := 0, planId := plan, start := 5000, chunk := 1, index := 0, poison := false, vals := List.replicate 16 1 }

/-- A live collective step. -/
def live2 : Step := { live1 with planId := 2, runPlan := 2 }

/-- `up` with that step and its collective, link group 0 in some state. -/
def collUp (x : LinkState) : State := { withSteps [live2] with
  rhl := { up.rhl with rank := some (5, 2), link := up.rhl.link.set 0 { state := x }, colls := [coll1]
                       reshapes := [{ d := 4968, rank := 42, link := none, joins := [], leaves := [43], aborted := false }]
                       trips := [{ beat := 4968, mask := 1 }] } }

theorem witness_CollectivesOnTheRing :
    (∃ e ∈ (collUp .up).rhl.reshapes, e.aborted = false ∧ e.d + 32 ≤ (collUp .up).tmp.beat) ∧
    (live2 ∈ (collUp .up).stp.steps ∧ live2.phase = .live ∧ collectiveStep (collUp .up) live2 = true ∧ live2.part < 8) ∧
    (∃ e ∈ (collUp .up).rhl.trips, e.beat + 32 ≤ (collUp .up).tmp.beat ∧ e.mask.getLsbD live2.part = true) ∧
    ((collUp .transit).rhl.link[(0 : Link)].state = .transit ∧ ∃ k : Link, k.val = opposite (0 : Link)) ∧
    ((collUp .up).rhl.link[(0 : Link)].state = .up ∧
      ((collUp .up).rhl.colls.find? fun c => c.part == (cflit 7).part.val && c.planId == (cflit 7).planId && c.start == (cflit 7).start) = none) ∧
    (((collUp .up).rhl.colls.find? fun c => c.part == (cflit 2).part.val && c.planId == (cflit 2).planId && c.start == (cflit 2).start) = some coll1 ∧
      getColl (collUp .up) coll1.step = some coll1 ∧
      ∃ ph ∈ coll1.phases, coll1.phases = [ph] ∧ ph.kind ≠ .reduce ∧ inPhase ph (decide (4 ≤ (0 : Link).val)) (cflit 2) = true ∧
        (cflit 2).vals.length < coll1.left ∧ (cflit 2).poison = false) := by decide +kernel

/-! ## Witnesses: power, reset, wake -/

/-- `up` under some orders. -/
def orderUp (o : Orders) : State := { up with hif := { up.hif with vfEnable := true, numVfs := 8 }, pwr := { up.pwr with orders := o } }

theorem witness_PowerOrders :
    ((orderUp {}).hif.linkUp = true ∧ decodes (orderUp {}) 8 = true ∧ decodes (orderUp {}) 0 = true ∧ (orderUp {}).rst.aon = true) ∧
    (∀ w ∈ [300, 1800], capOk (orderUp {}) w = true ∧ w = (BitVec.ofNat 32 w).toNat % 65536) ∧
    (∀ w ∈ [0, 299, 1801], capOk (orderUp {}) w = false) ∧
    (let s := orderUp { capRack := some 800 }; s.pwr.orders.capRack = some 800 ∧ capOk s 800 = true ∧ 800 ≤ 800 ∧ capOk s 801 = true ∧ 800 < 801) ∧
    (let s := orderUp { rack := .park }; pnum s.pwr.orders.rack ≤ pnum .park ∧ pnum .run < pnum s.pwr.orders.rack ∧
      PState.park = pstateOf (1 : W32).toNat ∧ PState.run = pstateOf (4 : W32).toNat) ∧
    (PState.off = .off ∧ (true = true) ∧ PState.park ≠ .off) ∧
    (let s := orderUp { rack := .off, offLeft := some 0 }; s.pwr.orders.offLeft = some 0 ∧ powerLive s = true ∧ s.pwr.orders.rack = .off) ∧
    (let s := { orderUp { rack := .off, offLeft := some 7 } with tmp := { up.tmp with counting := false } }
     s.pwr.orders.offLeft = some 7 ∧ s.tmp.counting = false) := by decide +kernel

/-- `up` in a stage of its power state. -/
def stageUp (x : ParkStage) : State := { up with pwr := { up.pwr with stage := x, exitBeats := 50000 }, tmp := { up.tmp with beat := 5120 } }

/-- `up` with die 3 in some state of its limiter. -/
def dieUp (x : DiePwr) : State := { up with pwr := { up.pwr with die := up.pwr.die.set 3 x } }

theorem witness_ParkLimiterThermal :
    ((stageUp .draining).pwr.stage = .draining ∧ (stageUp .draining).stp.steps.all (fun x => x.phase != .live) = true) ∧
    (let s := stageUp .exiting; s.pwr.stage = .exiting ∧ 50000 ≤ s.pwr.exitBeats ∧ s.tmp.beat % 1024 = 0 ∧ effState s = .run) ∧
    diePowered up (3 : Die) = true ∧ tilesDue up = true ∧
    tilesDue { up with pwr := { up.pwr with tileSampledAt := some 0 } } = false ∧
    (∀ k ∈ [1, 15], let s := dieUp { sensing := true, limiter := k }
      s.pwr.die[(3 : Die)].sensing = true ∧ 0 < s.pwr.die[(3 : Die)].limiter ∧ s.pwr.die[(3 : Die)].limiter < 16) ∧
    (∀ e ∈ [(false, 1), (true, 9)], let s := dieUp { crit := e.1, limiter := e.2, clearBeats := 64 }
      s.pwr.die[(3 : Die)].sensing = false ∧ 64 ≤ s.pwr.die[(3 : Die)].clearBeats ∧
        (if s.pwr.die[(3 : Die)].crit then 8 else 0) < s.pwr.die[(3 : Die)].limiter) ∧
    ([[20], [20], [20], [20, 110]][(3 : Die).val]? = some ((20 : Int) :: [110]) ∧ 110 ≤ [110].foldl max (20 : Int) ∧
      up.pwr.die[(3 : Die)].crit = false) ∧
    (up.rst.aon = true ∧ up.rst.thermtrip = false) := by decide +kernel

theorem witness_ResetsAndPins :
    ({ up with rst := {  } }).rst.aon = true ∧ ({ up with rst := { aon := false } }).rst.aon = false ∧ 499 < 500 ∧
    (pinsLive up = true ∧ up.rst.perst = true ∧ up.rst.resetN = true ∧ 10000 ≤ 10000) ∧
    (pinsLive State.reset = true ∧ (State.reset.rst.resetN && State.reset.rst.perst) = false) := by decide +kernel

/-- `up` after the end of a step of the wake of die 2, with some reloads. -/
def hangUp (k : Nat) : State := { up with
  hif := { up.hif with vfEnable := true, numVfs := 8 }
  fab := { up.fab with die := up.fab.die.set 2 { reloads := k } } }

theorem witness_HostResetsAndHangs :
    ((hangUp 0).hif.linkUp = true ∧ decodes (hangUp 0) 8 = true ∧ decodes (hangUp 0) 0 = true ∧ (hangUp 0).rst.done = true) ∧
    (bitOf (0x80000000 : W32).toNat 31 = true ∧ bitOf (0x80000000 : W32).toNat 29 = false ∧ bitOf (0xC0000000 : W32).toNat 31 = true ∧
      bitOf (0xC0000000 : W32).toNat 29 = false) ∧ (hangUp 0).rst.warm = none ∧
    bitOf (0x80000000 : W32).toNat 30 = false ∧ (hangUp 0).rst.die[(2 : Die)].failed = false ∧
    (bitOf (0x22000000 : W32).toNat 31 = false ∧ bitOf (0x22000000 : W32).toNat 29 = true ∧ bitsOf (0x22000000 : W32).toNat 25 24 = (2 : Die).val) ∧
    (∀ k ∈ [0, 2, 3], dieFailed (hangUp k) (2 : Die) = false ∧ (hangUp k).fab.die[(2 : Die)].reloading = false ∧
      diePowered (hangUp k) (2 : Die) = true ∧ (hangUp k).fab.die[(2 : Die)].reloads = k) ∧
    (fnEnabled (hangUp 0) 0 = true ∧ (partDesc (hangUp 0) (0 : Part)).isSome = true ∧ servingFn (hangUp 0) (0 : Part) = (0 : Fn).val ∧
      (hangUp 0).stp.part[(0 : Part)].state ≠ .disabled) ∧
    (up.rst.aon = true ∧ up.rst.vrEn ≠ 0 ∧ up.rst.wdtExpired = false) := by decide +kernel

/-- A package in its wake. -/
def wakeUp (step tries : Nat) (wait : Bool) : State := { State.reset with rst := { State.reset.rst with
  wake := some .cold, step := step, stage1Tries := tries, retryWait := wait, vrEn := 0xFF00000000 } }

theorem witness_WakeAndRails :
    (∀ k ∈ [1, 5, 7], (wakeUp k 0 false).rst.wake ≠ none ∧ (wakeUp k 0 false).rst.retryWait = false ∧ (wakeUp k 0 false).rst.step < 8 ∧
      (wakeUp k 0 false).rst.step ≠ 6 ∧ pgEarly (wakeUp k 0 false) (hubRails (k + 1)) = false) ∧
    (let s := { wakeUp 1 0 false with rst := { (wakeUp 1 0 false).rst with vrEn := 0, vrPg := 0x100000000 } }
     s.rst.wake ≠ none ∧ s.rst.retryWait = false ∧ s.rst.step = 1 ∧ pgEarly s (hubRails (1 + 1)) = true ∧ s.rst.stage1Tries < 3) ∧
    ((wakeUp 6 0 false).rst.step = 6 ∧ WakeInfo.firmware true = .firmware true) ∧
    (∀ k ∈ [1, 8], (wakeUp k 2 false).rst.step ≤ 8 ∧ (wakeUp k 2 false).rst.stage1Tries < 3 ∧ (wakeUp k 3 false).rst.step ≤ 8 ∧
      3 ≤ (wakeUp k 3 false).rst.stage1Tries) ∧
    (wakeUp 3 1 true).rst.retryWait = true ∧ 1799 < 1800 ∧ inService up (52 : Fin 64) = false ∧
    (inService up (31 : Fin 64) = true ∧ up.rst.done = true ∧ 2200 ≤ 2200 ∧ railDie (31 : Fin 64) = some (3 : Die).val ∧
      up.rst.die[(3 : Die)].failed = false) ∧
    (∀ d ∈ [(32 : Fin 64), 37], inService up d = true ∧ railDie d = none) ∧
    (let s := wakeUp 1 0 false; railExists (32 : Fin 64) = true ∧
      { s with rst := { s.rst with vrEn := 0 } }.rst.vrEn.getLsbD (32 : Fin 64) = false) := by decide +kernel

/-! ## Witnesses: the host port -/

/-- `up` with eight VFs, a start address of BAR2, and posted writes of the PF. -/
def hostUp (start : Nat) (posted : List (Nat × Nat)) : State := { up with
  hif := { up.hif with vfEnable := true, numVfs := 8, posted := posted, fn := up.hif.fn.set 0 { bar2Log2 := 6, bar2Off := BitVec.ofNat 64 start } } }

/-- The same in PARK. -/
def busyUp : State := { hostUp 0 [] with pwr := { up.pwr with diesDown := true } }

theorem witness_HostAccesses :
    (let s := hostUp 64 []
     s.hif.linkUp = true ∧ decodes s 0 = true ∧ 2 ^ 36 + 56 = s.hif.fn[(0 : Fn)].bar2Off.toNat + (2 ^ 36 - 8) ∧
       inBar2 s 0 (2 ^ 36 - 8) 8 = true ∧ bar2Busy s = false ∧ bar2Reach s 0 (2 ^ 36 + 56) 8 = true ∧ ∀ e ∈ s.hif.posted, e.1 ≠ (0 : Fn).val) ∧
    (busyUp.hif.linkUp = true ∧ decodes busyUp 0 = true ∧ inBar2 busyUp 0 0 8 = true ∧ bar2Busy busyUp = true) ∧
    (let s := hostUp (2 ^ 50) []
     inBar2 s 0 0 8 = true ∧ bar2Busy s = false ∧ bar2Reach s 0 (s.hif.fn[(0 : Fn)].bar2Off.toNat + 0) 8 = false) ∧
    (let s := { hostUp 64 [] with grn := { up.grn with lines := [held 0 []] } }
     inBar2 s 0 0 8 = true ∧ bar2Busy s = false ∧ bar2Reach s 0 64 8 = true ∧ enginesIdle s = true ∧ rangeHeld s 64 8 = true) ∧
    (let s := hostUp 0 [(0, 3)]; bar2Reach s 0 0 8 = true ∧ ∃ e ∈ s.hif.posted, e.1 = (0 : Fn).val) ∧
    ((1 : Nat) ≠ 4 ∧ (1 : Nat) ≠ 8) ∧
    (∀ off ∈ [0x700000, 0x600004, 0x300038, 0x50069C, 0xB00000, 0x1300000],
      off % 4 = 0 ∧ (regAt up (0 : Fn) (off / 8 * 8)).filter Reg.wide = none) ∧
    (regAt up (0 : Fn) 0xB00000 = none ∧ regAt up (0 : Fn) 0x700000 = some .ctxSel ∧ regAt up (0 : Fn) 0x600004 = some .bwrSelect ∧
      regAt up (0 : Fn) 0x300038 = some .pwrEvent ∧ regAt up (0 : Fn) 0x50069C = some (.partStatus (7 : Part)) ∧
      mayPart up (0 : Fn) (7 : Part) = true) ∧
    (let s := { up with rst := { up.rst with die := up.rst.die.set 0 {} } }
     ∃ r ∈ regAt s (0 : Fn) 0x1300000, silent s r = true) := by decide +kernel

/-- A DMA engine's registers for one block at 0x2000. -/
def dma1 (busy dir : Bool) (len : Nat) : Dma := { host := 0x4000, dev := 0x2000, len := BitVec.ofNat 32 len, busy := busy, dir := dir }

/-- `up` with engine 1 so, its line held by the slice, and perhaps a request outstanding. -/
def dmaUp (d : Dma) (us : List Upstream) : State := { hostUp 0 [] with
  hif := { (hostUp 0 []).hif with dma := up.hif.dma.set 1 d, upstream := us }
  stp := { up.stp with steps := [live1] }
  grn := { up.grn with lines := [held 0x20 []] } }

theorem witness_DmaAndUpstream :
    (let s := dmaUp (dma1 false false 64) []
     s.hif.linkUp = true ∧ decodes s 8 = true ∧ dmaOwner s (1 : Fin 16) ≠ (8 : Fn).val ∧ decodes s 0 = true ∧
       dmaOwner s (1 : Fin 16) = (0 : Fn).val ∧ bitOf (0x80000000 : W32).toNat 31 = true ∧ bitOf (0x80000000 : W32).toNat 0 = false) ∧
    ((dmaUp (dma1 false false 64) []).hif.upWait = [] ∧
      (dmaUp (dma1 false false 64) []).hif.upstream.length < tagLimit (dmaUp (dma1 false false 64) []).hif ∧
      tagLimit up.hif ≤ (List.replicate 256 ({ tag := 9, fn := 0, src := .dma 2, abandoned := false } : Upstream)).length) ∧
    (dmaShape (dma1 false false 64) = true ∧ dmaShape (dma1 false false 0) = false ∧ (dma1 true false 64).busy = true) ∧
    (∀ dir : Bool, let d := dma1 true dir 64; let s := dmaUp d []
      s.hif.dma[(1 : Fin 16)] = d ∧ d.busy = true ∧ upWaits s (.dma 1) = false ∧ enginesIdle s = true ∧
        rangeHeld s d.dev.toNat d.len.toNat = true ∧ d.len.toNat ≤ (List.replicate 64 (1 : Byte)).length ∧ d.dir = dir ∧
        d.len.toNat ≠ 0 ∧ dmaReach s (1 : Fin 16) d.dev.toNat ((d.len.toNat + 63) / 64) = (64 * ((d.len.toNat + 63) / 64), none)) ∧
    (∀ a : Bool, ∀ src ∈ [UpSrc.dma 1, .kv 1 (some 5) 64 none], let u : Upstream := { tag := 9, fn := 0, src := src, abandoned := a }
      let s := dmaUp (dma1 true false 64) [u]
      (s.hif.upstream.find? fun x => x.tag == u.tag) = some u ∧ u.abandoned = a ∧ s.hif.upWait = [] ∧ getStep s 1 = some live1 ∧
        live1.fault = none) := by
  decide +kernel

theorem witness_HostPortLink :
    (let s := { hostUp 0 [] with str := some { str1 with parts := [{ part0 with vf := 8 }] } }
     s.hif.linkUp = true ∧ s.stp.part[(0 : Part)].state ≠ .disabled ∧
       servingFn s (0 : Part) ≠ servingFn { s with hif := { s.hif with vfEnable := true, numVfs := (7 : Fin 9).val } } (0 : Part)) ∧
    hostPhyReady up = true ∧ up.hif.upWait = [] ∧
    (∀ e ∈ [(1, 4, ({ flit := false, tags := .bits10 } : LinkMode)), (6, 16, { flit := true, tags := .bits14 })],
      linkShape ((e.1 : Fin 8) : Nat) e.2.1 e.2.2 = true) ∧
    (fnEnabled (hostUp 0 []) (8 : Fn) = true) := by decide +kernel

/-! ## Witnesses: the tray -/

/-- A started tray with two slots as given: slot 0 holds the modelled package, slot 7 another. -/
def trayUp (a b : Slot) : State := { up with tray := { up.tray with started := true, liquid := true, slot := (up.tray.slot.set 0 a).set 7 b } }

/-- A slot whose package is present and good, with its gate open or not. -/
def goodSlot (isOpen : Bool) (closings : List Nat) : Slot := { present := true, powered := true, pkgGood := true, openEn := isOpen, closings := closings }

/-- The modelled package has lost PKG_GOOD, or its rails. -/
def noGood (s : State) : State := { s with rst := { s.rst with pkgGood := false } }

def noAon (s : State) : State := { s with rst := { s.rst with aon := false, pkgGood := false } }

/-- Ring link group 0 is up. -/
def ringLive (s : State) : State := { s with rhl := { s.rhl with rank := some (5, 2), link := s.rhl.link.set 0 { state := .up } } }

/-- Orders of the state OFF. -/
def offOrders : Orders := { rack := .off }

theorem witness_SlotsAndGates :
    (∀ k ∈ [(0 : Fin 8), 7], let s := trayUp (goodSlot false []) (goodSlot false []); let x := s.tray.slot[k]
      slotGood s k = true ∧ x.present = true ∧ x.forced = false ∧ x.held = false ∧ 1 < 2 ∧ s.tray.started = true ∧ slotOn s k = true ∧
        flashReach s k = true ∧ slotFits s k = true ∧ slotFits { s with tray := { s.tray with liquid := false } } k = false) ∧
    (up.rst.aon = true ∧ up.rhl.nextRank = none ∧ up.rhl.rank ≠ some (127, 7) ∧
      (List.range 8).any (fun l => linkLive (linkSt up l).state) = false ∧
      (ringLive up).rhl.nextRank = none ∧ (ringLive up).rhl.rank ≠ some (0, 0) ∧
      (List.range 8).any (fun l => linkLive (linkSt (ringLive up) l).state) = true) ∧
    (∀ k ∈ [(0 : Fin 8), 7], ∀ o ∈ [true, false], let s := noGood (trayUp (goodSlot o [1, 2, 3]) (goodSlot o [1, 2, 3])); let x := s.tray.slot[k]
      x.pkgGood = true ∧ s.rst.pkgGood = false ∧ x.openEn = o ∧ x.present = true ∧ x.held = false ∧
        4 ≤ (recent x.closings 60001 60000).length ∧ (recent x.closings 60002 60000).length = 3) ∧
    (let s := noAon (trayUp {} {}); ∀ k ∈ [(0 : Fin 8), 7], slotOn s k = false ∧ s.tray.slot[k].present = false ∧ s.tray.strapBad = false ∧
      binPossible s k .yp4L = true ∧ binPossible s 7 .yp4A = true ∧ classBin s = .yp4L ∧ flashReach s k = false) ∧
    (∀ k ∈ [(0 : Fin 8), 7], let s := trayUp { present := true } { present := true }; let x := s.tray.slot[k]
      x.present = true ∧ x.forced = false ∧ x.held = false ∧ s.rst.pkgGood = true ∧ slotFits s k = true ∧ s.tray.strapBad = false) ∧
    (let s := trayUp {} {}; isPkg s 0 = true ∧ pinsLive s = true ∧ s.rst.resetN = true ∧ s.rst.perst = true) ∧
    (∀ n ∈ [2, 3], ∀ a ∈ [true, false], let s := trayUp {} { present := true, powered := true, recoverAuto := a, resets := List.replicate n 5 }
      isPkg s 7 = false ∧ slotOn s 7 = true ∧ s.tray.slot[(7 : Fin 8)].recoverAuto = a ∧
        (recent s.tray.slot[(7 : Fin 8)].resets 3600005 3600000).length = n + 1 ∧
          (recent s.tray.slot[(7 : Fin 8)].resets 3600006 3600000).length = 1) ∧
    (∀ a ∈ [true, false], let s := trayUp { recoverAuto := a, resets := List.replicate 3 5 } {}
      let s := { s with rst := { s.rst with faultN := false } }
      isPkg s 0 = true ∧ s.rst.faultN = false ∧ pinsLive s = true ∧ s.rst.resetN = true ∧ s.tray.slot[(0 : Fin 8)].recoverAuto = a ∧
        3 < (recent s.tray.slot[(0 : Fin 8)].resets 3600005 3600000).length) ∧
    (let s := ringLive (trayUp {} {}); isPkg s 0 = true ∧ s.rst.done = true ∧ (List.range 8).any (fun l => linkLive (linkSt s l).state) = true) ∧
    (let s := trayUp {} { present := true, powered := true, orders := offOrders }
     slotOn s 7 = true ∧ offStands s 7 = true ∧ (slotOrders s 7).rack = .off ∧ (isPkg s 7 && !s.pwr.offReady) = false) ∧
    (∀ r ∈ [true, false], let s := { trayUp {} {} with pwr := { up.pwr with orders := offOrders, stage := .off, offReady := r } }
      slotOn s 0 = true ∧ offStands s 0 = true ∧ (slotOrders s 0).rack = .off ∧ (isPkg s 0 && !s.pwr.offReady) = !r) := by
  refine ⟨?_, ?_, ?_, ?_, ?_, ?_, ?_, ?_, ?_, ?_, ?_⟩ <;> decide +kernel

theorem witness_PowerEntryCoolingOrders :
    (let s := trayUp {} {}; s.tray.started = true ∧ s.tray.fanFailed[(7 : Fin 8)] = false ∧ s.tray.inputOk = true ∧ slotOn s 0 = true ∧
      2000 ≤ ratedInput s ∧ ratedInput s = 15000 ∧ ratedInput s < 15001 ∧ 1999 < 2000 ∧ s.tray.wdHold = false) ∧
    (let s := { trayUp {} {} with tray := { (trayUp {} {}).tray with inputOk := false, wdHold := true } }
     s.tray.started = true ∧ s.tray.inputOk = false ∧ s.tray.wdHold = true ∧ s.tray.fullSince + 30000 ≤ 30000) ∧
    (∀ k ∈ [(0 : Fin 8), 7], let s := trayUp {} { present := true }
      s.tray.started = true ∧ 300 ≤ binMax s.tray.slot[k].bin ∧ s.tray.slot[k].bin = s.fuses.bin ∧ (slotOrders s k).capRack = none ∧
        0 < 1 ∧ 1 < 300 ∧ binMax s.tray.slot[k].bin < 1801 ∧ pnum (slotOrders s k).rack ≤ pnum .off) ∧
    (let s := { trayUp {} { orders := { capRack := some 500, rack := .park } } with pwr := { up.pwr with orders := { capRack := some 500, rack := .park } } }
     ∀ k ∈ [(0 : Fin 8), 7], (slotOrders s k).capRack = some 500 ∧ 500 ≤ 500 ∧ 500 < 501 ∧ 501 ≤ binMax s.tray.slot[k].bin ∧
       pnum .run < pnum (slotOrders s k).rack) ∧
    ((60 : Nat) ≤ 60 ∧ (1 : Fin 8) ≠ 7 ∧ (0x27 = 0x20 + (7 : Fin 8).val) ∧ (9 ≠ 0x20 + (7 : Fin 8).val ∧ 9 ≠ 8)) := by
  refine ⟨?_, ?_, ?_, ?_, ?_⟩ <;> decide +kernel

/-- A set that is staged, and one under health check. -/
def stagedUp : State := { trayUp {} {} with tray := { (trayUp {} {}).tray with
  staged := [(.hub 0, true)], active := [[(.larkspur, false)], [(.bitstream 7, false)]] } }

/-- The fixed header of a container that passes step 2. -/
def header2 : List Byte := leBytes 4 0x594C4253 ++ leBytes 2 1 ++ leBytes 2 256 ++ leBytes 4 256 ++ leBytes 4 2 ++ List.replicate 4 0 ++
  leBytes 2 1 ++ List.replicate 234 0

theorem witness_ManagementAnswers :
    (let s := trayUp {} {}; s.tray.started = true ∧ hubRuns s = true ∧ (measurement s true 2).isSome = true ∧ (measurement s true 3).isNone = true ∧
      (measurement s false 4).isSome = true ∧ (measurement s false 5).isNone = true) ∧
    (stagedUp.tray.staged = [(.hub 0, true)] ∧
      (stagedUp.tray.active.find? fun l => l.any fun e => e.1 == Component.larkspur) = some [(.larkspur, false)] ∧
      (stagedUp.tray.active.find? fun l => l.any fun e => e.1 == Component.bitstream 7) = some [(.bitstream 7, false)]) ∧
    ((60 : Nat) < 61 ∧ slotOn (trayUp {} {}) 0 = true) ∧
    (imageGood .larkspur [] false = false ∧ imageGood .larkspur [] true = true ∧ imageGood (.bitstream 0) [] true = false ∧
      imageGood (.bitstream 0) header2 false = true ∧ imageGood (.hub 0) [] true = true) ∧
    (∀ c ∈ [Component.larkspur, .hub 0, .bitstream 0], compReach (trayUp {} {}) c = true) := by decide +kernel

/-! ## Results worked out from the manual -/

/-- The characters 123456789, over which the manual gives both check values (06 and 12). -/
def digits : List Byte := [0x31, 0x32, 0x33, 0x34, 0x35, 0x36, 0x37, 0x38, 0x39]

theorem test_crc64_check : crc64 digits = 0x6C40DF5F0B497347 := by decide +kernel

theorem test_crc16_check : crc16 digits = 0x29B1 := by decide +kernel

/-- The worked example of 07: one address from line to cell. -/
theorem test_address_to_cell : chanOf 0x4A3C72D00 = 24 ∧ rowOf 0x4A3C72D00 = 9735 ∧ bankOf 0x4A3C72D00 = 0b001011 ∧
    homeSlice 0x4A3C72D00 = 0 ∧ setIndex 0x4A3C72D00 = 61899 := by decide +kernel

/-- The worked example of 16: one VF write through BAR2. -/
theorem test_bar2_address : chanOf 0x30E8002000 = 261 ∧ homeSlice 0x30E8002000 = 0 ∧ 256 * 0x2FE80000 = 0x2FE8000000 := by decide +kernel

/-- Table 19-8. -/
theorem test_register_addresses : regAt up 0 0x1901414 = some (.winCtrl 2 5) ∧ regAt up 0 0x1780020 = some (.tileMap 20) ∧
    regAt up 0 0x1A10008 = some (.memTemp 5) := by decide +kernel

/-- The worked example of 06: input order decides the sum of 2^24, 1, 1 and -2^24. -/
theorem test_reduction_order : redSum 0 [[0x4B800000], [0x3F800000], [0x3F800000], [0xCB800000]] = [0] := by decide +kernel

/-- The worked example of 13: 1,200 W allows OP2 on a YP4-L, 900 W OP4. -/
theorem test_cap_grades : capGrade (orderUp {}) = 2 ∧ capGrade (orderUp { capRack := some 900, capBoard := 1500 }) = 4 := by decide +kernel

/-- Table 13-5 at beat 2,001,500: 1,100 W against a rack cap of 900 W. -/
theorem test_rack_hold : after (.pwrCapHostWrite 0 1100) { orderUp { capRack := some 900 } with tmp := { up.tmp with beat := 2001500 } }
    (fun t => t.pwr.orders.capHost == 1200 && t.pwr.holdLast == { beat := 2001500, kind := false, rack := 900, host := 1100 }) = true := by
  decide +kernel

/-- Table 13-5: RUN against a standing rack PARK is refused, STANDBY is stored. -/
theorem test_rack_hold_state :
    after (.pwrStateHostWrite 0 0) (orderUp { rack := .park }) (fun t => t.pwr.orders.host == .run && t.pwr.holdCount == 1) = true ∧
    after (.pwrStateHostWrite 0 2) (orderUp { rack := .park }) (fun t => t.pwr.orders.host == .standby && t.pwr.holdCount == 0) = true := by
  decide +kernel

/-- Table 13-5 at beat 3,000,000: a rack OFF with no grace named has 10 s. -/
theorem test_rack_off_grace : after (.rackStateOrder .off none false) (orderUp {}) (fun t => t.pwr.orders.offLeft == some 10000) = true := by
  decide +kernel

/-- An entry of the DEGRADE table of the worked example of 11. -/
def degrade1 (value mask : Nat) (prio variant dstep : Nat) : DegradeEntry where
  head := { prio := prio, part := 0xFF, valid := true }
  value := BitVec.ofNat 64 value
  mask := BitVec.ofNat 64 mask
  variant := variant
  dstep := dstep

theorem test_degrade_winner :
    degradeWinner [degrade1 7 7 3 0 0, degrade1 5 7 3 1 1, degrade1 1 1 2 2 3, degrade1 0 0 0 3 7] 1 5 = some 1 := by decide +kernel

/-- The record of the worked example of 10: MODE 1 at byte 2, N = 4, U at 0x180, P_DRAFT at 0x140, P_TARGET at 0x100 (Table 10-9). -/
def winnow1 : List Byte := leBytes 2 4100 ++ [1, 4] ++ List.replicate 0xFC 0 ++
  [0x3F000000, 0x3E4CCCCD, 0x3DCCCCCD, 0x3F19999A].flatMap (leBytes 4) ++ List.replicate 0x30 0 ++
  [0x3ECCCCCD, 0x3E800000, 0x3E99999A, 0x3F000000].flatMap (leBytes 4) ++ List.replicate 0x30 0 ++
  [0x3F666666, 0x3F333333, 0x3ECCCCCD, 0x3DCCCCCD].flatMap (leBytes 4) ++ List.replicate 0x70 0

theorem test_winnow_accepts_two : acceptCount winnow1 4 0 = 2 := by decide +kernel

/-- The worked example of 02: grade OP3 at OP2, refusal at OP6. -/
def ladder : PlanRec := { plan1 with grades := [1, 3, 5].map fun g => { grade := g, fgBeats := 40, tiles := [5], refs := [], slots := [] } }

theorem test_grade_choice : (chooseGrade { up with grade := { up.grade with now := 2 } } ladder 5000).map (·.grade) = some 3 ∧
    (chooseGrade { up with grade := { up.grade with now := 6 } } ladder 5000).map (·.grade) = none := by decide +kernel

/-- The ladder's OP5 grade where a drop to OP4 takes effect during the plan. -/
theorem test_grade_choice_pending : (chooseGrade { up with
    grade := { up.grade with now := 2, announced := [{ rank := 0, own := true, grade := 4, eff := 5 }] } } ladder 5100).map (·.grade) = some 5 := by
  decide +kernel

/-- R602: nothing below 60 °C, half at 75 °C, full from 90 °C. -/
theorem test_cooling_fraction : coolFraction 59 = 0 ∧ coolFraction 75 = 15 ∧ coolFraction 90 = 30 ∧ coolFraction 120 = 30 := by decide

/-- R298: with MULT 512 every slot refreshes, with MULT 256 every second one. -/
theorem test_refresh_slots :
    let s := { up with mem := { up.mem with stack := up.mem.stack.set 1 { trained := true, mult := 256 } } }
    after (.refreshSlot 3 0) s (fun t => mget 0 t.mem.refreshes 3 == 1 && mget 0 t.mem.refreshes 67 == 0) = true ∧
    after (.refreshSlot 3 1) { s with tmp := { s.tmp with nowTicks := 2000 } }
      (fun t => mget 0 t.mem.refreshes 3 == 1 && mget 0 t.mem.refreshes 67 == 1) = true := by
  decide +kernel

/-- 02: a beat boundary counts one beat. -/
theorem test_beat_boundary : after (.beatBoundary true 0) up (fun t => t.tmp.beat == 5001) = true := by decide +kernel

/-- R40: the low half is read and the high half latched. -/
theorem test_beat_read : after (.tmpBeatNowLowRead 0) { up with tmp := { up.tmp with beat := 0x300000005 } }
    (fun t => t.out == [.readData 0 5] && t.tmp.latch[(0 : Fn)] == some 3) = true := by decide +kernel

/-- A step takes the command in front and leaves the rest. -/
theorem test_step_front : stepped { up with pending := [.holdoverExpiry, .beatBoundary true 0] }
    (fun t => t.pending == [.beatBoundary true 0] && t.tmp.beat == 5000) = true := by decide +kernel

/-- An empty queue leaves the state. -/
theorem test_step_idle : step up = .next up := rfl

/-- R345, Table 9-7: CLASS in bits 31:30, TAIL below. -/
theorem test_doorbell : after (.stpDoorbell 0 false 0 0x40000003) up (fun t => t.stp.queue[1].tail == 3 && t.stp.queue[0].tail == 0) = true := by
  decide +kernel

/-- R164: the least active lane of the group takes a free token, and its group reads 0. -/
theorem test_token_acquire : after (.tokenAcq 5 2 100) (tileUp (word 5 0 3 0 2 0 5) (group1 7 3))
    (fun t => token t 5 != .free && token t 6 == .free) = true := by decide +kernel

/-- R178: a store of four bytes waits in the store buffer. -/
theorem test_local_store : after (.localStore 5 2 100 true) (tileUp (word 2 1 0 0 2 0 0) (group1 7 1))
    (fun t => t.tile.storeBuf.map (fun e => (e.tile, e.space, e.block, e.taken)) == [(5, some 5, 1, 100)] && t.tile.localMem == []) = true := by
  decide +kernel

/-- R153: one product of 2 and 3 in INT8 and in E4M3, added to 1. -/
theorem test_mma_element : mmaElement 3 0x3F800000 [2] [3] [] [] = 0x40E00000 ∧ mmaElement 0 0x3F800000 [0x40] [0x44] [] [] = 0x40E00000 := by
  decide +kernel

/-- R303: 105 °C trips a stack, 104 does not. -/
theorem test_stack_trip : after (.stackTempSample 2 (some [90, 105])) up (fun t => t.mem.stack[(2 : Fin 8)].tripped) = true ∧
    after (.stackTempSample 2 (some [104, 90])) up (fun t => !t.mem.stack[(2 : Fin 8)].tripped) = true := by decide +kernel

/-- R569: a transfer of length 0 ends with DMA_BAD. -/
theorem test_dma_bad : after (.dmaStart 0 1 0x80000000) (dmaUp (dma1 false false 0) []) (fun t => t.hif.dma[(1 : Fin 16)].code == .dmaBad) = true := by
  decide +kernel

/-- R507: a reset pin low for 10 us resets the package. -/
theorem test_pkg_reset : after (.pkgReset false 10000) up (fun t => t.rst.vrEn == 0 && t.rst.cause.type == 1 && !t.rst.pkgGood) = true := by
  decide +kernel

/-- R639, R642: a rail of a die that fails for 2.2 us fails the die. -/
theorem test_rail_fault : after (.railFault 9 (.low 2200)) up (fun t => t.rst.die[(1 : Die)].failed && !t.rst.die[(2 : Die)].failed) = true := by
  decide +kernel

/-- R606, R607: the release needs 30 s at full cooling. -/
theorem test_watchdog_release : let s := { trayUp {} {} with tray := { (trayUp {} {}).tray with wdHold := true, fullSince := 1000 } }
    after (.coolingWatchdogRelease 0x5A 0xA5 1000 true true true 30999) s (fun t => t.tray.wdHold) = true ∧
    after (.coolingWatchdogRelease 0x5A 0xA5 1000 true true true 31000) s (fun t => !t.tray.wdHold) = true := by decide +kernel

end Sys2Proof.Tests
end

/-! SUPPORT. The statements on tempo and plans (02). Most of the text is what they rest on: the parts of the state that the engines, the
slices, the tiles, the steps and the collectives leave alone (`fixed`), one lemma for each operation; then what the operations of a frame
boundary leave of the count of beats. The statements follow, each settled from these. -/

namespace Sys2Proof.Proofs

open Sys2Proof Sys2Proof.Machine Sys2Proof.Laws

/-- A link group without the credits that its leases hold. -/
def noLease (l : LinkSt) : LinkSt := { l with leases := [] }

/-- The ring unit without its collectives: their records, the credits that their leases hold, and what RHL_COLL_LAST shows. -/
def ringFixed (r : Ring) : Ring :=
  { r with link := r.link.map noLease, colls := [], collCode := .ok, collBeat := 0, collPlan := 0 }

/-- The parts of the state that no engine, slice, tile, budget, step or collective changes. -/
structure Fixed where
  pending : List Instr
  fuses : Fuses
  tmp : Tempo
  grade : Grades
  sld : Loader
  str : Option Structure
  rhl : Ring
  pwr : Power
  rst : Reset
  flash : Flash
  tray : Tray

/-- The fixed parts of a state. -/
def fixed (s : State) : Fixed where
  pending := s.pending
  fuses := s.fuses
  tmp := s.tmp
  grade := s.grade
  sld := s.sld
  str := s.str
  rhl := ringFixed s.rhl
  pwr := s.pwr
  rst := s.rst
  flash := s.flash
  tray := s.tray

section
variable {s t : State}
theorem tmp_of_fixed (h : fixed t = fixed s) : t.tmp = s.tmp := congrArg Fixed.tmp h
theorem ring_of_fixed (h : fixed t = fixed s) : ringFixed t.rhl = ringFixed s.rhl := congrArg Fixed.rhl h
end

/-! ## What leaves the fixed parts alone

### Updates of fields, and ways of putting operations together -/

section
variable (s : State)
@[simp] theorem modOut_fixed (f) : fixed (s.modOut f) = fixed s := rfl
@[simp] theorem modFree_fixed (f) : fixed (s.modFree f) = fixed s := rfl
@[simp] theorem modNextId_fixed (f) : fixed (s.modNextId f) = fixed s := rfl
@[simp] theorem modTile_fixed (f) : fixed (s.modTile f) = fixed s := rfl
@[simp] theorem modGrn_fixed (f) : fixed (s.modGrn f) = fixed s := rfl
@[simp] theorem modFab_fixed (f) : fixed (s.modFab f) = fixed s := rfl
@[simp] theorem modMem_fixed (f) : fixed (s.modMem f) = fixed s := rfl
@[simp] theorem modBwr_fixed (f) : fixed (s.modBwr f) = fixed s := rfl
@[simp] theorem modStp_fixed (f) : fixed (s.modStp f) = fixed s := rfl
@[simp] theorem modSrv_fixed (f) : fixed (s.modSrv f) = fixed s := rfl
@[simp] theorem modTrl_fixed (f) : fixed (s.modTrl f) = fixed s := rfl
@[simp] theorem modGln_fixed (f) : fixed (s.modGln f) = fixed s := rfl
@[simp] theorem modTel_fixed (f) : fixed (s.modTel f) = fixed s := rfl
@[simp] theorem modHif_fixed (f) : fixed (s.modHif f) = fixed s := rfl
@[simp] theorem emit_fixed (o) : fixed (s.emit o) = fixed s := rfl

/-- A change of the ring unit that touches its collectives only. -/
theorem modRhl_fixed {f : Ring → Ring} (h : ∀ r, ringFixed (f r) = ringFixed r) : fixed (s.modRhl f) = fixed s := by
  simp [fixed, h]

@[simp] theorem each_fixed {α : Type} {f : State → α → State} (h : ∀ s x, fixed (f s x) = fixed s) (xs : List α) :
    fixed (s.each xs f) = fixed s := each_proj fixed f h xs s

@[simp] theorem when_fixed {f : State → State} (h : ∀ s, fixed (f s) = fixed s) (c : Bool) : fixed (s.when c f) = fixed s := by
  unfold State.when; split <;> simp [h]

@[simp] theorem ite_fixed {c : Prop} [Decidable c] (x y : State) : fixed (if c then x else y) = if c then fixed x else fixed y :=
  apply_ite fixed c x y

@[simp] theorem elim_fixed {α : Type} {f : α → State} (h : ∀ v, fixed (f v) = fixed s) (o : Option α) :
    fixed (o.elim s f) = fixed s := by cases o <;> simp [h]
end

/-- A fold whose steps leave the fixed parts alone does so too; the state it carries need not be all that it carries. -/
theorem foldl_fixed {α β : Type} (toState : β → State) {f : β → α → β}
    (h : ∀ b x, fixed (toState (f b x)) = fixed (toState b)) (xs : List α) (b : β) :
    fixed (toState (xs.foldl f b)) = fixed (toState b) := by
  induction xs generalizing b with
  | nil => rfl
  | cons x xs ih => exact (ih (f b x)).trans (h b x)

/-- A change of one entry that a map does not see. -/
theorem vmodN_map {α β : Type} {n : Nat} {f : α → α} {g : α → β} (h : ∀ x, g (f x) = g x) (v : Vector α n) (i : Nat) :
    (vmodN v i f).map g = v.map g := by
  unfold vmodN
  split
  · ext j hj
    simp only [Vector.getElem_map, Vector.getElem_set]
    split <;> simp_all
  · rfl

/-! ### Steps, partitions, reports (Machine/Ops.lean, Machine/MemOps.lean) -/

@[simp] theorem modStep_fixed (s : State) (id : Nat) (f : Step → Step) : fixed (s.modStep id f) = fixed s := by simp [State.modStep]

@[simp] theorem modPart_fixed (s : State) (p : Nat) (f : PartSt → PartSt) : fixed (s.modPart p f) = fixed s := by simp [State.modPart]

@[simp] theorem fresh_fixed (s : State) : fixed s.fresh = fixed s := by simp [State.fresh]

@[simp] theorem modStack_fixed (s : State) (t : Nat) (f : Stack → Stack) : fixed (s.modStack t f) = fixed s := by simp [State.modStack]

@[simp] theorem partFrame_fixed (s : State) (p : Nat) (f : PartFrame → PartFrame) : fixed (s.partFrame p f) = fixed s := by
  simp [State.partFrame]

@[simp] theorem signal_fixed (s : State) (fn vec : Nat) : fixed (s.signal fn vec) = fixed s := by simp [State.signal]

@[simp] theorem modFn_fixed (s : State) (fn : Nat) (f : HifFn → HifFn) : fixed (s.modFn fn f) = fixed s := by simp [State.modFn]

@[simp] theorem drawn_fixed (s : State) : fixed s.drawn = fixed s := by simp [State.drawn]

@[simp] theorem recordErr_fixed (s : State) (line cause : Nat) : fixed (recordErr s line cause) = fixed s := by simp [recordErr]

/-! ### Budgets (Machine/BwrOps.lean) -/

@[simp] theorem take_fixed (s : State) (m g u : Nat) : fixed (s.take m g u) = fixed s := by simp [State.take]

@[simp] theorem violate_fixed (s : State) (m u : Nat) : fixed (s.violate m u) = fixed s := by simp [State.violate]

@[simp] theorem hold_fixed (s : State) (m g u : Nat) (c0Read : Bool) (k : HeldKind) : fixed (s.hold m g u c0Read k) = fixed s := by
  simp [State.hold]

@[simp] theorem charge_fixed (s : State) (m g u : Nat) (c0Read : Bool) (k : HeldKind) : fixed (s.charge m g u c0Read k) = fixed s := by
  simp [State.charge]

@[simp] theorem untagged_fixed (s : State) (r : MemReq) : fixed (untagged s r) = fixed s := by
  unfold untagged; split <;> simp

@[simp] theorem demote_fixed (s : State) (r : MemReq) : fixed (demote s r).1 = fixed s := by
  unfold demote
  split
  · split <;> simp
  · rfl

@[simp] theorem demoteWaiters_fixed (s : State) (ws : List Waiter) : fixed (demoteWaiters s ws).1 = fixed s := by
  unfold demoteWaiters
  exact foldl_fixed (β := State × List Waiter) Prod.fst (fun st w => demote_fixed st.1 w.req) ws (s, [])

@[simp] theorem demoteNext_fixed (s : State) (n : AfterWb) : fixed (demoteNext s n).1 = fixed s := by
  unfold demoteNext; split <;> simp

@[simp] theorem dlMissed_fixed (s : State) (d master group : Nat) (step : Option Nat) :
    fixed (dlMissed s d master group step) = fixed s := by
  unfold dlMissed; dsimp only; split <;> simp

@[simp] theorem release_fixed (s : State) (k : HeldKind) : fixed (s.release k) = fixed s := by
  unfold State.release; split <;> simp

@[simp] theorem releaseHeld_fixed (s : State) : fixed (releaseHeld s) = fixed s := by
  unfold releaseHeld
  refine (foldl_fixed Prod.fst (fun st h => ?_) s.bwr.held _).trans (modBwr_fixed s _)
  dsimp only
  split
  · simp
  · split <;> simp

@[simp] theorem bwrBoundary_fixed (s : State) : fixed (bwrBoundary s) = fixed s := by simp [bwrBoundary]

/-! ### Tiles (Machine/TileOps.lean) -/

@[simp] theorem modGroup_fixed (s : State) (tile slot : Nat) (f : Group → Group) : fixed (s.modGroup tile slot f) = fixed s := by
  simp [State.modGroup]

@[simp] theorem faultStepAt_fixed (s : State) (id : Nat) (c : Code) (key : Option (Nat × Nat)) :
    fixed (s.faultStepAt id c key) = fixed s := by simp [State.faultStepAt]

@[simp] theorem faultStep_fixed (s : State) (id : Nat) (c : Code) : fixed (s.faultStep id c) = fixed s := by simp [State.faultStep]

@[simp] theorem settleMxe_fixed (s : State) (p : MxeWrite → Bool) : fixed (s.settleMxe p) = fixed s := by simp [State.settleMxe]

@[simp] theorem pokeLocal_fixed (s : State) (tile a : Nat) (bs : List Byte) : fixed (s.pokeLocal tile a bs) = fixed s := by
  simp [State.pokeLocal]

@[simp] theorem writeLocal_fixed (s : State) (tile a : Nat) (bs : List Byte) : fixed (s.writeLocal tile a bs) = fixed s := by
  simp [State.writeLocal]

@[simp] theorem setToken_fixed (s : State) (t : Nat) (v : Token) : fixed (s.setToken t v) = fixed s := by simp [State.setToken]

@[simp] theorem tokenStatus_fixed (s : State) (tile slot dst : Nat) (keep : Option Nat) (lanes : W32) (first rest : W32) :
    fixed (s.tokenStatus tile slot dst keep lanes first rest) = fixed s := by
  unfold State.tokenStatus; split <;> simp

@[simp] theorem grantToken_fixed (s : State) (t part tile slot dst : Nat) (keep : Option Nat) (lanes : W32) :
    fixed (s.grantToken t part tile slot dst keep lanes) = fixed s := by
  unfold State.grantToken; split <;> simp

@[simp] theorem serveToken_fixed (s : State) (t : Nat) : fixed (s.serveToken t) = fixed s := by
  unfold State.serveToken; split <;> simp

@[simp] theorem forfeitTokens_fixed (s : State) (tile slot : Nat) : fixed (s.forfeitTokens tile slot) = fixed s := by
  simp [State.forfeitTokens]

@[simp] theorem dropGroup_fixed (s : State) (tile slot : Nat) : fixed (s.dropGroup tile slot) = fixed s := by simp [State.dropGroup]

@[simp] theorem groupFault_fixed (s : State) (tile slot : Nat) (c : Code) (pc : Nat) (cycle : Option Nat) :
    fixed (s.groupFault tile slot c pc cycle) = fixed s := by
  unfold State.groupFault; split <;> simp

/-! ### The Granary (Machine/GranaryOps.lean) -/

@[simp] theorem modSlice_fixed (s : State) (n : Nat) (f : Slice → Slice) : fixed (s.modSlice n f) = fixed s := by simp [State.modSlice]

@[simp] theorem countTie_fixed (s : State) (a part : Nat) : fixed (countTie s a part) = fixed s := by simp [countTie]

@[simp] theorem modLine_fixed (s : State) (line part : Nat) (f : GLine → GLine) : fixed (s.modLine line part f) = fixed s := by
  simp [State.modLine]

@[simp] theorem dropLine_fixed (s : State) (line part : Nat) : fixed (s.dropLine line part) = fixed s := by simp [State.dropLine]

@[simp] theorem touch_fixed (s : State) (line part : Nat) : fixed (s.touch line part) = fixed s := by simp [State.touch]

@[simp] theorem installLine_fixed (s : State) (l : GLine) (cls : Nat) : fixed (s.installLine l cls) = fixed s := by simp [State.installLine]

@[simp] theorem queueWrite_fixed (s : State) (w : WbWait) (charges : List (Nat × Nat)) : fixed (s.queueWrite w charges) = fixed s := by
  simp [State.queueWrite]

@[simp] theorem evict_fixed (s : State) (l : GLine) (master : Nat) (next : AfterWb) : fixed (s.evict l master next) = fixed s := by
  simp [State.evict]

@[simp] theorem trackMiss_fixed (s : State) (a part : Nat) : fixed (trackMiss s a part) = fixed s := by simp [trackMiss]

@[simp] theorem trackHit_fixed (s : State) (a part : Nat) : fixed (trackHit s a part) = fixed s := by simp [trackHit]

@[simp] theorem recordKill_fixed (s : State) (line part : Nat) : fixed (recordKill s line part) = fixed s := by simp [recordKill]

@[simp] theorem killLine_fixed (s : State) (line part : Nat) : fixed (killLine s line part) = fixed s := by simp [killLine]

@[simp] theorem unkill_fixed (s : State) (line part : Nat) : fixed (unkill s line part) = fixed s := by simp [unkill]

@[simp] theorem noteDeadRead_fixed (s : State) (line part : Nat) : fixed (noteDeadRead s line part) = fixed s := by simp [noteDeadRead]

@[simp] theorem channelFault_fixed (s : State) (line : Nat) (step : Option Nat) : fixed (channelFault s line step) = fixed s := by
  simp [channelFault]

@[simp] theorem engineAnswer_fixed (s : State) (job n line : Nat) (data : List Byte) (code : Option Code) :
    fixed (engineAnswer s job n line data code) = fixed s := by simp [engineAnswer]

@[simp] theorem lateTag_fixed (s : State) (r : MemReq) : fixed (lateTag s r) = fixed s := by
  unfold lateTag; split <;> simp

@[simp] theorem answerRead_fixed (s : State) (r : MemReq) (data : List Byte) (poison : Bool) :
    fixed (answerRead s r data poison) = fixed s := by
  unfold answerRead; split <;> simp

theorem deadReadFault_fixed {s : State} {r : MemReq} (t : State) (e : deadReadFault s r = some t) : fixed t = fixed s := by
  unfold deadReadFault at e
  split at e
  · split at e
    · split at e
      · cases e; simp
      · cases e
    · cases e; simp
    · split at e
      · cases e; simp
      · cases e
    · cases e
  · cases e

@[simp] theorem ackStore_fixed (s : State) (r : MemReq) (lost : Bool) : fixed (ackStore s r lost) = fixed s := by
  unfold ackStore; split <;> simp

@[simp] theorem modMiss_fixed (s : State) (line part : Nat) (f : Miss → Miss) : fixed (s.modMiss line part f) = fixed s := by
  simp [State.modMiss]

@[simp] theorem holdPool_fixed (s : State) (r : MemReq) : fixed (holdPool s r) = fixed s := by simp [holdPool]

@[simp] theorem joinMiss_fixed (s : State) (m : Miss) (r : MemReq) : fixed (joinMiss s m r) = fixed s := by simp [joinMiss]

@[simp] theorem takeMiss_fixed (s : State) (r : MemReq) : fixed (takeMiss s r) = fixed s := by
  unfold takeMiss
  split
  · simp only [charge_fixed, modGrn_fixed]
    split <;> simp
  · simp

@[simp] theorem readMiss_fixed (s : State) (r : MemReq) : fixed (readMiss s r) = fixed s := by
  unfold readMiss; split <;> simp

@[simp] theorem countGr_fixed (s : State) (e : GrEcc) : fixed (countGr s e) = fixed s := by simp [countGr]

@[simp] theorem lineError_fixed (s : State) (l : GLine) : fixed (lineError s l) = fixed s := by simp [lineError]

@[simp] theorem deadHint_fixed (s : State) (line part : Nat) : fixed (deadHint s line part) = fixed s := by simp [deadHint]

@[simp] theorem readHit_fixed (s : State) (l : GLine) (r : MemReq) (ecc : GrEcc) : fixed (readHit s l r ecc) = fixed s := by simp [readHit]

@[simp] theorem readDirect_fixed (s : State) (r : MemReq) : fixed (readDirect s r) = fixed s := by simp [readDirect]

@[simp] theorem serveLookup_fixed (s : State) (r : MemReq) (ecc : GrEcc) : fixed (serveLookup s r ecc) = fixed s := by
  unfold serveLookup; split <;> simp

@[simp] theorem serveRead_fixed (s : State) (r0 : MemReq) (ecc : GrEcc) : fixed (serveRead s r0 ecc) = fixed s := by
  unfold serveRead
  dsimp only
  split
  · simp
  · split
    · rename_i e
      split at e
      · rw [deadReadFault_fixed _ e]; simp
      · cases e
    · simp

@[simp] theorem forward_fixed (s : State) (r : MemReq) (mask : BitVec 256) : fixed (s.forward r mask) = fixed s := by simp [State.forward]

@[simp] theorem poisonedStore_fixed (s : State) (r : MemReq) : fixed (poisonedStore s r) = fixed s := by simp [poisonedStore]

@[simp] theorem storeHit_fixed (s : State) (r : MemReq) : fixed (storeHit s r) = fixed s := by simp [storeHit]

@[simp] theorem storeMiss_fixed (s : State) (r : MemReq) : fixed (storeMiss s r) = fixed s := by
  unfold storeMiss
  dsimp only
  split
  · simp
  · split
    · simp
    · simp
    · split <;> simp

@[simp] theorem serveStore_fixed (s : State) (r0 : MemReq) : fixed (serveStore s r0) = fixed s := by
  unfold serveStore
  dsimp only
  split
  · simp
  · split
    · simp
    · split
      · simp
      · split
        · simp
        · split <;> simp

/-! ### The engines' accesses and jobs (Machine/GranaryOps.lean) -/

@[simp] theorem access_fixed (s : State) (who : Who) (a n : Nat) (bytes : Option (List Byte)) :
    fixed (s.access who a n bytes).1 = fixed s := by
  unfold State.access
  split
  · rfl
  · dsimp only; split <;> simp

@[simp] theorem rd_fixed (s : State) (who : Who) (a n : Nat) : fixed (s.rd who a n).1 = fixed s := by simp [State.rd]

@[simp] theorem wr_fixed (s : State) (who : Who) (a : Nat) (bs : List Byte) : fixed (s.wr who a bs).1 = fixed s := by simp [State.wr]

@[simp] theorem makeAccess_fixed (s : State) (job : Nat) (acc : EngAcc) : fixed (makeAccess s job acc) = fixed s := by simp [makeAccess]

@[simp] theorem jobOver_fixed (s : State) (job : Nat) : fixed (s.jobOver job) = fixed s := by simp [State.jobOver]

@[simp] theorem tryJob_fixed (job : Nat) (f : State → State) (k : Nat) (s : State) (kf : ∀ s, fixed (f s) = fixed s) :
    fixed (tryJob job f k s) = fixed s := by
  induction k generalizing s with
  | zero => rfl
  | succ k ih =>
    unfold tryJob
    dsimp only
    split
    · simp [kf]
    · split <;> simp [ih]

@[simp] theorem post_fixed (s : State) (j : EngJob) : fixed (s.post j) = fixed s := by simp [State.post]

@[simp] theorem dropJobs_fixed (s : State) (p : EngJob → Bool) : fixed (s.dropJobs p) = fixed s := by simp [State.dropJobs]

@[simp] theorem dropWalks_fixed (s : State) (p : Walk → Bool) : fixed (s.dropWalks p) = fixed s := by simp [State.dropWalks]

/-! ### Instruction fetch (Machine/Operands.lean, Machine/TilesOrder.lean) -/

@[simp] theorem fetch_fixed (s : State) (tile slot : Nat) : fixed (s.fetch tile slot) = fixed s := by
  unfold State.fetch; split <;> simp

@[simp] theorem fetched_fixed (s : State) (tile : Nat) : fixed (s.fetched tile) = fixed s := by
  unfold State.fetched
  apply each_fixed
  intro s i
  split
  · rfl
  · split <;> simp

@[simp] theorem preload_fixed (s : State) (tile a : Nat) (ws : List (BitVec 64)) : fixed (s.preload tile a ws) = fixed s := by
  simp [State.preload]

@[simp] theorem fetchLine_fixed (s : State) (tile slot words : Nat) : fixed (fetchLine s tile slot words) = fixed s := by
  unfold fetchLine
  split
  · rfl
  · split
    · rfl
    · dsimp only; split <;> simp

/-! ### Steps (Machine/StepOps.lean) -/

@[simp] theorem wrFor_fixed (s : State) (who : Who) (step a : Nat) (bs : List Byte) : fixed (s.wrFor who step a bs) = fixed s := by
  unfold State.wrFor; dsimp only; split <;> simp

@[simp] theorem chargePart_fixed (s : State) (p n : Nat) : fixed (s.chargePart p n) = fixed s := by simp [State.chargePart]

@[simp] theorem modTrlSlot_fixed (s : State) (n : Nat) (f : TSlot → TSlot) : fixed (s.modTrlSlot n f) = fixed s := by
  simp [State.modTrlSlot]

@[simp] theorem issueUp_fixed (s : State) (r : UpRead) : fixed (s.issueUp r) = fixed s := by simp [State.issueUp]

@[simp] theorem sendUp_fixed (s : State) : fixed s.sendUp = fixed s := by simp [State.sendUp]

@[simp] theorem upstream_fixed (s : State) (fn : Nat) (src : UpSrc) (addr len : Nat) : fixed (s.upstream fn src addr len) = fixed s := by
  simp [State.upstream]

@[simp] theorem abandonUp_fixed (s : State) (p : Nat → UpSrc → Bool) : fixed (s.abandonUp p) = fixed s := by simp [State.abandonUp]

@[simp] theorem startFill_fixed (s : State) (n : Nat) (p : TPush) : fixed (s.startFill n p) = fixed s := by simp [State.startFill]

@[simp] theorem tryPending_fixed (s : State) (n : Nat) : fixed (s.tryPending n) = fixed s := by
  unfold State.tryPending; dsimp only; split <;> simp

@[simp] theorem unpin_fixed (s : State) (step : Nat) : fixed (s.unpin step) = fixed s := by simp [State.unpin]

@[simp] theorem setCtxField_fixed (s : State) (c off len v : Nat) : fixed (s.setCtxField c off len v) = fixed s := by
  simp [State.setCtxField]

@[simp] theorem writeRecord_fixed (s : State) (p : Nat) (irq : Bool) (r : CqRecord) : fixed (s.writeRecord p irq r) = fixed s := by
  simp [State.writeRecord]

@[simp] theorem clearStep_fixed (s : State) (id : Nat) : fixed (s.clearStep id) = fixed s := by
  unfold State.clearStep
  simp only [abandonUp_fixed, modSrv_fixed]
  rw [modRhl_fixed _ fun r => by simp [ringFixed, noLease, Function.comp_def]]
  simp

@[simp] theorem completeStep_fixed (s : State) (id : Nat) : fixed (s.completeStep id) = fixed s := by
  have note (s : State) (c : Code) (b : BitVec 24) (p : BitVec 16) :
      fixed (s.modRhl fun r => { r with collCode := c, collBeat := b, collPlan := p }) = fixed s := modRhl_fixed s fun _ => rfl
  unfold State.completeStep
  split
  · rfl
  · dsimp only
    simp only [writeRecord_fixed, modStp_fixed, unpin_fixed, clearStep_fixed]
    simp [note]

@[simp] theorem endStep_fixed (s : State) (id : Nat) (c : Code) : fixed (s.endStep id c) = fixed s := by simp [State.endStep]

@[simp] theorem refuseStep_fixed (s : State) (id : Nat) (c : Code) : fixed (s.refuseStep id c) = fixed s := by simp [State.refuseStep]

/-! ### Trellis (Machine/Trellis.lean) -/

@[simp] theorem writeView_fixed (s : State) (step addr : Nat) (bytes : List Byte) : fixed (writeView s step addr bytes) = fixed s := by
  unfold writeView; split <;> simp

@[simp] theorem applyChannel_fixed (w : Who) (step mode a : Nat) (new : W32) (s : State) :
    fixed (applyChannel w step mode a new s) = fixed s := by
  unfold applyChannel
  split
  · simp
  · dsimp only; split <;> simp

@[simp] theorem applyPoint_fixed (w : Who) (step : Nat) (s : State) (d : GridDesc) (pt : List Byte) :
    fixed (applyPoint w step s d pt) = fixed s := by
  unfold applyPoint; dsimp only; split <;> simp

@[simp] theorem gridStart_fixed (s : State) (t : Step) (w : Who) (addr op : Nat) : fixed (gridStart s t w addr op).1 = fixed s := by
  unfold gridStart; split <;> simp

@[simp] theorem scatterPoints_fixed (s : State) (t : Step) (w : Who) (d : GridDesc) (a len : Nat) :
    fixed (scatterPoints s t w d a len) = fixed s := by
  unfold scatterPoints; dsimp only; split <;> simp

@[simp] theorem trlScatter_fixed (s : State) (t : Step) (w : Who) (addr : Nat) : fixed (trlScatter s t w addr) = fixed s := by
  have hg := gridStart_fixed s t w addr 0
  unfold trlScatter
  split <;> rename_i h <;> rw [h] at hg
  · simpa using hg
  · split
    · exact hg
    · simpa using hg

@[simp] theorem shiftCells_fixed (s : State) (t : Step) (w : Who) (d : GridDesc) (src : List Byte) :
    fixed (shiftCells s t w d src) = fixed s := by simp [shiftCells]

@[simp] theorem trlShift_fixed (s : State) (t : Step) (w : Who) (addr : Nat) : fixed (trlShift s t w addr) = fixed s := by
  have hg := gridStart_fixed s t w addr 1
  unfold trlShift
  split <;> rename_i h <;> rw [h] at hg
  · simpa using hg
  · dsimp only
    split
    · simpa using hg
    · split <;> simpa using hg

/-! ### The serving complex (Machine/Serving.lean) -/

@[simp] theorem pageNext_fixed (w : Who) (p a : Nat) (s : State) : fixed (pageNext w p a s).1 = fixed s := by
  unfold pageNext
  split
  · rfl
  · split <;> simp

@[simp] theorem pageBlock_fixed (w : Who) (p addr k : Nat) (s : State) : fixed (pageBlock w p addr k s).1 = fixed s := by
  induction k generalizing addr s with
  | zero => rfl
  | succ k ih =>
    unfold pageBlock
    dsimp only
    split <;> simp [ih]

@[simp] theorem setCursor_fixed (s : State) (c k a : Nat) : fixed (s.setCursor c k a) = fixed s := by simp [State.setCursor]

@[simp] theorem resolvePage_fixed (s : State) (w : Who) (p c i : Nat) : fixed (resolvePage s w p c i).1 = fixed s := by
  unfold resolvePage
  split
  · rfl
  · have hb := pageBlock_fixed w p (listStart s c (i / 511)).2 (i / 511 - (listStart s c (i / 511)).1) s
    dsimp only
    split <;> rename_i h <;> rw [h] at hb
    · exact hb
    · split <;> simpa using hb

@[simp] theorem kvPut_fixed (w : Who) (step : Nat) (s : State) (k : KvPlace) (bs : List Byte) : fixed (kvPut w step s k bs) = fixed s := by
  unfold kvPut; split <;> simp

@[simp] theorem kvGet_fixed (w : Who) (s : State) (k : KvPlace) (n : Nat) : fixed (kvGet w s k n).1 = fixed s := by
  unfold kvGet; split <;> simp

@[simp] theorem gatherHost_fixed (s : State) (t : Step) (w : Who) (c a n : Nat) (k : KvPlace) :
    fixed (gatherHost s t w c a n k) = fixed s := by simp [gatherHost]

@[simp] theorem gatherDevice_fixed (s : State) (t : Step) (w : Who) (a n : Nat) (k : KvPlace) :
    fixed (gatherDevice s t w a n k) = fixed s := by
  unfold gatherDevice
  split
  · simp
  · dsimp only; split <;> simp

@[simp] theorem gatherToken_fixed (s : State) (t : Step) (w : Who) (c token : Nat) (k : KvPlace) :
    fixed (gatherToken s t w c token k) = fixed s := by
  have hp := resolvePage_fixed s w t.part c (tokenPage s c token)
  unfold gatherToken
  split
  · rfl
  · dsimp only
    split <;> rename_i h <;> rw [h] at hp
    · simpa using hp
    · split <;> simpa using hp

@[simp] theorem scatterDevice_fixed (s : State) (t : Step) (w : Who) (a n : Nat) (k : KvPlace) :
    fixed (scatterDevice s t w a n k) = fixed s := by
  unfold scatterDevice
  split
  · simp
  · dsimp only; split <;> simp

@[simp] theorem scatterToken_fixed (s : State) (t : Step) (w : Who) (c token : Nat) (k : KvPlace) :
    fixed (scatterToken s t w c token k) = fixed s := by
  have hp := resolvePage_fixed s w t.part c (tokenPage s c token)
  unfold scatterToken
  split
  · rfl
  · split <;> rename_i h <;> rw [h] at hp
    · simpa using hp
    · split <;> simpa using hp

@[simp] theorem kvTransfer_fixed (s : State) (t : Step) (w : Who) (gather : Bool) (c token count : Nat) (k : KvPlace) :
    fixed (kvTransfer s t w gather c token count k) = fixed s := by
  unfold kvTransfer; split <;> simp

@[simp] theorem modWalk_fixed (s : State) (slot : Nat) (f : Walk → Walk) : fixed (s.modWalk slot f) = fixed s := by simp [State.modWalk]

@[simp] theorem startWalk_fixed (s : State) (slot part : Nat) (fn step last : Option Nat) (req : Nat) :
    fixed (startWalk s slot part fn step last req) = fixed s := by simp [startWalk]

@[simp] theorem walkRequest_fixed (s : State) (slot : Nat) : fixed (walkRequest s slot) = fixed s := by
  unfold walkRequest
  split
  · rfl
  · split <;> simp

@[simp] theorem planWalk_fixed (s : State) (t : Step) (last req : Nat) : fixed (planWalk s t last req) = fixed s := by
  unfold planWalk
  split
  · simp
  · split <;> simp

@[simp] theorem walkFrom_fixed (s : State) (w : Walk) (b : List Byte) (exts : Nat) : fixed (walkFrom s w b exts).1 = fixed s := by
  unfold walkFrom
  split
  · rfl
  · split <;> simp

@[simp] theorem walkOn_fixed (s : State) (w : Walk) (b : List Byte) (exts : Nat) : fixed (s.walkOn w b exts) = fixed s := by
  simp [State.walkOn]

@[simp] theorem walkMatched_fixed (s : State) (w : Walk) (a : Nat) (b : List Byte) : fixed (walkMatched s w a b) = fixed s := by
  have hr (c : Prop) [Decidable c] (u : Who) (x : Nat) (bs : List Byte) : fixed (if c then s.wr u x bs else (s, EngGot.none 0)).1 = fixed s := by
    split <;> simp
  unfold walkMatched
  dsimp only
  split
  · simp
  · split <;> simp [hr]

@[simp] theorem walkChild_fixed (s : State) (w : Walk) (a : Nat) (b : List Byte) : fixed (walkChild s w a b) = fixed s := by
  unfold walkChild
  dsimp only
  split
  · simp
  · split
    · simp
    · split
      · simp
      · split <;> simp

@[simp] theorem walkNodeRead_fixed (s : State) (w : Walk) (b : List Byte) : fixed (walkNodeRead s w b) = fixed s := by
  unfold walkNodeRead; split <;> simp

@[simp] theorem walkStep_fixed (s : State) (slot : Nat) : fixed (walkStep s slot) = fixed s := by
  unfold walkStep
  split
  · rfl
  · split
    · rfl
    · split
      · simp
      · dsimp only; split <;> simp

@[simp] theorem freeWalkSlot_fixed (s : State) (slot part : Nat) : fixed (freeWalkSlot s slot part) = fixed s := by
  unfold freeWalkSlot
  split
  · split <;> simp
  · rfl

@[simp] theorem walkOver_fixed (s : State) (w : Walk) (c : Code) : fixed (walkOver s w c) = fixed s := by
  unfold walkOver
  dsimp only
  rw [freeWalkSlot_fixed]
  split
  · split <;> split <;> simp
  · split <;> simp

@[simp] theorem walkDone_fixed (s : State) (slot : Nat) : fixed (walkDone s slot) = fixed s := by
  unfold walkDone
  split
  · rfl
  · split
    · split <;> simp
    · rfl

theorem winnowRecord_fixed {s : State} {t : Step} {earlier : List Nat} {b : List Byte}
    (p : State × List Byte) (e : winnowRecord s t earlier b = .inr p) :
    fixed p.1 = fixed s := by
  unfold winnowRecord at e
  dsimp only at e
  split at e
  · cases e; simp
  · split at e
    · cases e; simp
    · split at e
      · cases e
      · split at e
        · cases e
        · split at e <;> cases e <;> simp

@[simp] theorem winnowWrite_fixed (s : State) (t : Step) (w : Who) (out : Nat) (seen : List Nat) (b : List Byte) :
    fixed (winnowWrite s t w out seen b) = fixed s := by
  unfold winnowWrite
  split
  · simp
  · rename_i h
    simpa using winnowRecord_fixed _ h

@[simp] theorem winnowAll_fixed (t : Step) (w : Who) (inA outA k i : Nat) (seen : List Nat) (s : State) :
    fixed (winnowAll t w inA outA k i seen s) = fixed s := by
  induction k generalizing i seen s with
  | zero => rfl
  | succ k ih =>
    unfold winnowAll
    split
    · rfl
    · dsimp only; split <;> simp [ih]

@[simp] theorem winnowVerify_fixed (s : State) (t : Step) (w : Who) (inA outA count : Nat) :
    fixed (winnowVerify s t w inA outA count) = fixed s := by
  unfold winnowVerify; split <;> simp

/-! ### Host accesses (Machine/HostOps.lean) -/

@[simp] theorem bar2Answer_fixed (s : State) (fn off len : Nat) : fixed (bar2Answer s fn off len) = fixed s := by simp [bar2Answer]

@[simp] theorem modQueue_fixed (s : State) (q : Nat) (f : Queue → Queue) : fixed (s.modQueue q f) = fixed s := by simp [State.modQueue]

/-! ### Words and collectives on the ring (Machine/RingOps.lean) -/

@[simp] theorem modLink_fixed (s : State) (l : Nat) (f : LinkSt → LinkSt) (hf : ∀ x, noLease (f x) = noLease x) :
    fixed (s.modLink l f) = fixed s := modRhl_fixed _ fun r => by simp [ringFixed, vmodN_map hf]

@[simp] theorem sendWord_fixed (s : State) (bs : List Byte) (p : Nat → Bool) : fixed (s.sendWord bs p) = fixed s := by simp [State.sendWord]

@[simp] theorem sendConsensus_fixed (s : State) : fixed s.sendConsensus = fixed s := by simp [State.sendConsensus]

@[simp] theorem endColls_fixed (s : State) (mask : BitVec 8) (c : Code) : fixed (s.endColls mask c) = fixed s := by simp [State.endColls]

@[simp] theorem modColl_fixed (s : State) (step : Nat) (f : Coll → Coll) : fixed (s.modColl step f) = fixed s := modRhl_fixed _ fun _ => rfl

@[simp] theorem collPut_fixed (s : State) (c : Coll) (e : Nat) (ws : List W32) : fixed (s.collPut c e ws) = fixed s := by
  simp [State.collPut]

@[simp] theorem reserveCredits_fixed (s : State) (l : Nat) (red : Bool) (c : Coll) (n : Nat) :
    fixed (s.reserveCredits l red c n) = fixed s := by
  unfold State.reserveCredits
  dsimp only
  split
  · rfl
  · exact modLink_fixed _ _ _ fun _ => rfl

@[simp] theorem returnCredits_fixed (s : State) (step : Nat) :
    fixed (s.returnCredits step) = fixed s := modRhl_fixed _ fun r => by simp [ringFixed, noLease, Function.comp_def]

@[simp] theorem collSend_fixed (s : State) (step : Nat) (y : Bool) (f : RingFlit) : fixed (s.collSend step y f) = fixed s := by
  unfold State.collSend; split <;> simp

@[simp] theorem flushWaiting_fixed (s : State) : fixed s.flushWaiting = fixed s := by
  unfold State.flushWaiting
  apply each_fixed
  intro s c
  split
  · rfl
  · split <;> simp

@[simp] theorem sendChunk_fixed (s : State) (c : Coll) (ph : CollPhase) (red : Bool) (chunk lo n : Nat) :
    fixed (s.sendChunk c ph red chunk lo n) = fixed s := by simp [State.sendChunk]

@[simp] theorem collFlit_fixed (s : State) (c : Coll) (ph : CollPhase) (f : RingFlit) : fixed (s.collFlit c ph f) = fixed s := by
  simp [State.collFlit]

@[simp] theorem beginPhase_fixed (s : State) (c : Coll) (ph : CollPhase) : fixed (s.beginPhase c ph) = fixed s := by
  unfold State.beginPhase
  dsimp only
  split
  · split
    · split <;> simp
    · simp
  · split <;> simp

@[simp] theorem runEarly_fixed (s : State) (c : Coll) (ph : CollPhase) : fixed (s.runEarly c ph) = fixed s := by
  unfold State.runEarly
  dsimp only
  rw [each_fixed, modColl_fixed]
  intro s e
  split <;> simp

@[simp] theorem advanceColl_fixed (s : State) (step k : Nat) : fixed (s.advanceColl step k) = fixed s := by
  induction k generalizing s with
  | zero => rfl
  | succ k ih =>
    unfold State.advanceColl
    split
    · rfl
    · split
      · rfl
      · split
        · split
          · exact (returnCredits_fixed _ _).trans (modRhl_fixed _ fun _ => rfl)
          · rfl
        · simp [ih]

@[simp] theorem startColl_fixed (s : State) (t : Step) (op : CollOp) (dim : CollDim) (int32 : Bool) (n root tile laddr : Nat) :
    fixed (s.startColl t op dim int32 n root tile laddr) = fixed s := by
  unfold State.startColl
  split
  · simp
  · split
    · simp
    · split
      · simp
      · dsimp only
        exact (advanceColl_fixed _ _ _).trans (modRhl_fixed _ fun _ => rfl)

/-! ### DMA engines, descriptors, windows (Machine/ResetOps.lean, Machine/GranaryCmds.lean, Machine/StepCmds.lean) -/

@[simp] theorem endDma_fixed (s : State) (e : Nat) (c : Code) (done : Nat) : fixed (s.endDma e c done) = fixed s := by simp [State.endDma]

@[simp] theorem planWindow_fixed (s : State) (t : Step) (n base limit : Nat) (ctrl : W32) :
    fixed (planWindow s t n base limit ctrl) = fixed s := by simp [planWindow]

@[simp] theorem descBytes_fixed (s : State) (q a : Nat) : fixed (descBytes s q a).1 = fixed s := by
  unfold descBytes; split <;> simp

@[simp] theorem readDescriptor_fixed (s : State) (q : Nat) : fixed (readDescriptor s q) = fixed s := by
  unfold readDescriptor; dsimp only; split <;> simp

@[simp] theorem descriptorIn_fixed (s : State) (q : Nat) : fixed (descriptorIn s q) = fixed s := by simp [descriptorIn]

/-! ### What the actions of a slot do (Machine/StepCmds.lean) -/

@[simp] theorem launchKernel_fixed (s : State) (t : Step) (last tile slot codeId pc words : Nat) (args : List W32) :
    fixed (launchKernel s t last tile slot codeId pc words args) = fixed s := by
  have hr (c : Prop) [Decidable c] (u : Who) (x n : Nat) : fixed (if c then (s, EngGot.none 0) else s.rd u x n).1 = fixed s := by
    split <;> simp
  unfold launchKernel
  split
  · simp
  · split
    · simp
    · split
      · rfl
      · dsimp only; split <;> simp [hr]

@[simp] theorem multicastRead_fixed (s : State) (t : Step) (last entry tile laddr dev : Nat) :
    fixed (multicastRead s t last entry tile laddr dev) = fixed s := by
  unfold multicastRead
  split
  · simp
  · split
    · simp
    · split <;> simp

@[simp] theorem planTransfer_fixed (s : State) (t : Step) (last : Nat) (toLocal : Bool) (engine tile laddr dev len : Nat) :
    fixed (planTransfer s t last toLocal engine tile laddr dev len) = fixed s := by
  unfold planTransfer
  split
  · simp
  · split
    · simp
    · split
      · simp
      · split
        · dsimp only; split <;> simp
        · simp

@[simp] theorem planAreaRead_fixed (s : State) (t : Step) (ctx tile laddr : Nat) : fixed (planAreaRead s t ctx tile laddr) = fixed s := by
  simp [planAreaRead]

@[simp] theorem startReduction_fixed (s : State) (t : Step) (tree flits : Nat) : fixed (startReduction s t tree flits) = fixed s := by
  simp [startReduction]

@[simp] theorem runAction_fixed (t : Step) (last : Nat) (s : State) (a : SlotAction) : fixed (runAction t last s a) = fixed s := by
  unfold runAction; split <;> simp

@[simp] theorem actionRun_fixed (s : State) (step last : Nat) (a : SlotAction) : fixed (actionRun s step last a) = fixed s := by
  unfold actionRun; split <;> simp

/-! ### Placement (Machine/PlaceOps.lean) -/

@[simp] theorem partPick_fixed (s : State) (p k : Nat) : fixed (partPick s p k).1 = fixed s := by
  induction k generalizing s with
  | zero => rfl
  | succ k ih =>
    unfold partPick
    dsimp only
    split <;> simp [ih]

@[simp] theorem placeStep_fixed (s : State) (t : Step) (b : Nat) (g : PlanGrade) : fixed (placeStep s t b g) = fixed s := by
  simp [placeStep]

@[simp] theorem pickFor_fixed (st : State × NMap Nat × Nat) (p : Nat) : fixed (pickFor st p).1.1 = fixed st.1 := by
  have hp := partPick_fixed st.1 p (st.1.stp.steps.length + 1)
  unfold pickFor
  dsimp only
  split
  · split <;> rename_i h <;> rw [h] at hp <;> simpa using hp
  · rfl

@[simp] theorem pickShares_fixed (k : Nat) (st : State × NMap Nat × Nat) (ps : List Nat) : fixed (pickShares k st ps) = fixed st.1 := by
  induction k generalizing st ps with
  | zero => rfl
  | succ k ih =>
    unfold pickShares
    split
    · rfl
    · rename_i p _
      have hp := pickFor_fixed st p
      split
      · split <;> rename_i h <;> rw [h] at hp <;> simpa [ih] using hp
      · rfl

@[simp] theorem placeAll_fixed (s : State) : fixed (placeAll s) = fixed s := by
  have hp (ps : List Nat) : fixed (ps.foldl (fun st p => (pickFor st p).1) (s, ([] : NMap Nat), 0)).1 = fixed s :=
    foldl_fixed Prod.fst pickFor_fixed ps (s, [], 0)
  unfold placeAll
  split
  · simp [hp]
  · rfl

/-! ### Host data, and the engines' jobs (Machine/HostData.lean, Machine/Engines.lean) -/

@[simp] theorem dmaFromHost_fixed (s : State) (e : Nat) (data : List Byte) (hostErr : Bool) :
    fixed (dmaFromHost s e data hostErr) = fixed s := by simp [dmaFromHost]

@[simp] theorem dmaToHost_fixed (s : State) (e moved : Nat) (hostErr : Bool) : fixed (dmaToHost s e moved hostErr) = fixed s := by
  simp [dmaToHost]

@[simp] theorem hostPageIn_fixed (s : State) (step addr : Nat) (deadline : Option Nat) (data : List Byte) :
    fixed (hostPageIn s step addr deadline data) = fixed s := by
  unfold hostPageIn; split <;> simp

@[simp] theorem runJob_fixed (j : EngJob) (s : State) : fixed (runJob j s) = fixed s := by
  unfold runJob; split <;> simp

@[simp] theorem jobOn_fixed (s : State) (e : Nat × EngJob) : fixed (jobOn s e) = fixed s := by simp [jobOn]

@[simp] theorem settle_fixed (s : State) : fixed (settle s) = fixed s := by simp [settle]

/-! ### Collectives at a beat boundary (Machine/TempoCmds.lean) -/

@[simp] theorem collBeat_fixed (s : State) : fixed (collBeat s) = fixed s := by simp [collBeat]

/-! ## The tempo unit

What the operations of a frame boundary leave of it: all of it, its count of beats, or all but its record of slips. -/

section
variable (s : State)
@[simp] theorem signal_tmp (fn vec) : (s.signal fn vec).tmp = s.tmp := tmp_of_fixed (signal_fixed s fn vec)
@[simp] theorem endColls_tmp (mask c) : (s.endColls mask c).tmp = s.tmp := tmp_of_fixed (endColls_fixed s mask c)
@[simp] theorem placeAll_tmp : (placeAll s).tmp = s.tmp := tmp_of_fixed (placeAll_fixed s)
@[simp] theorem sendWord_tmp (bs p) : (s.sendWord bs p).tmp = s.tmp := tmp_of_fixed (sendWord_fixed s bs p)
@[simp] theorem sendConsensus_tmp : (s.sendConsensus).tmp = s.tmp := tmp_of_fixed (sendConsensus_fixed s)
@[simp] theorem bwrBoundary_tmp : (bwrBoundary s).tmp = s.tmp := tmp_of_fixed (bwrBoundary_fixed s)
@[simp] theorem collBeat_tmp : (collBeat s).tmp = s.tmp := tmp_of_fixed (collBeat_fixed s)
@[simp] theorem settle_tmp : (settle s).tmp = s.tmp := tmp_of_fixed (settle_fixed s)

@[simp] theorem each_tmp {α : Type} {f : State → α → State} (h : ∀ s x, (f s x).tmp = s.tmp) (xs : List α) :
    (s.each xs f).tmp = s.tmp := each_proj State.tmp f h xs s

/-! ### Operations that leave it alone -/

@[simp] theorem modStep_tmp (id f) : (s.modStep id f).tmp = s.tmp := rfl
@[simp] theorem powerEvent_tmp (b) : (s.powerEvent b).tmp = s.tmp := rfl
@[simp] theorem refreshGood_tmp : s.refreshGood.tmp = s.tmp := rfl
@[simp] theorem setVolts_tmp (k) : (s.setVolts k).tmp = s.tmp := rfl
@[simp] theorem writeWear_tmp : (writeWear s).tmp = s.tmp := rfl
@[simp] theorem dropMember_tmp (r) : (s.dropMember r).tmp = s.tmp := rfl
@[simp] theorem leaveDomain_tmp : s.leaveDomain.tmp = s.tmp := rfl
@[simp] theorem nextValues_tmp : (nextValues s).tmp = s.tmp := rfl
@[simp] theorem returnDies_tmp : (returnDies s).tmp = s.tmp := rfl
@[simp] theorem countJoin_tmp : (countJoin s).tmp = s.tmp := rfl
@[simp] theorem turnTelemetry_tmp (f) : (turnTelemetry s f).tmp = s.tmp := rfl
@[simp] theorem senseBeat_tmp (sense) : (senseBeat s sense).tmp = s.tmp := rfl
@[simp] theorem powerBeat_tmp : (powerBeat s).tmp = s.tmp := rfl
@[simp] theorem switchClock_tmp (k) : (s.switchClock k).tmp = s.tmp := by unfold State.switchClock; split <;> rfl
@[simp] theorem syncClock_tmp : s.syncClock.tmp = s.tmp := switchClock_tmp s _
@[simp] theorem guardBeat_tmp : (guardBeat s).tmp = s.tmp := switchClock_tmp s _
@[simp] theorem raiseVolts_tmp (f) : (raiseVolts s f).tmp = s.tmp := by unfold raiseVolts; split <;> rfl
@[simp] theorem sendUpdate_tmp (w) : (s.sendUpdate w).tmp = s.tmp := sendWord_tmp _ _ _
@[simp] theorem announce_tmp (g) : (s.announce g).tmp = s.tmp := sendUpdate_tmp _ _
@[simp] theorem announceDue_tmp : s.announceDue.tmp = s.tmp := by unfold State.announceDue; split <;> simp
@[simp] theorem addMember_tmp (r) : (s.addMember r).tmp = s.tmp := by unfold State.addMember; dsimp only; split <;> rfl
@[simp] theorem join_tmp : s.join.tmp = s.tmp := by simp [State.join]
@[simp] theorem stageBoundary_tmp : (stageBoundary s).tmp = s.tmp := by unfold stageBoundary; split <;> rfl

@[simp] theorem ageTiles_tmp : (ageTiles s).tmp = s.tmp := by
  unfold ageTiles
  split
  · rfl
  · dsimp only; split <;> simp

@[simp] theorem takeEffect_tmp (k) : (takeEffect s k).tmp = s.tmp := by
  induction k generalizing s with
  | zero => exact syncClock_tmp s
  | succ k ih =>
    unfold takeEffect
    split
    · exact syncClock_tmp s
    · exact ih _

@[simp] theorem capChange_tmp {f : State → State} (h : ∀ s, (f s).tmp = s.tmp) : (s.capChange f).tmp = s.tmp := by
  unfold State.capChange
  dsimp only
  split <;> simp [h]

@[simp] theorem stackReason_tmp (f t) : (stackReason s f t).tmp = s.tmp := by
  unfold stackReason
  dsimp only
  split
  · rfl
  · split
    · rfl
    · split <;> rfl

@[simp] theorem tileReason_tmp (f) : (tileReason s f).tmp = s.tmp := by
  unfold tileReason
  dsimp only
  split
  · rfl
  · split
    · rfl
    · split <;> rfl

@[simp] theorem limiterReason_tmp (f) : (limiterReason s f).tmp = s.tmp := by
  unfold limiterReason
  dsimp only
  split
  · rfl
  · split
    · rfl
    · split <;> rfl

@[simp] theorem standingReasons_tmp (f) : (standingReasons s f).tmp = s.tmp := by simp [standingReasons]

@[simp] theorem applyReshape_tmp (e) : (s.applyReshape e).tmp = s.tmp := by
  have one (s : State) (r : Nat) : (if s.rhl.state == .member then s.addMember r else s).tmp = s.tmp := by split <;> simp
  simp only [State.applyReshape, apply_ite State.tmp, leaveDomain_tmp, each_tmp _ dropMember_tmp, each_tmp _ one, join_tmp, ite_self]

@[simp] theorem applyDue_tmp (due) : (s.applyDue due).tmp = s.tmp := by
  unfold State.applyDue
  split
  · rfl
  · simp

@[simp] theorem callRoll_tmp : (callRoll s).tmp = s.tmp := by
  unfold callRoll
  split
  · rfl
  · dsimp only
    split
    · rfl
    · exact each_tmp _ dropMember_tmp _
end

/-! ### The count of beats -/

/-- The count of beats: whether it runs, the number of the beat, the ticks passed, and where its frame started. -/
structure Count where
  counting : Bool
  beat : Nat
  nowTicks : Nat
  frameStart : Nat

/-- The count of beats of a tempo unit. -/
def count (t : Tempo) : Count := ⟨t.counting, t.beat, t.nowTicks, t.frameStart⟩

section
variable {t u : Tempo}
theorem counting_of_count (h : count t = count u) : t.counting = u.counting := congrArg Count.counting h
theorem beat_of_count (h : count t = count u) : t.beat = u.beat := congrArg Count.beat h
theorem nowTicks_of_count (h : count t = count u) : t.nowTicks = u.nowTicks := congrArg Count.nowTicks h
theorem frameStart_of_count (h : count t = count u) : t.frameStart = u.frameStart := congrArg Count.frameStart h
end

section
variable (s : State)
@[simp] theorem realignLink_count : count s.realignLink.tmp = count s.tmp := rfl

@[simp] theorem remaster_count : count s.remaster.tmp = count s.tmp := by
  have own (u : State) : count (if ownMaster u = ownRank u then u.modTmp fun t => { t with realign := .none } else u).tmp = count u.tmp := by
    split <;> rfl
  exact own _

@[simp] theorem remasterDue_count : count s.remasterDue.tmp = count s.tmp := by unfold State.remasterDue; split <;> simp

@[simp] theorem ringDown_count : count s.ringDown.tmp = count s.tmp := by simp [State.ringDown]

@[simp] theorem leaveRing_count : count (leaveRing s).tmp = count s.tmp := by
  unfold leaveRing
  split
  · simp
  · split <;> rfl

@[simp] theorem consensusBeat_count : count (consensusBeat s).tmp = count s.tmp := by unfold consensusBeat; split <;> simp
end

/-! ### Slips, and loads of the beat number (R49, R50) -/

/-- A tempo unit without its record of slips. -/
def noSlips (t : Tempo) : Tempo := { t with slipCount := 0, slipPart := Vector.replicate 8 0, slipLast := {} }

section
variable {t u : Tempo}
theorem counting_of_noSlips (h : noSlips t = noSlips u) : t.counting = u.counting := (congrArg Tempo.counting h :)
theorem beat_of_noSlips (h : noSlips t = noSlips u) : t.beat = u.beat := (congrArg Tempo.beat h :)
theorem nowTicks_of_noSlips (h : noSlips t = noSlips u) : t.nowTicks = u.nowTicks := (congrArg Tempo.nowTicks h :)
theorem realign_of_noSlips (h : noSlips t = noSlips u) : t.realign = u.realign := (congrArg Tempo.realign h :)
theorem realignCount_of_noSlips (h : noSlips t = noSlips u) : t.realignCount = u.realignCount := (congrArg Tempo.realignCount h :)
end

@[simp] theorem slip_noSlips (s : State) (id cause b o) : noSlips (s.slip id cause b o).tmp = noSlips s.tmp := by
  unfold State.slip; split <;> rfl

theorem each_noSlips {α : Type} {f : State → α → State} (h : ∀ s x, noSlips (f s x).tmp = noSlips s.tmp) (xs : List α) (s : State) :
    noSlips (s.each xs f).tmp = noSlips s.tmp := each_proj (fun s => noSlips s.tmp) f h xs s

@[simp] theorem rebase_noSlips (s : State) (old new) : noSlips (rebase s old new).tmp = noSlips s.tmp := by
  unfold rebase
  rw [each_noSlips fun s i => slip_noSlips s i _ _ _, modTile_tmp, each_tmp _ fun s i => modStep_tmp s i _]

/-- The ticks of the count that the master has now (R49): its marker's, with the link delay and the ticks since the marker arrived. -/
def masterTicks (s : State) (m : Marker) : Nat :=
  ((m.beatNo : Int) * 1000 + ((vat s.tmp.linkDelay m.link none).elim 0 (·.toNat) : Nat) + (s.tmp.nowTicks - m.atTicks)).toNat

/-- A tempo unit that has loaded a count in ticks (R49). -/
def loaded (t : Tempo) (ticks : Nat) : Tempo :=
  { t with beat := ticks / 1000, reached := max t.reached (ticks / 1000), again := decide (ticks / 1000 ≤ t.reached),
           beatPhase := ticks % 1000, beatTicks := 1000 - ticks % 1000, realign := .none, realignArmed := false,
           realignCount := t.realignCount + 1, trimLeft := 0,
           frameStart := t.nowTicks - (bInF (ticks / 1000) * 1000 + ticks % 1000) }

/-- A load sets the master's count and, but for the slips of what it moves, nothing else of the tempo unit. -/
theorem loadBeat_noSlips (s : State) (m : Marker) : noSlips (loadBeat s m).tmp = noSlips (loaded s.tmp (masterTicks s m)) := by
  have aged (c : Prop) [Decidable c] : (if c then ageTiles s else s).tmp = s.tmp := by split <;> simp
  simp only [loadBeat, takeEffect_tmp, modStp_tmp, rebase_noSlips, modTmp_tmp, endColls_tmp, aged, masterTicks, loaded]
  rfl

/-! ### A frame boundary -/

/-- What a load leaves of the count of beats: that it runs, and the ticks passed. -/
theorem loadBeat_runs (s : State) (m : Marker) :
    (loadBeat s m).tmp.counting = s.tmp.counting ∧ (loadBeat s m).tmp.nowTicks = s.tmp.nowTicks :=
  ⟨(counting_of_noSlips (loadBeat_noSlips s m)).trans rfl, (nowTicks_of_noSlips (loadBeat_noSlips s m)).trans rfl⟩

/-- What decides whether a reshape admits the package itself (R444). -/
def admission (r : Ring) : RingState × Option (Nat × Nat) × List Reshape := (r.state, r.rank, r.reshapes)

/-- Some reshape event joins the package while it is JOINING (R444). -/
def mayJoin (s : State) : Bool := s.rhl.state == .joining && s.rhl.reshapes.any fun e => e.joins.contains (ownRank s)

theorem mayJoin_congr {s t : State} (h : admission t.rhl = admission s.rhl) : mayJoin t = mayJoin s := by
  obtain ⟨hs, hr, he⟩ : t.rhl.state = s.rhl.state ∧ t.rhl.rank = s.rhl.rank ∧ t.rhl.reshapes = s.rhl.reshapes := by
    simpa [admission] using h
  simp [mayJoin, ownRank, hs, hr, he]

theorem admission_of_fixed {s t : State} (h : fixed t = fixed s) : admission t.rhl = admission s.rhl :=
  congrArg (fun r => (r.state, r.rank, r.reshapes)) (ring_of_fixed h)

/-- A reshape that takes effect at this boundary is one of the reshapes noted. -/
theorem joinsNow_of_not_mayJoin {s : State} (h : mayJoin s = false) : joinsNow s = false := by
  unfold mayJoin at h
  unfold joinsNow dueReshapes
  rw [Bool.and_eq_false_iff] at h ⊢
  refine h.imp id fun h => ?_
  rw [List.any_eq_false] at h ⊢
  exact fun e he => h e (List.mem_filter.mp he).1

@[simp] theorem ageTiles_rhl (s : State) : (ageTiles s).rhl = s.rhl := by
  unfold ageTiles
  split
  · rfl
  · dsimp only; split <;> simp [writeWear]

@[simp] theorem dropMember_admission (s : State) (m) : admission (s.dropMember m).rhl = admission s.rhl := rfl

@[simp] theorem callRoll_admission (s : State) : admission (callRoll s).rhl = admission s.rhl := by
  unfold callRoll
  split
  · rfl
  · dsimp only
    split
    · rfl
    · exact each_proj (fun s => admission s.rhl) _ (fun s m => dropMember_admission s m) _ _

/-- The load with which a package that joins takes its master's count (R444). -/
def joinLoad (s : State) : State := if joinsNow s then s.tmp.marker.elim s (loadBeat s) else s

/-- Of what the reshapes of a frame boundary do, only that load touches the count of beats. -/
theorem reshapeBoundary_count (s : State) : count (reshapeBoundary s).tmp = count (joinLoad (callRoll s)).tmp := by
  have noted (c : Prop) [Decidable c] (u : State) (f) : count (if c then u else u.modRhl f).tmp = count u.tmp := by split <;> rfl
  unfold reshapeBoundary
  dsimp only
  rw [noted]
  simp [joinLoad]

theorem joinLoad_of_not_mayJoin {s : State} (h : mayJoin s = false) : joinLoad s = s := by
  simp [joinLoad, joinsNow_of_not_mayJoin h]

/-- The load leaves the count running, and the ticks passed. -/
theorem joinLoad_runs (s : State) : (joinLoad s).tmp.counting = s.tmp.counting ∧ (joinLoad s).tmp.nowTicks = s.tmp.nowTicks := by
  unfold joinLoad
  split
  · generalize s.tmp.marker = o
    cases o with
    | none => exact ⟨rfl, rfl⟩
    | some m => rw [Option.elim_some]; exact loadBeat_runs s m
  · exact ⟨rfl, rfl⟩

/-- What a frame boundary does before its reshapes: it notes where the frame starts, turns the telemetry and ages the tiles. -/
def openFrame (s : State) : State :=
  let f := frameOf s.beat
  let s := (turnTelemetry s f).modTmp fun t => { t with frames := t.frames + 1, frameStart := t.nowTicks }
  if f % 1024 = 0 ∧ s.tmp.again = false then ageTiles s else s

theorem openFrame_count (s : State) : count (openFrame s).tmp = count { s.tmp with frameStart := s.tmp.nowTicks } := by
  unfold openFrame
  dsimp only
  split
  · rw [ageTiles_tmp]; rfl
  · rfl

theorem openFrame_rhl (s : State) : (openFrame s).rhl = s.rhl := by
  unfold openFrame
  dsimp only
  split
  · rw [ageTiles_rhl]; rfl
  · rfl

/-- After its reshapes a frame boundary leaves the count of beats alone. -/
theorem frameBoundary_count (s : State) : count (frameBoundary s).tmp = count (reshapeBoundary (openFrame s)).tmp := by
  simp [frameBoundary, openFrame]

/-- A frame boundary at which no reshape admits the package itself starts a frame and counts on. -/
theorem frameBoundary_starts {s : State} (h : mayJoin s = false) :
    count (frameBoundary s).tmp = count { s.tmp with frameStart := s.tmp.nowTicks } := by
  have hj : mayJoin (callRoll (openFrame s)) = false :=
    (mayJoin_congr ((callRoll_admission _).trans (congrArg admission (openFrame_rhl s)))).trans h
  rw [frameBoundary_count, reshapeBoundary_count, joinLoad_of_not_mayJoin hj, callRoll_tmp, openFrame_count]

/-- Whatever its reshapes load, a frame boundary leaves the count running, and the ticks passed. -/
theorem frameBoundary_runs (s : State) :
    (frameBoundary s).tmp.counting = s.tmp.counting ∧ (frameBoundary s).tmp.nowTicks = s.tmp.nowTicks := by
  have hf : count (frameBoundary s).tmp = count (joinLoad (callRoll (openFrame s))).tmp :=
    (frameBoundary_count s).trans (reshapeBoundary_count _)
  have ho := openFrame_count s
  obtain ⟨hc, ht⟩ := joinLoad_runs (callRoll (openFrame s))
  rw [callRoll_tmp] at hc ht
  exact ⟨(counting_of_count hf).trans (hc.trans ((counting_of_count ho).trans rfl)),
    (nowTicks_of_count hf).trans (ht.trans ((nowTicks_of_count ho).trans rfl))⟩

/-! ## Reads of TMP_BEAT_NOW (R40) -/

/-- Settles O11: the low read latches the high half, and the high read answers with the latch and empties it. -/
theorem beatNowReads : Obligations.BeatNowReads := by
  unfold Obligations.BeatNowReads
  intro fn s hup hdec
  constructor
  · change Host.Outcome.next (hostAccess s fn fun s => readBeatLow s fn) = _
    rw [hostAccess_open hup hdec]
    simp only [readBeatLow, State.modTmp, vmodN_set]
    rfl
  · change Host.Outcome.next (hostAccess s fn fun s => readBeatHigh s fn) = _
    rw [hostAccess_open hup hdec]
    simp only [readBeatHigh, State.modTmp, vmodN_set, vat_get]
    rfl

/-! ## The reference (R51 to R58) -/

/-- In LOCKED the loss of the reference starts HOLDOVER. -/
theorem refLost_of_locked {s : State} (h : s.tmp.mode = .locked) :
    refLost s = (s.modTmp fun t => { t with refPresent := false, validBeats := 0, mode := .holdover, holdoverLeft := 1000 }).event
      .tempoHoldover := if_pos h

/-- Settles O12: a missing edge and an interval too far off are one loss of the reference. -/
theorem referenceLoss : Obligations.ReferenceLoss := by
  unfold Obligations.ReferenceLoss
  intro s ppm hlocked
  refine ⟨⟨_, congrArg Host.Outcome.next (refLost_of_locked hlocked), rfl, rfl, rfl, rfl, rfl, rfl⟩, ?_, ?_⟩
  · intro hoff
    exact congrArg Host.Outcome.next (if_pos hoff)
  · intro hnear
    exact congrArg Host.Outcome.next (if_neg (Nat.not_lt.mpr hnear))

/-- Settles O13: each exit asks for its own count of valid beats. -/
theorem leavingHoldoverAndFenced : Obligations.LeavingHoldoverAndFenced := by
  unfold Obligations.LeavingHoldoverAndFenced
  intro s
  refine ⟨fun hmode hvalid => ?_, fun hmode hcount hvalid => ?_⟩
  · exact congrArg Host.Outcome.next (if_pos ⟨hmode, hvalid⟩)
  · exact congrArg Host.Outcome.next (if_pos ⟨hcount, hmode, hvalid⟩)

/-- Words that leave on the link groups are all that `sendWord` adds. -/
theorem sendWord_mem (s : State) (bs p) : (s.sendWord bs p).mem = s.mem :=
  each_proj State.mem _ (fun s l => by split <;> rfl) _ s

theorem sendWord_tel (s : State) (bs p) : (s.sendWord bs p).tel = s.tel :=
  each_proj State.tel _ (fun s l => by split <;> rfl) _ s

@[simp] theorem floodReshape_tmp (s : State) (l js ls) : (s.floodReshape l js ls).tmp = s.tmp := sendUpdate_tmp _ _
theorem floodReshape_mem (s : State) (l js ls) : (s.floodReshape l js ls).mem = s.mem := by
  rw [State.floodReshape, State.sendUpdate, sendWord_mem]; rfl
theorem floodReshape_tel (s : State) (l js ls) : (s.floodReshape l js ls).tel = s.tel := by
  rw [State.floodReshape, State.sendUpdate, sendWord_tel]; rfl

/-- Settles O14: the entry to FENCED is reported, and flooded as a reshape by a member, which is one no longer. -/
theorem holdoverEndsFenced : Obligations.HoldoverEndsFenced := by
  unfold Obligations.HoldoverEndsFenced
  intro s hmode hleft
  have flood {γ : Type} (g : State → γ) (hg : ∀ s l js ls, g (State.floodReshape s l js ls) = g s) (c : Prop) [Decidable c] (u : State) :
      g (if c then u.floodReshape none [] [ownRank u] else u) = g u := by
    split
    · exact hg _ _ _ _
    · rfl
  have out (c : Prop) [Decidable c] : (if c then RingState.leaving else .joining) ≠ .member := by split <;> decide
  refine ⟨_, congrArg Host.Outcome.next (if_pos ⟨hmode, hleft⟩), ?_⟩
  dsimp only [modRhl_tmp, modRhl_tel, modRhl_mem, modRhl_rhl]
  rw [flood State.tmp floodReshape_tmp, flood State.tel floodReshape_tel, flood State.mem floodReshape_mem]
  exact ⟨rfl, rfl, rfl, rfl, out _, rfl⟩

/-! ## Alignment (R45 to R49) -/

/-- Settles O15: `takeMarker` is what the statement says, once its guard holds. -/
theorem markerAligns : Obligations.MarkerAligns := by
  unfold Obligations.MarkerAligns
  intro link beatNo arrival d s hcount hlive haligns hdelay hmember
  have hd : (vat s.tmp.linkDelay link none).elim 0 (·.toNat) = d.toNat := by rw [vat_get, hdelay]; rfl
  have hguard : (s.tmp.counting && linkLive (linkSt s link).state && alignsOn s link) = true := by
    simp [hcount, hlive, haligns]
  refine ⟨_, congrArg Host.Outcome.next (if_pos hguard), ?_⟩
  simp only [takeMarker, hd, modTmp_tmp, modTmp_mem, modTmp_stp, modTmp_rhl, hmember, realignFor]
  exact ⟨trivial, trivial, rfl, trivial, trivial, trivial, trivial⟩

/-- Settles O16: each realignment is armed in the beat at whose end it acts. -/
theorem realignArmsAtGuardBeat : Obligations.RealignArmsAtGuardBeat := by
  unfold Obligations.RealignArmsAtGuardBeat
  intro s hcount
  refine ⟨fun hhold hbeat => ?_, fun hskip hbeat hgrade => ?_⟩
  · exact congrArg Host.Outcome.next (if_pos (by simp [hcount, hhold, State.beat, hbeat]))
  · exact congrArg Host.Outcome.next (if_pos (by simp [hcount, hskip, State.beat, hbeat, hgrade]))

/-- The count that a load takes over is the marker's, with the delay that its link group has. -/
theorem masterTicks_of_delay {s : State} {m : Marker} {d : BitVec 16} (h : s.tmp.linkDelay[m.link] = some d) :
    masterTicks s m = ((m.beatNo : Int) * 1000 + d.toNat + (s.tmp.nowTicks - m.atTicks)).toNat := by
  rw [masterTicks, vat_get, h]
  rfl

/-- Settles O17: the guard of the load holds, and `loadBeat_noSlips` says what it loads. -/
theorem beatNumberLoadTakesMasterCount : Obligations.BeatNumberLoadTakesMasterCount := by
  unfold Obligations.BeatNumberLoadTakesMasterCount
  intro m d s hmarker hdelay hcount hload hmember hmaster hframe hbeat
  have hstands : loadStands s m = true := by simp [loadStands, bInF, State.beat, *]
  have hexec : exec .beatNumberLoad s = .next (loadBeat s m) := by
    change execBeatNumberLoad s = _
    simp [execBeatNumberLoad, hmarker, hstands]
  have h := loadBeat_noSlips s m
  rw [masterTicks_of_delay hdelay] at h
  exact ⟨_, hexec, beat_of_noSlips h, (counting_of_noSlips h).trans hcount, realign_of_noSlips h, realignCount_of_noSlips h⟩

/-! ## The beat boundary (R38, R48) -/

/-- The beat that ends and the beat that begins: the number of the next beat, and the ticks of the last one passed. -/
theorem startBeat_endBeat_count (t : Tempo) (refValid : Bool) :
    count (t.endBeat refValid).startBeat = ⟨t.counting, t.nextBeat, t.nowTicks + t.beatTicks, t.frameStart⟩ := by
  unfold Tempo.startBeat
  dsimp only
  split <;> rfl

/-- The state of a beat boundary before what its guard or frame boundary does. -/
def nextBeatState (s : State) (refValid : Bool) (sense : BitVec 4) : State :=
  collBeat ((bwrBoundary ((powerBeat (senseBeat s sense)).modTmp fun t => (t.endBeat refValid).startBeat)).modMem
    fun m => { m with retryUsed := [] })

theorem nextBeatState_count (s : State) (refValid sense) : count (nextBeatState s refValid sense).tmp =
    ⟨s.tmp.counting, s.tmp.nextBeat, s.tmp.nowTicks + s.tmp.beatTicks, s.tmp.frameStart⟩ := by
  simp [nextBeatState, startBeat_endBeat_count]

theorem nextBeatState_mayJoin (s : State) (refValid sense) : mayJoin (nextBeatState s refValid sense) = mayJoin s := by
  refine (mayJoin_congr (admission_of_fixed (s := (powerBeat (senseBeat s sense)).modTmp fun t => (t.endBeat refValid).startBeat) ?_)).trans rfl
  simp [nextBeatState]

theorem beatBoundary_eq (s : State) (refValid sense) : beatBoundary s refValid sense =
    if bInF (nextBeatState s refValid sense).beat = 1023 then guardBeat (nextBeatState s refValid sense)
    else if bInF (nextBeatState s refValid sense).beat = 0 then frameBoundary (nextBeatState s refValid sense)
    else nextBeatState s refValid sense := rfl

/-- Every beat boundary leaves the count running, and its ticks passed. -/
theorem beatBoundary_runs (s : State) (refValid sense) : (beatBoundary s refValid sense).tmp.counting = s.tmp.counting ∧
    (beatBoundary s refValid sense).tmp.nowTicks = s.tmp.nowTicks + s.tmp.beatTicks := by
  have hn := nextBeatState_count s refValid sense
  have hc : (nextBeatState s refValid sense).tmp.counting = s.tmp.counting := congrArg Count.counting hn
  have ht : (nextBeatState s refValid sense).tmp.nowTicks = s.tmp.nowTicks + s.tmp.beatTicks := congrArg Count.nowTicks hn
  rw [beatBoundary_eq]
  split
  · rw [guardBeat_tmp]; exact ⟨hc, ht⟩
  · split
    · obtain ⟨h1, h2⟩ := frameBoundary_runs (nextBeatState s refValid sense)
      exact ⟨h1.trans hc, h2.trans ht⟩
    · exact ⟨hc, ht⟩

/-- A beat boundary that opens no frame, or a frame at which no reshape admits the package itself, begins the next beat. -/
theorem beatBoundary_begins {s : State} {refValid : Bool} {sense : BitVec 4} (h : s.tmp.nextBeat % 1024 ≠ 0 ∨ mayJoin s = false) :
    (beatBoundary s refValid sense).tmp.beat = s.tmp.nextBeat ∧ (s.tmp.nextBeat % 1024 = 0 →
      (beatBoundary s refValid sense).tmp.frameStart = (beatBoundary s refValid sense).tmp.nowTicks) := by
  have hb : (nextBeatState s refValid sense).beat = s.tmp.nextBeat := congrArg Count.beat (nextBeatState_count s refValid sense)
  rw [beatBoundary_eq, hb]
  split
  next hguard =>
    rw [guardBeat_tmp]
    exact ⟨hb, fun h0 => absurd (hguard.symm.trans h0) (by decide)⟩
  next =>
    split
    next hframe =>
      have hj := (nextBeatState_mayJoin s refValid sense).trans (h.resolve_left (absurd hframe ·))
      have hf := frameBoundary_starts hj
      exact ⟨(beat_of_count hf).trans hb, fun _ => (frameStart_of_count hf).trans (nowTicks_of_count hf).symm⟩
    next hother => exact ⟨hb, fun h0 => absurd h0 hother⟩

/-- Settles O10: `beatBoundary_runs` and `beatBoundary_begins`, as the engines that go on after it leave the tempo unit alone. -/
theorem beatBoundaryCounts : Obligations.BeatBoundaryCounts := by
  unfold Obligations.BeatBoundaryCounts
  intro refValid sense next s hcount hnext
  have hexec : exec (.beatBoundary refValid sense) s = .next (settle (beatBoundary s refValid sense)) := by
    change execBeatBoundary refValid sense s = _
    rw [execBeatBoundary, if_pos hcount, settled]
  have hn : s.tmp.nextBeat = next := hnext.symm
  obtain ⟨hc, ht⟩ := beatBoundary_runs s refValid sense
  refine ⟨_, hexec, ?_⟩
  rw [settle_tmp]
  refine ⟨hc.trans hcount, ht, fun h => ?_⟩
  have hj : s.tmp.nextBeat % 1024 ≠ 0 ∨ mayJoin s = false := by
    rw [hn]
    refine h.imp id fun hno => ?_
    simpa [mayJoin] using hno
  rw [← hn]
  exact beatBoundary_begins hj

/-! ## Admission and the ends of slots (R64, R70 to R75, R363) -/

theorem openCtxs_stp (s : State) (x : Step) : (s.openCtxs x).stp = s.stp := by
  unfold State.openCtxs; rw [each_proj State.stp]; exact fun _ _ => rfl
theorem openCtxs_mem (s : State) (x : Step) : (s.openCtxs x).mem = s.mem := by
  unfold State.openCtxs; rw [each_proj State.mem]; exact fun _ _ => rfl
theorem openCtxs_tmp (s : State) (x : Step) : (s.openCtxs x).tmp = s.tmp := by
  unfold State.openCtxs; rw [each_proj State.tmp]; exact fun _ _ => rfl

/-- A step in flight from this beat, with its grade and charge, and no slot of it begun (R363). -/
def admitted (s : State) (r : PlanRec) (g : PlanGrade) (x : Step) : Step :=
  { x with phase := .live, start := s.beat, grade := g.grade, charge := r.tiles * g.fgBeats, begun := [], running := [], delays := [] }

/-- What `startStep` does: the step is in flight, and the contents of device memory and the tempo unit stay. -/
theorem startStep_spec {s : State} {x : Step} (r : PlanRec) (g : PlanGrade) (h : getStep s x.id = some x) :
    getStep (startStep s x r g) x.id = some (admitted s r g x) ∧ (startStep s x r g).mem = s.mem ∧ (startStep s x r g).tmp = s.tmp := by
  unfold startStep
  refine ⟨?_, openCtxs_mem _ _, openCtxs_tmp _ _⟩
  rw [getStep, openCtxs_stp]
  exact getStep_modStep (s.chargePart x.part _) x.id (admitted s r g) (fun _ => rfl) x h

/-- Settles O20: nothing refuses or defers the step, so `startStep` starts it. -/
theorem stepAdmitted : Obligations.StepAdmitted := by
  unfold Obligations.StepAdmitted
  intro x r g s hx hphase hstart hfg hadm htrip hcoll hing hsnap hplan hgrade htiles
  have hcode : startCode s x = none := by
    by_cases hc : collectiveStep s x = true
    · simp [startCode, htrip, hc, (hcoll hc).1]
    · simp [startCode, htrip, hc]
  have hlate : (collectiveStep s x && x.start != s.beat) = false := by
    by_cases hc : collectiveStep s x = true
    · simp [(hcoll hc).2, State.beat]
    · simp [hc]
  have hview : (x.ingest && (x.snap.isNone || viewPending s x.id)) = false := by
    by_cases hi : x.ingest = true
    · obtain ⟨h1, h2⟩ := hing hi
      simp [h1, h2]
    · simp [hi]
  have hplaced : admitPlaced s x = startStep s x r g := by
    have hgrade' : chooseGrade s r s.beat = some g := hgrade
    unfold admitPlaced
    rw [hcode]
    dsimp only
    rw [hlate, if_neg Bool.false_ne_true, hview, if_neg Bool.false_ne_true, hplan]
    dsimp only
    rw [hgrade']
    dsimp only
    rw [htiles, if_neg Bool.false_ne_true, hsnap]
  have hexec : exec (.stepAdmit x.id) s = .next (startStep s x r g) := by
    change execStepAdmit x.id s = _
    simp [execStepAdmit, hx, hphase, hadm, State.beat, hstart, hfg, hplaced]
  exact ⟨_, hexec, startStep_spec r g hx⟩

/-- The entry that a slip writes to TMP_SLIP_LAST (Table 2-7). -/
def slipEntry (x : Step) (cause endBeat overrun : Nat) : SlipLast :=
  { beat := BitVec.ofNat 24 endBeat, planId := BitVec.ofNat 16 x.runPlan, part := BitVec.ofNat 3 x.part, cause := BitVec.ofNat 2 cause,
    overrun := BitVec.ofNat 11 (min overrun 0x7FF) }

/-- What a slip does (R75): it counts and is recorded, and the step is marked. -/
theorem slip_spec {s : State} {id : Nat} {x : Step} (h : getStep s id = some x) (cause endBeat overrun : Nat) :
    let t := s.slip id cause endBeat overrun
    t.tmp.slipCount = s.tmp.slipCount + 1 ∧ t.tmp.slipLast = slipEntry x cause endBeat overrun ∧ t.tmp.beat = s.tmp.beat ∧
      t.mem = s.mem ∧ getStep t id = some { x with slip := true } := by
  unfold State.slip
  rw [h]
  exact ⟨rfl, rfl, rfl, rfl, getStep_modStep _ id (fun x => { x with slip := true }) (fun _ => rfl) x h⟩

/-- A slot whose ring operation has not missed ends once its last beat is reached: after its slip, if it has one. -/
theorem slotEnd_eq {s : State} {id n overrun : Nat} {x : Step} {ps : PlanSlot} {r : RunSlot} (hx : getStep s id = some x)
    (hps : slotOf s x n = some ps) (hr : (x.running.find? fun q => q.slot == n) = some r) (hlast : r.last ≤ s.tmp.beat)
    (hbusy : slotBusy s id n = false) :
    exec (.slotEnd id n overrun false) s = .next ((if r.limited then s.slip id causeLimiter r.last overrun
      else if overrun = 0 then s else s.slip id causeOverrun r.last overrun).modStep id (endSlot ps n overrun)) := by
  change execSlotEnd id n overrun false s = _
  simp [execSlotEnd, hx, hps, hr, hbusy, State.beat, hlast]

/-- Settles O23: an overrun or an engaged limiter is one slip, and without either the slot only ends. -/
theorem slotOverrunDelays : Obligations.SlotOverrunDelays := by
  unfold Obligations.SlotOverrunDelays
  intro x n overrun ps r s hx hps hr hlast hbusy
  have hend (k : Nat) (u : State) (y : Step) (h : getStep u x.id = some y) :
      getStep (u.modStep x.id (endSlot ps n k)) x.id = some (endSlot ps n k y) := getStep_modStep u x.id (endSlot ps n k) (fun _ => rfl) y h
  refine ⟨fun hslip => ?_, fun hfree => ?_⟩
  · have hcase : (if r.limited then s.slip x.id causeLimiter r.last overrun
        else if overrun = 0 then s else s.slip x.id causeOverrun r.last overrun) =
        s.slip x.id (if r.limited = true then causeLimiter else causeOverrun) r.last overrun := by
      by_cases hl : r.limited = true
      · simp [hl]
      · have : overrun ≠ 0 := Nat.pos_iff_ne_zero.mp (hslip.resolve_right hl)
        simp [hl, this]
    obtain ⟨hcount, hentry, hbeat, hmem, hstep⟩ :=
      slip_spec hx (if r.limited = true then causeLimiter else causeOverrun) r.last overrun
    refine ⟨_, slotEnd_eq hx hps hr hlast hbusy, ?_⟩
    rw [hcase]
    refine ⟨hcount, congrArg SlipLast.beat hentry, congrArg SlipLast.overrun hentry, (congrArg SlipLast.cause hentry).trans ?_,
      hend overrun _ _ hstep, hbeat, hmem⟩
    split <;> rfl
  · refine ⟨_, slotEnd_eq hx hps hr hlast hbusy, ?_⟩
    rw [hfree]
    exact ⟨rfl, rfl, hend 0 s x hx⟩

end Sys2Proof.Proofs

/-! SUPPORT. The statements on the structure bit-stream (03), and on windows, quotas and trackers (05). First what any command leaves of
the fuses; then what the shared operations of the loader leave of the state, and what each of its operations and reads amounts to once
its guards are decided; then the Granary's registers. -/

namespace Sys2Proof.Proofs

open Sys2Proof Sys2Proof.Machine Sys2Proof.Laws

/-! ## The fuses under any command (R104, R105) -/

/-- What a command can do to what `Ok` names: nothing, unless it is the data of a loader read or one of Larkspur's three cooling
commands. -/
theorem exec_ok_or_special {s t : State} : (c : Instr) → exec c s = .next t → Ok s t ∨ (∃ good data, c = .sldReadDone good data) ∨
    (∃ temps, c = .coolingUpdate temps) ∨ (∃ ms, c = .coolingWatchdogExpiry ms) ∨
      ∃ b1 b2 us i x y ms, c = .coolingWatchdogRelease b1 b2 us i x y ms
  | .beatBoundary .., h => .inl (execBeatBoundary_ok _ _ s t h)
  | .tmpBeatNowLowRead .., h => .inl (execTmpBeatNowLowRead_ok _ s t h)
  | .markerReceived .., h => .inl (execMarkerReceived_ok _ _ _ s t h)
  | .catchUpRealign, h => .inl (execCatchUpRealign_ok s t h)
  | .beatNumberLoad, h => .inl (execBeatNumberLoad_ok s t h)
  | .refEdgeTimeout, h => .inl (execRefEdgeTimeout_ok s t h)
  | .refFreqIntervalEnd .., h => .inl (execRefFreqIntervalEnd_ok _ s t h)
  | .holdoverExpiry, h => .inl (execHoldoverExpiry_ok s t h)
  | .holdoverExit, h => .inl (execHoldoverExit_ok s t h)
  | .fencedExit, h => .inl (execFencedExit_ok s t h)
  | .slotStart .., h => .inl (execSlotStart_ok _ _ _ s t h)
  | .slotEnd .., h => .inl (execSlotEnd_ok _ _ _ _ s t h)
  | .sldValidate .., h => .inl (execSldValidate_ok _ _ s t h)
  | .sldLoad .., h => .inl (execSldLoad_ok _ _ s t h)
  | .sldKeyop .., h => .inl (execSldKeyop_ok _ _ s t h)
  | .sldReadDone good data, _ => .inr (.inl ⟨good, data, rfl⟩)
  | .matchTieClear .., h => .inl (execMatchTieClear_ok _ s t h)
  | .aluInstr .., h => .inl (execAluInstr_ok _ _ _ _ s t h)
  | .convertInstr .., h => .inl (execConvertInstr_ok _ _ _ _ s t h)
  | .controlInstr .., h => .inl (execControlInstr_ok _ _ _ _ _ s t h)
  | .mxeMma .., h => .inl (execMxeMma_ok _ _ _ _ s t h)
  | .mxeSt .., h => .inl (execMxeSt_ok _ _ _ _ _ s t h)
  | .localLoad .., h => .inl (execLocalLoad_ok _ _ _ _ s t h)
  | .localStore .., h => .inl (execLocalStore_ok _ _ _ _ s t h)
  | .deviceLoad .., h => .inl (execDeviceLoad_ok _ _ _ _ s t h)
  | .deviceStore .., h => .inl (execDeviceStore_ok _ _ _ _ s t h)
  | .fenceL .., h => .inl (execFenceL_ok _ _ _ s t h)
  | .fenceD .., h => .inl (execFenceD_ok _ _ _ s t h)
  | .tokenAcq .., h => .inl (execTokenAcq_ok _ _ _ s t h)
  | .tokenWait .., h => .inl (execTokenWait_ok _ _ _ s t h)
  | .tokenRel .., h => .inl (execTokenRel_ok _ _ _ s t h)
  | .tokenWaitLimit .., h => .inl (execTokenWaitLimit_ok _ _ _ s t h)
  | .groupExit .., h => .inl (execGroupExit_ok _ _ s t h)
  | .icacheFill .., h => .inl (execIcacheFill_ok _ _ _ s t h)
  | .storeDrainStart .., h => .inl (execStoreDrainStart_ok _ _ s t h)
  | .storeAck .., h => .inl (execStoreAck_ok _ _ _ s t h)
  | .loadResponse .., h => .inl (execLoadResponse_ok _ _ s t h)
  | .granaryRead .., h => .inl (execGranaryRead_ok _ _ s t h)
  | .granaryFill .., h => .inl (execGranaryFill_ok _ _ s t h)
  | .granaryStore .., h => .inl (execGranaryStore_ok _ s t h)
  | .wbEntryGrant .., h => .inl (execWbEntryGrant_ok _ _ s t h)
  | .grnWinStageWrite .., h => .inl (execGrnWinStageWrite_ok _ _ _ _ _ s t h)
  | .grnWinCtrlWrite .., h => .inl (execGrnWinCtrlWrite_ok _ _ _ _ s t h)
  | .windowCommit, h => .inl (execWindowCommit_ok s t h)
  | .grnQuotaWrite .., h => .inl (execGrnQuotaWrite_ok _ _ _ _ s t h)
  | .streamTrackerTimeout .., h => .inl (execStreamTrackerTimeout_ok _ _ s t h)
  | .fabricFlitArrival .., h => .inl (execFabricFlitArrival_ok _ _ _ s t h)
  | .ingCreditGrant .., h => .inl (execIngCreditGrant_ok _ s t h)
  | .thresherInput .., h => .inl (execThresherInput_ok _ _ _ _ s t h)
  | .thresherEmit .., h => .inl (execThresherEmit_ok _ _ s t h)
  | .dieConsensusReport .., h => .inl (execDieConsensusReport_ok _ _ _ _ s t h)
  | .dieReportTimeout .., h => .inl (execDieReportTimeout_ok _ s t h)
  | .dieReloadDone .., h => .inl (execDieReloadDone_ok _ s t h)
  | .parityRetry .., h => .inl (execParityRetry_ok _ _ _ _ s t h)
  | .remapCopyDone .., h => .inl (execRemapCopyDone_ok _ _ s t h)
  | .remapTakeEffect .., h => .inl (execRemapTakeEffect_ok _ s t h)
  | .repairLogWrite .., h => .inl (execRepairLogWrite_ok _ s t h)
  | .refreshSlot .., h => .inl (execRefreshSlot_ok _ _ s t h)
  | .stackTempSample .., h => .inl (execStackTempSample_ok _ _ s t h)
  | .stackTripReturn .., h => .inl (execStackTripReturn_ok _ s t h)
  | .stackTempLost .., h => .inl (execStackTempLost_ok _ s t h)
  | .stpDoorbell .., h => .inl (execStpDoorbell_ok _ _ _ _ s t h)
  | .descriptorRead .., h => .inl (execDescriptorRead_ok _ s t h)
  | .stepAdmit .., h => .inl (execStepAdmit_ok _ s t h)
  | .c0SlotStart, h => .inl (execC0SlotStart_ok s t h)
  | .stepComplete .., h => .inl (execStepComplete_ok _ s t h)
  | .stpShareWrite .., h => .inl (execStpShareWrite_ok _ _ _ s t h)
  | .stpC0PhaseWrite .., h => .inl (execStpC0PhaseWrite_ok _ _ s t h)
  | .stpC0SheavesWrite .., h => .inl (execStpC0SheavesWrite_ok _ _ _ s t h)
  | .partReset .., h => .inl (execPartReset_ok _ _ s t h)
  | .queueConfigWrite .., h => .inl (execQueueConfigWrite_ok _ _ s t h)
  | .srvCtxRead .., h => .inl (execSrvCtxRead_ok _ s t h)
  | .srvCtxWrite .., h => .inl (execSrvCtxWrite_ok _ s t h)
  | .srvCtxTruncate .., h => .inl (execSrvCtxTruncate_ok _ s t h)
  | .rtkWalkGo .., h => .inl (execRtkWalkGo_ok _ s t h)
  | .walkNodeRead .., h => .inl (execWalkNodeRead_ok _ s t h)
  | .rootstockWalkDone .., h => .inl (execRootstockWalkDone_ok _ s t h)
  | .trlSlotOwnerWrite .., h => .inl (execTrlSlotOwnerWrite_ok _ _ _ s t h)
  | .trlSlotCfgWrite .., h => .inl (execTrlSlotCfgWrite_ok _ _ _ s t h)
  | .trlPush .., h => .inl (execTrlPush_ok _ _ _ s t h)
  | .trellisFillData .., h => .inl (execTrellisFillData_ok _ _ s t h)
  | .bufferComplete .., h => .inl (execBufferComplete_ok _ s t h)
  | .ingestSnapshot .., h => .inl (execIngestSnapshot_ok _ s t h)
  | .linkReplay .., h => .inl (execLinkReplay_ok _ s t h)
  | .linkTrainStart, h => .inl (execLinkTrainStart_ok s t h)
  | .trainStepDone .., h => .inl (execTrainStepDone_ok _ _ s t h)
  | .trainStepTimeout .., h => .inl (execTrainStepTimeout_ok _ s t h)
  | .linkLockLost .., h => .inl (execLinkLockLost_ok _ s t h)
  | .consensusWordReceive .., h => .inl (execConsensusWordReceive_ok _ _ s t h)
  | .consensusWordTimeout .., h => .inl (execConsensusWordTimeout_ok _ s t h)
  | .updateWordReceive .., h => .inl (execUpdateWordReceive_ok _ _ s t h)
  | .domainOfOne, h => .inl (execDomainOfOne_ok s t h)
  | .reshapeAbortBeat, h => .inl (execReshapeAbortBeat_ok s t h)
  | .ringFlitReceive .., h => .inl (execRingFlitReceive_ok _ _ s t h)
  | .tripWordAbort, h => .inl (execTripWordAbort_ok s t h)
  | .pwrCapHostWrite .., h => .inl (execPwrCapHostWrite_ok _ _ s t h)
  | .pwrStateHostWrite .., h => .inl (execPwrStateHostWrite_ok _ _ s t h)
  | .sidebandHostOrder .., h => .inl (execSidebandHostOrder_ok _ _ s t h)
  | .rackCapOrder .., h => .inl (execRackCapOrder_ok _ s t h)
  | .rackStateOrder .., h => .inl (execRackStateOrder_ok _ _ _ s t h)
  | .boardCapOrder .., h => .inl (execBoardCapOrder_ok _ s t h)
  | .boardStateOrder .., h => .inl (execBoardStateOrder_ok _ s t h)
  | .rackOffGraceExpiry, h => .inl (execRackOffGraceExpiry_ok s t h)
  | .parkDrainDone, h => .inl (execParkDrainDone_ok s t h)
  | .parkExitResume, h => .inl (execParkExitResume_ok s t h)
  | .overcurrentSense .., h => .inl (execOvercurrentSense_ok _ s t h)
  | .limiterStepUp .., h => .inl (execLimiterStepUp_ok _ s t h)
  | .limiterStepDown .., h => .inl (execLimiterStepDown_ok _ s t h)
  | .tileTempSample .., h => .inl (execTileTempSample_ok _ _ _ _ s t h)
  | .thermtrip, h => .inl (execThermtrip_ok s t h)
  | .coldReset, h => .inl (execColdReset_ok s t h)
  | .aonPowerLoss, h => .inl (execAonPowerLoss_ok s t h)
  | .pkgReset .., h => .inl (execPkgReset_ok _ _ s t h)
  | .resetRelease, h => .inl (execResetRelease_ok s t h)
  | .rstCtrlWarm .., h => .inl (execRstCtrlWarm_ok _ _ s t h)
  | .rstCtrlDie .., h => .inl (execRstCtrlDie_ok _ _ s t h)
  | .functionLevelReset .., h => .inl (execFunctionLevelReset_ok _ s t h)
  | .wakeStepDone .., h => .inl (execWakeStepDone_ok _ _ s t h)
  | .wakeStepTimeout .., h => .inl (execWakeStepTimeout_ok _ s t h)
  | .wakeRetryRestart .., h => .inl (execWakeRetryRestart_ok _ s t h)
  | .dieHangTimeout .., h => .inl (execDieHangTimeout_ok _ s t h)
  | .hubWatchdogKick, h => .inl (execHubWatchdogKick_ok s t h)
  | .hubWatchdogExpiry, h => .inl (execHubWatchdogExpiry_ok s t h)
  | .stackPatrol .., h => .inl (execStackPatrol_ok _ _ s t h)
  | .granaryPatrol .., h => .inl (execGranaryPatrol_ok _ _ s t h)
  | .phyRetrainPass, h => .inl (execPhyRetrainPass_ok s t h)
  | .phyDriftCheck .., h => .inl (execPhyDriftCheck_ok _ s t h)
  | .telemetryWrite .., h => .inl (execTelemetryWrite_ok _ s t h)
  | .bar2Write .., h => .inl (execBar2Write_ok _ _ _ _ s t h)
  | .bar2Read .., h => .inl (execBar2Read_ok _ _ _ s t h)
  | .unsupportedRequest fn kind, h => .inl (execUnsupportedRequest_ok fn kind s t h)
  | .sriovConfigChange .., h => .inl (execSriovConfigChange_ok _ _ s t h)
  | .bar2Resize .., h => .inl (execBar2Resize_ok _ _ _ s t h)
  | .dmaStart .., h => .inl (execDmaStart_ok _ _ _ s t h)
  | .dmaDone .., h => .inl (execDmaDone_ok _ _ _ s t h)
  | .upstreamCompletion .., h => .inl (execUpstreamCompletion_ok _ _ s t h)
  | .completionTimeout .., h => .inl (execCompletionTimeout_ok _ s t h)
  | .hotReset, h => .inl (execHotReset_ok s t h)
  | .larkspurStart .., h => .inl (execLarkspurStart_ok _ s t h)
  | .binIdRead .., h => .inl (execBinIdRead_ok _ _ s t h)
  | .slotPresentRise .., h => .inl (execSlotPresentRise_ok _ s t h)
  | .trayIdWrite .., h => .inl (execTrayIdWrite_ok _ _ s t h)
  | .fanFail .., h => .inl (execFanFail_ok _ s t h)
  | .inputRangeLoss .., h => .inl (execInputRangeLoss_ok _ s t h)
  | .inputRangeRestore, h => .inl (execInputRangeRestore_ok s t h)
  | .offReady .., h => .inl (execOffReady_ok _ _ s t h)
  | .offReadyTimeout .., h => .inl (execOffReadyTimeout_ok _ _ s t h)
  | .pkgGoodRise .., h => .inl (execPkgGoodRise_ok _ s t h)
  | .pkgGoodFall .., h => .inl (execPkgGoodFall_ok _ _ s t h)
  | .refInChange .., h => .inl (execRefInChange_ok _ s t h)
  | .coolingUpdate temps, _ => .inr (.inr (.inl ⟨temps, rfl⟩))
  | .coolingWatchdogKick, h => .inl (execCoolingWatchdogKick_ok s t h)
  | .coolingWatchdogExpiry ms, _ => .inr (.inr (.inr (.inl ⟨ms, rfl⟩)))
  | .coolingWatchdogRelease b1 b2 us i x y ms, _ => .inr (.inr (.inr (.inr ⟨b1, b2, us, i, x, y, ms, rfl⟩)))
  | .pkgFaultRecovery .., h => .inl (execPkgFaultRecovery_ok _ _ _ s t h)
  | .hostMctpMessage .., h => .inl (execHostMctpMessage_ok _ _ _ s t h)
  | .setCap .., h => .inl (execSetCap_ok _ _ _ s t h)
  | .setState .., h => .inl (execSetState_ok _ _ _ _ _ s t h)
  | .getStatus .., h => .inl (execGetStatus_ok _ _ s t h)
  | .resetPkg .., h => .inl (execResetPkg_ok _ _ s t h)
  | .coldCycle .., h => .inl (execColdCycle_ok _ _ _ s t h)
  | .gateForce .., h => .inl (execGateForce_ok _ _ s t h)
  | .gateRelease .., h => .inl (execGateRelease_ok _ _ s t h)
  | .retrain .., h => .inl (execRetrain_ok _ _ s t h)
  | .setTrayId .., h => .inl (execSetTrayId_ok _ _ s t h)
  | .setTempo .., h => .inl (execSetTempo_ok _ _ s t h)
  | .setBoot .., h => .inl (execSetBoot_ok _ _ _ _ s t h)
  | .setInput .., h => .inl (execSetInput_ok _ _ s t h)
  | .setRecover .., h => .inl (execSetRecover_ok _ _ _ s t h)
  | .pldmSensorRead .., h => .inl (execPldmSensorRead_ok _ _ s t h)
  | .spdmGetVersion .., h => .inl (execSpdmGetVersion_ok _ s t h)
  | .spdmGetCapabilities .., h => .inl (execSpdmGetCapabilities_ok _ s t h)
  | .spdmNegotiateAlgorithms .., h => .inl (execSpdmNegotiateAlgorithms_ok _ _ _ s t h)
  | .spdmGetDigests .., h => .inl (execSpdmGetDigests_ok _ s t h)
  | .spdmGetCertificate .., h => .inl (execSpdmGetCertificate_ok _ _ _ s t h)
  | .spdmChallenge .., h => .inl (execSpdmChallenge_ok _ _ s t h)
  | .spdmGetMeasurements .., h => .inl (execSpdmGetMeasurements_ok _ _ s t h)
  | .redfishProcessorReset .., h => .inl (execRedfishProcessorReset_ok _ _ _ s t h)
  | .redfishStandby .., h => .inl (execRedfishStandby_ok _ s t h)
  | .redfishPowerLimit .., h => .inl (execRedfishPowerLimit_ok _ _ s t h)
  | .redfishChassisReset .., h => .inl (execRedfishChassisReset_ok _ _ s t h)
  | .firmwareUpdateRequest .., h => .inl (execFirmwareUpdateRequest_ok _ _ _ _ _ s t h)
  | .trayPowerCycle, h => .inl (execTrayPowerCycle_ok s t h)
  | .healthCheckFail .., h => .inl (execHealthCheckFail_ok _ s t h)
  | .railFault .., h => .inl (execRailFault_ok _ _ s t h)
  | .registerWrite .., h => .inl (execRegisterWrite_ok _ _ _ _ s t h)
  | .tmpBeatNowHighRead .., h => .inl (execTmpBeatNowHighRead_ok _ s t h)
  | .pcieLinkTrained .., h => .inl (execPcieLinkTrained_ok _ _ _ s t h)
  | .hostPortLinkError .., h => .inl (execHostPortLinkError_ok _ s t h)
  | .d3hotTransition .., h => .inl (execD3hotTransition_ok _ _ s t h)
  | .i3cDynamicAddressTimeout .., h => .inl (execI3cDynamicAddressTimeout_ok _ s t h)
theorem coolingUpdate_fuses (s : State) (temps : List (Option Int)) : (coolingUpdate s temps).fuses = s.fuses := by
  have readings : (s.each slots fun s k => if isPkg s k then s else s.modSlot k fun x =>
      { x with temp := if x.powered then (temps[k]?).getD none else none }).fuses = s.fuses :=
    each_proj State.fuses _ (fun s k => by split <;> rfl) _ s
  unfold coolingUpdate
  dsimp only
  split
  · exact readings
  · exact readings

theorem larkspur_fuses {f : State → State} (h : ∀ s, (f s).fuses = s.fuses) (s : State) : (larkspur s f).fuses = s.fuses := by
  unfold larkspur
  split
  · exact h s
  · rfl

/-- Any command but the data of a loader read leaves the fuses alone. -/
theorem exec_fuses {c : Instr} {s t : State} (hc : ∀ good data, c ≠ .sldReadDone good data) (h : exec c s = .next t) :
    t.fuses = s.fuses := by
  obtain hok | ⟨good, data, rfl⟩ | ⟨temps, rfl⟩ | ⟨ms, rfl⟩ | ⟨b1, b2, us, i, x, y, ms, rfl⟩ := exec_ok_or_special c h
  · exact hok.fuses
  · exact absurd rfl (hc good data)
  all_goals cases h
  · exact larkspur_fuses (fun s => coolingUpdate_fuses s temps) s
  · rfl
  · exact larkspur_fuses (fun s => by split <;> rfl) s

/-- Settles O7: the one command left over is the data of a loader read. -/
theorem fusesChangeOnlyByKeyop : Obligations.FusesChangeOnlyByKeyop := by
  unfold Obligations.FusesChangeOnlyByKeyop
  intro c s t hc h
  exact exec_fuses hc h

/-- The moves of a customer key slot that R104 allows, and no move. -/
def KeyMoves (a b : KeyState) : Prop :=
  b = a ∨ (a = .empty ∧ b = .enrolled) ∨ (a = .enrolled ∧ b = .revoked) ∨ (a = .empty ∧ b = .revoked)

theorem keyMoves_revoked : ∀ {a : KeyState}, a ≠ .revoked → KeyMoves a .revoked
  | .empty, _ => .inr (.inr (.inr ⟨rfl, rfl⟩))
  | .enrolled, _ => .inr (.inr (.inl ⟨rfl, rfl⟩))
  | .revoked, h => absurd rfl h

/-- A vector of key slots one of whose entries has moved as R104 allows. -/
theorem keyMoves_vmodN {v : Vector KeyState 4} {i : Nat} {x : KeyState} (h : KeyMoves (vat v i .empty) x) (k : Fin 4) :
    KeyMoves v[k] (vmodN v i fun _ => x)[k] := by
  rw [← vat_get v k .empty, ← vat_get _ k .empty, vat_vmodN]
  split
  · next hik => rw [← hik.1]; exact h
  · exact .inl rfl

theorem keyEffect_moves {f g : Fuses} {b : List Byte} (h : keyEffect f b = some g) (k : Fin 4) :
    KeyMoves f.keyState[k] g.keyState[k] := by
  unfold keyEffect at h
  dsimp only at h
  split at h
  · -- enrol: the slot was EMPTY
    obtain ⟨⟨-, -, hempty⟩, ⟨⟩⟩ := Option.ite_none_right_eq_some.mp h
    exact keyMoves_vmodN (.inr (.inl ⟨hempty, rfl⟩)) k
  · split at h
    · -- revoke: the slot was not REVOKED
      obtain ⟨⟨-, -, hlive⟩, ⟨⟩⟩ := Option.ite_none_right_eq_some.mp h
      exact keyMoves_vmodN (keyMoves_revoked hlive) k
    · split at h
      · -- root off: no slot moves
        obtain ⟨-, ⟨⟩⟩ := Option.ite_none_right_eq_some.mp h
        exact .inl rfl
      · cases h

theorem keyOperation_moves {f g : Fuses} {nonce : W64} {b : List Byte} (h : keyOperation f nonce b = some g) (k : Fin 4) :
    KeyMoves f.keyState[k] g.keyState[k] :=
  keyEffect_moves (Option.ite_none_right_eq_some.mp h).2 k

theorem keyMoves_of_fuses {f g : Fuses} (h : g = f) (k : Fin 4) : KeyMoves f.keyState[k] g.keyState[k] := by
  subst h; exact .inl rfl

theorem sourceRead_keyMoves (s : State) (good : Bool) (data : List Byte) (k : Fin 4) :
    KeyMoves s.fuses.keyState[k] (sourceRead s good data).fuses.keyState[k] := by
  obtain hok | ⟨f, nonce, d, hkey, hok⟩ := sourceRead_ok s good data
  · exact keyMoves_of_fuses hok.fuses k
  · rw [hok.fuses]
    exact keyOperation_moves hkey k

theorem exec_keyMoves {c : Instr} {s t : State} (h : exec c s = .next t) (k : Fin 4) :
    KeyMoves s.fuses.keyState[k] t.fuses.keyState[k] := by
  by_cases hc : ∃ good data, c = .sldReadDone good data
  · obtain ⟨good, data, rfl⟩ := hc
    cases h
    exact sourceRead_keyMoves s good data k
  · exact keyMoves_of_fuses (exec_fuses (fun good data e => hc ⟨good, data, e⟩) h) k

/-- Settles O9: a step executes one command, and only an admitted key operation moves a slot. -/
theorem keySlotMoves : Obligations.KeySlotMoves := by
  unfold Obligations.KeySlotMoves
  intro s t k h
  unfold step at h
  split at h
  · cases h
    exact .inl rfl
  · exact exec_keyMoves h k

/-! ## What signals and the ends of operations leave alone -/

section
variable (s : State) (fn vec : Nat)
@[simp] theorem signal_sld : (s.signal fn vec).sld = s.sld := congrArg Fixed.sld (signal_fixed s fn vec)
@[simp] theorem signal_str : (s.signal fn vec).str = s.str := congrArg Fixed.str (signal_fixed s fn vec)
@[simp] theorem signal_fuses : (s.signal fn vec).fuses = s.fuses := congrArg Fixed.fuses (signal_fixed s fn vec)
@[simp] theorem signal_mem : (s.signal fn vec).mem = s.mem := signal_proj State.mem (fun _ _ => rfl) (fun _ _ => rfl) s fn vec
@[simp] theorem signal_free : (s.signal fn vec).free = s.free := signal_proj State.free (fun _ _ => rfl) (fun _ _ => rfl) s fn vec
end

/-- A loader that has ended an operation of the host with a code at a step, the structure, the fuses and device memory as they were. -/
structure Ended (s t : State) (c : Code) (phase : Nat) : Prop where
  busy : t.sld.busy = false
  code : t.sld.code = c
  phase : t.sld.phase = phase
  job : t.sld.job = none
  str : t.str = s.str
  fuses : t.fuses = s.fuses
  mem : t.mem = s.mem

theorem endJob_ended (s : State) (c : Code) (phase : Nat) : Ended s (endJob s c phase) c phase := by
  constructor <;> simp [endJob]

/-- VALIDATE and LOAD are the operations of the host that a failing step ends; a boot load goes on to the other bank. -/
theorem failJob_ended {j : Job} (h : j.kind = .validate ∨ j.kind = .load) (s : State) (e : LoadFail) :
    Ended s (failJob s j e) e.code e.step := by
  have hend : failJob s j e =
      endJob (s.modSld fun l => { l with errOff := BitVec.ofNat 32 e.off, errRec := BitVec.ofNat 16 e.record }) e.code e.step := by
    unfold failJob
    obtain hk | hk := h <;> rw [hk]
  rw [hend]
  exact { endJob_ended _ e.code e.step with }

theorem ioFail_ended {j : Job} (h : j.kind = .validate ∨ j.kind = .load) (s : State) (step : Nat) :
    Ended s (ioFail s j step) .loadIo step := failJob_ended h s _

theorem passJob_validate {j : Job} (h : j.kind = .validate) (s : State) : passJob s j = endJob s .ok 0 := by
  unfold passJob
  rw [h]

/-! ## Key operations end (R108, R671) -/

section
variable (s : State) (f : Option Fuses)
theorem endKeyop_busy : (endKeyop s f).sld.busy = false := by cases f <;> simp [endKeyop, closeKeyop, State.drawn]
theorem endKeyop_nonce : (endKeyop s f).sld.nonce = Config.freeWord s.free := by
  cases f <;> simp [endKeyop, closeKeyop, State.drawn, freeVal]
theorem endKeyop_free : (endKeyop s f).free = s.free + 1 := by cases f <;> simp [endKeyop, closeKeyop, State.drawn]
theorem endKeyop_code : (endKeyop s f).sld.code = if f.isSome then .ok else .keyopBad := by
  cases f <;> simp [endKeyop, closeKeyop, State.drawn]
theorem endKeyop_fuses : (endKeyop s f).fuses = f.getD s.fuses := by cases f <;> simp [endKeyop, closeKeyop, State.drawn]
end

/-! ## GO (R117 to R119, R127, R671) -/

section
variable {s : State} (h1 : s.hif.linkUp = true) (h2 : decodes s 0 = true) (src : BitVec 2) (keep : Bool)
include h1 h2
theorem exec_sldValidate : exec (.sldValidate src keep) s = .next (startSld s 0 src keep) := 
  congrArg Host.Outcome.next (hostAccess_open h1 h2 _)
theorem exec_sldLoad : exec (.sldLoad src keep) s = .next (startSld s 1 src keep) := 
  congrArg Host.Outcome.next (hostAccess_open h1 h2 _)
theorem exec_sldKeyop : exec (.sldKeyop src keep) s = .next (startSld s 2 src keep) := 
  congrArg Host.Outcome.next (hostAccess_open h1 h2 _)
end

theorem readOp_ne {op : BitVec 2} : op = 0 ∨ op = 1 → ¬op = 2 ∧ ¬op = 3 := by rintro (rfl | rfl) <;> decide

/-- The loader's registers once GO has been taken. -/
def goTaken (s : State) (op src : BitVec 2) (keep : Bool) : State := s.modSld fun l => { l with op := op, src := src, keepMem := keep }

theorem startSld_turnedAway {s : State} (h : s.sld.busy = true ∨ s.rst.done = false) (op src : BitVec 2) (keep : Bool) :
    startSld s op src keep = rejectGo s := if_pos h

/-- A host source of VALIDATE and LOAD that may be read (R670). -/
def hostSourceOk (s : State) : Prop := s.sld.srcAddr.toNat % 4096 = 0 ∧ 256 ≤ s.sld.srcLen.toNat ∧ s.sld.srcLen.toNat ≤ 2 ^ 28

/-- The source and the size of a key-operation block that may be read (R671). -/
def keyBlockOk (s : State) (src : BitVec 2) : Prop := src = 2 ∧ s.sld.srcLen.toNat = 264 ∧ s.sld.srcAddr.toNat % 4096 = 0

section
variable {s : State} (hidle : s.sld.busy = false) (hwake : s.rst.done = true) (keep : Bool)
include hidle hwake

theorem go_admitted : ¬(s.sld.busy = true ∨ s.rst.done = false) := by simp [hidle, hwake]

theorem startSld_reserved (op : BitVec 2) : startSld s op 3 keep = rejectGo (goTaken s op 3 keep) :=
  (if_neg (go_admitted hidle hwake)).trans (if_pos (.inr rfl))

theorem startSld_header {op src : BitVec 2} (hop : op = 0 ∨ op = 1) (hsrc : src ≠ 3) (hread : src = 2 → hostSourceOk s) :
    startSld s op src keep = startJob (goTaken s op src keep) (if op = 0 then .validate else .load) src.toNat := by
  obtain ⟨hop2, hop3⟩ := readOp_ne hop
  have hgood : ¬(src = 2 ∧ ¬hostSourceOk s) := fun h => h.2 (hread h.1)
  unfold startSld
  rw [if_neg (go_admitted hidle hwake)]
  exact (if_neg (not_or.mpr ⟨hop3, hsrc⟩)).trans ((if_neg hop2).trans (if_neg hgood))

theorem startSld_badSource {op : BitVec 2} (hop : op = 0 ∨ op = 1) (hread : ¬hostSourceOk s) :
    Ended s (startSld s op 2 keep) .loadIo 1 := by
  obtain ⟨hop2, hop3⟩ := readOp_ne hop
  have hfail : startSld s op 2 keep = ioFail ((goTaken s op 2 keep).modSld fun l => { l with lastSrc := 2 })
      { kind := if op = 0 then .validate else .load, src := 2, stage := .header, held := [], digest := 0, shadow := none } 1 := by
    unfold startSld
    rw [if_neg (go_admitted hidle hwake)]
    exact (if_neg (not_or.mpr ⟨hop3, by decide⟩)).trans ((if_neg hop2).trans (if_pos ⟨rfl, hread⟩))
  have hkind : (if op = 0 then JobKind.validate else .load) = .validate ∨ (if op = 0 then JobKind.validate else .load) = .load := by
    split <;> simp
  rw [hfail]
  exact { ioFail_ended hkind _ 1 with }

theorem startSld_keyBlock {src : BitVec 2} (h : keyBlockOk s src) : startSld s 2 src keep =
    (((goTaken s 2 src keep).modSld fun l => { l with busy := true, lastSrc := src }).modSld fun l => { l with
      job := some { kind := .keyop, src := 2, stage := .keyBlock, held := [], digest := 0, shadow := none } }).readSource 2 0 264 := by
  have hsrc : ¬src = 3 := by rw [h.1]; decide
  unfold startSld
  rw [if_neg (go_admitted hidle hwake)]
  exact (if_neg (not_or.mpr ⟨by decide, hsrc⟩)).trans ((if_pos rfl).trans (if_pos h))

theorem startSld_badKeyBlock {src : BitVec 2} (hsrc : src ≠ 3) (h : ¬keyBlockOk s src) : startSld s 2 src keep =
    endKeyop ((goTaken s 2 src keep).modSld fun l => { l with busy := true, lastSrc := src }) none := by
  unfold startSld
  rw [if_neg (go_admitted hidle hwake)]
  exact (if_neg (not_or.mpr ⟨by decide, hsrc⟩)).trans ((if_pos rfl).trans (if_neg h))
end

/-- Settles O29: `rejectGo` sets REJECT, over what GO has written where the loader was free to take it. -/
theorem loaderRejectsGo : Obligations.LoaderRejectsGo := by
  unfold Obligations.LoaderRejectsGo
  intro src keep s hup hdec
  simp only [exec_sldValidate hup hdec, exec_sldLoad hup hdec, exec_sldKeyop hup hdec]
  refine ⟨fun haway => ?_, fun hidle hwake => ?_⟩
  · simp only [startSld_turnedAway haway]
    exact ⟨rfl, rfl, rfl⟩
  · simp only [startSld_reserved hidle hwake]
    exact ⟨rfl, rfl, rfl⟩

/-- Settles O28: GO begins with the read of a header or of a key block, or ends at once. -/
theorem loaderStarts : Obligations.LoaderStarts := by
  unfold Obligations.LoaderStarts
  intro src keep s hup hdec hidle hwake
  refine ⟨fun hsrc hread => ⟨?_, ?_⟩, fun hsrc hlen hpage => ?_, fun hsrc hbad => ?_, fun hsrc hbad => ?_⟩
  · exact ⟨_, _, (exec_sldValidate hup hdec src keep).trans
      (congrArg _ (startSld_header hidle hwake keep (.inl rfl) hsrc hread)), rfl, rfl, rfl, rfl, rfl, rfl, rfl, rfl⟩
  · exact ⟨_, _, (exec_sldLoad hup hdec src keep).trans
      (congrArg _ (startSld_header hidle hwake keep (.inr rfl) hsrc hread)), rfl, rfl, rfl, rfl, rfl, rfl, rfl, rfl, rfl⟩
  · exact ⟨_, _, (exec_sldKeyop hup hdec src keep).trans
      (congrArg _ (startSld_keyBlock hidle hwake keep ⟨hsrc, hlen, hpage⟩)), rfl, rfl, rfl, rfl, rfl⟩
  · subst hsrc
    intro c hc
    rw [List.mem_cons, List.mem_singleton] at hc
    obtain rfl | rfl := hc
    · have e := startSld_badSource hidle hwake keep (.inl rfl) hbad
      exact ⟨_, exec_sldValidate hup hdec 2 keep, e.busy, e.code, e.phase, e.str, e.mem⟩
    · have e := startSld_badSource hidle hwake keep (.inr rfl) hbad
      exact ⟨_, exec_sldLoad hup hdec 2 keep, e.busy, e.code, e.phase, e.str, e.mem⟩
  · exact ⟨_, (exec_sldKeyop hup hdec src keep).trans (congrArg _ (startSld_badKeyBlock hidle hwake keep hsrc hbad)),
      endKeyop_busy _ _, endKeyop_code _ _, endKeyop_nonce _ _, endKeyop_free _ _, endKeyop_fuses _ _⟩

/-! ## The data of the loader's reads (R670, R671) -/

section
variable {s : State} {j : Job} (hjob : s.sld.job = some j) (hwarm : s.rst.warm = none) (good : Bool) (data : List Byte)
include hjob hwarm

theorem sourceRead_header (h : j.stage = .header) : sourceRead s good data =
    if good && (sourceBytes s j data).length == 256 then headerRead s j (sourceBytes s j data) else ioFail s j 1 := by
  simp [sourceRead, hjob, hwarm, h]

theorem sourceRead_body (h : j.stage = .body) : sourceRead s good data =
    if good && (sourceBytes s j data).length + 256 == fieldAt j.held 8 4 then bodyRead s j (sourceBytes s j data) else ioFail s j 3 := by
  simp [sourceRead, hjob, hwarm, h]

theorem sourceRead_reread (h : j.stage = .reread) : sourceRead s good data =
    if good && decide (216 ≤ (sourceBytes s j data).length) then rereadDone s j (sourceBytes s j data) else ioFail s j 12 := by
  simp [sourceRead, hjob, hwarm, h]

theorem sourceRead_keyBlock (h : j.stage = .keyBlock) : sourceRead s good data =
    endKeyop s (if good then keyOperation s.fuses s.sld.nonce (sourceBytes s j data) else none) := by
  simp [sourceRead, hjob, hwarm, h]

/-- A read that fails ends an operation of the host with LOAD_IO at the step the read serves. -/
theorem sourceRead_failed (hkind : j.kind = .validate ∨ j.kind = .load) {step : Nat}
    (h : (j.stage, step) ∈ [(JobStage.header, 1), (.body, 3), (.reread, 12)]) : Ended s (sourceRead s false data) .loadIo step := by
  have hfail : sourceRead s false data = ioFail s j step := by
    simp only [List.mem_cons, Prod.mk.injEq, List.not_mem_nil, or_false] at h
    obtain ⟨hs, rfl⟩ | ⟨hs, rfl⟩ | ⟨hs, rfl⟩ := h
    · simpa using sourceRead_header hjob hwarm false data hs
    · simpa using sourceRead_body hjob hwarm false data hs
    · simpa using sourceRead_reread hjob hwarm false data hs
  rw [hfail]
  exact ioFail_ended hkind s step
end

/-- A header that passes steps 1 and 2: the rest of the container is read. -/
theorem headerRead_pass {s : State} {j : Job} {d : List Byte}
    (h : headStep 2 .hdrBad (headerChecks d (if j.src = 2 then some s.sld.srcLen.toNat else none)) = none) : headerRead s j d =
    (s.modSld fun l => { l with phase := 3, job := some { j with stage := .body, held := d } }).readSource j.src 256
      (fieldAt d 8 4 - 256) := by
  unfold headerRead
  rw [h]

theorem headerRead_fail {s : State} {j : Job} {d : List Byte} {e : LoadFail}
    (h : headStep 2 .hdrBad (headerChecks d (if j.src = 2 then some s.sld.srcLen.toNat else none)) = some e) :
    headerRead s j d = failJob s j e := by
  unfold headerRead
  rw [h]

/-- A container that passes steps 3 to 11: the whole is read again. -/
theorem bodyRead_pass {s : State} {j : Job} {d : List Byte} {x : Structure} (h : validate s (j.held ++ d) = .inl x) : bodyRead s j d =
    (s.modSld fun l => { l with
      phase := 12, job := some { j with stage := .reread, held := [], digest := x.hash, shadow := some x } }).readSource
        j.src 0 (fieldAt (j.held ++ d) 8 4) := by
  unfold bodyRead
  dsimp only
  rw [h]

/-- Settles O30: one lemma for each stage of the read, and one for each way an operation ends. -/
theorem loaderReadDone : Obligations.LoaderReadDone := by
  unfold Obligations.LoaderReadDone
  rintro j data d s hjob hwarm rfl
  refine ⟨?_, ?_, ?_, ?_, ?_⟩
  · rintro checked hchecked hstage hlen
    have hread : sourceRead s true data = headerRead s j (sourceBytes s j data) := by
      simp [sourceRead_header hjob hwarm true data hstage, hlen]
    refine ⟨fun hpass => ?_, fun e hfail hkind => ?_⟩
    · exact ⟨_, congrArg Host.Outcome.next (hread.trans (headerRead_pass (hchecked ▸ hpass))), rfl, rfl, rfl, rfl, rfl⟩
    · have k := failJob_ended hkind s e
      exact ⟨_, congrArg Host.Outcome.next (hread.trans (headerRead_fail (hchecked ▸ hfail))),
        k.busy, k.code, k.phase, k.job, k.str, k.fuses⟩
  · intro x hstage hlen hvalid
    have hread : sourceRead s true data = bodyRead s j (sourceBytes s j data) := by
      simp [sourceRead_body hjob hwarm true data hstage, hlen]
    exact ⟨_, congrArg Host.Outcome.next (hread.trans (bodyRead_pass hvalid)), rfl, rfl, rfl, rfl, rfl⟩
  · intro hstage hkind hlen hdigest
    have hread : sourceRead s true data = endJob s .ok 0 := by
      simp [sourceRead_reread hjob hwarm true data hstage, hlen, rereadDone, hdigest, passJob_validate hkind]
    have k := endJob_ended s .ok 0
    exact ⟨_, congrArg Host.Outcome.next hread, k.busy, k.code, k.phase, k.job, k.str, k.fuses⟩
  · intro hkind e he hstage
    have k := sourceRead_failed hjob hwarm data hkind (step := e.2) (hstage ▸ he)
    exact ⟨_, rfl, k.busy, k.code, k.phase, k.job, k.str, k.fuses⟩
  · intro hstage
    refine ⟨_, congrArg Host.Outcome.next (sourceRead_keyBlock hjob hwarm true data hstage),
      endKeyop_busy _ _, endKeyop_nonce _ _, endKeyop_free _ _, ?_⟩
    rw [if_pos rfl, endKeyop_code, endKeyop_fuses]
    cases keyOperation s.fuses s.sld.nonce (sourceBytes s j data) <;> exact ⟨rfl, rfl⟩

/-! ## Windows, quotas, trackers and ties (R113, R209, R212, R213, R216, R219) -/

theorem assoc_assocSet_same {β : Type} (l : List (Nat × β)) (k : Nat) (v : β) : assoc (assocSet l k v) k = some v := by
  induction l with
  | nil => simp [assocSet, assoc]
  | cons e m ih =>
    unfold assocSet
    split
    · simp [assoc]
    · split
      · simp [assoc]
      · next hne => rw [assoc, if_neg (Ne.symm hne), ih]

theorem modSlice_eq (s : State) (d : Die) (f : Slice → Slice) :
    s.modSlice d f = { s with grn := { s.grn with slice := s.grn.slice.set d (f s.grn.slice[d]) } } := by
  simp [State.modSlice, State.modGrn, vmodN_set]

theorem winDenied_eq (s : State) (via : Die) : winDenied s via =
    { s with grn := { s.grn with slice := s.grn.slice.set via { s.grn.slice[via] with winErr := true } } } := modSlice_eq s via _

theorem commitWindows_idle {s : State} (h : s.grn.armed = []) : commitWindows s = s := by
  have hgrn : { s.grn with win := s.grn.armed.foldl (fun v e => vmodN v e.1 fun _ => e.2) s.grn.win, armed := [] } = s.grn := by
    rw [h, List.foldl_nil, ← h]
  exact congrArg (fun g => { s with grn := g }) hgrn

theorem commitWindows_one {s : State} {n : Fin 64} {w : Window} (h : s.grn.armed = [(n.val, w)]) :
    commitWindows s = { s with grn := { s.grn with armed := [], win := s.grn.win.set n w } } := by
  simp only [commitWindows, State.modGrn, h, List.foldl_cons, List.foldl_nil, vmodN_set]

section
variable {s : State} {fn : Fn} {n : Fin 64} (via : Die)

theorem stageWindow_base (h : winAllowed s fn [s.grn.win[n].part] = true) (v : Nat) : stageWindow s fn via n false v =
    { s with grn := { s.grn with stage := s.grn.stage.set n { s.grn.stage[n] with base := some (v / 256 * 256) } } } := by
  simp only [stageWindow, vat_get, h, ↓reduceIte, Bool.false_eq_true, State.modGrn, vmodN_set]

theorem stageWindow_limit (h : winAllowed s fn [s.grn.win[n].part] = true) (v : Nat) : stageWindow s fn via n true v =
    { s with grn := { s.grn with stage := s.grn.stage.set n { s.grn.stage[n] with limit := some (v / 256 * 256 + 255) } } } := by
  simp only [stageWindow, vat_get, h, ↓reduceIte, State.modGrn, vmodN_set]

theorem stageWindow_denied (h : winAllowed s fn [s.grn.win[n].part] = false) (isLimit : Bool) (v : Nat) :
    stageWindow s fn via n isLimit v = winDenied s via := by
  simp only [stageWindow, vat_get, h, ↓reduceIte, Bool.false_eq_true]

theorem controlWindow_armed {v : W32} (h : winAllowed s fn [s.grn.win[n].part, bitsOf v.toNat 15 8] = true) : controlWindow s fn via n v =
    { s with grn := { s.grn with
      armed := assocSet s.grn.armed n (windowOf ((assoc s.grn.armed n).getD s.grn.win[n]) s.grn.stage[n] v.toNat)
      stage := s.grn.stage.set n {} } } := by
  simp only [controlWindow, vat_get, h, ↓reduceIte, State.modGrn, vmodN_set]

theorem controlWindow_denied {v : W32} (h : winAllowed s fn [s.grn.win[n].part, bitsOf v.toNat 15 8] = false) :
    controlWindow s fn via n v = winDenied s via := by
  simp only [controlWindow, vat_get, h, ↓reduceIte, Bool.false_eq_true]
end

section
variable {s : State} {fn : Fn} {p : Part} (via : Die) {w : W32}

theorem quotaOk_iff (s : State) (p : Nat) (q : Quota) :
    quotaOk s p q = true ↔ q.pin + q.persist + 1 ≤ waysOf s p ∧ 1 ≤ q.stream ∧ q.stream ≤ waysOf s p := by
  simp [quotaOk, and_assoc]

theorem writeQuota_set (h : winAllowed s fn [p] = true) (hq : quotaOk s p (quotaWord w.toNat) = true) :
    writeQuota s fn via p w = { s with grn := { s.grn with quota := s.grn.quota.set p (quotaWord w.toNat) } } := by
  simp [writeQuota, h, hq, State.modGrn, vmodN_set]

theorem writeQuota_outOfRange (h : winAllowed s fn [p] = true) (hq : ¬quotaOk s p (quotaWord w.toNat) = true) : writeQuota s fn via p w =
    { s with grn := { s.grn with slice := s.grn.slice.set via { s.grn.slice[via] with quotaErr := true } } } := by
  simp [writeQuota, h, hq, modSlice_eq]

theorem writeQuota_denied (h : winAllowed s fn [p] = false) : writeQuota s fn via p w = winDenied s via := by
  simp [writeQuota, h]
end

theorem trackerTimeout_eq {s : State} {via : Die} {k : Fin 32} {x : Tracker} (hx : s.grn.slice[via].trackers[k.val]? = some (some x))
    (hdet : x.detected = true) (hlate : x.lastBeat + 1024 ≤ s.tmp.elapsed) : exec (.streamTrackerTimeout via k) s =
      .next (s.modSlice via fun y => { y with trackers := y.trackers.set k.val none }) := by
  have hfound : (sliceSt s via).trackers[k.val]?.join = some x := by rw [sliceSt, vat_get, hx]; rfl
  change execStreamTrackerTimeout via k s = _
  simp [execStreamTrackerTimeout, hfound, hdet, hlate]

section
variable {s : State} {fn : Fn} (h1 : s.hif.linkUp = true) (h2 : decodes s fn = true) (via : Die)
include h1 h2
theorem exec_grnWinStageWrite (n : Fin 64) (isLimit : Bool) (v : W64) :
    exec (.grnWinStageWrite fn via n isLimit v) s = .next (stageWindow s fn via n isLimit v.toNat) :=
  congrArg Host.Outcome.next (hostAccess_open h1 h2 _)
theorem exec_grnWinCtrlWrite (n : Fin 64) (w : W32) : exec (.grnWinCtrlWrite fn via n w) s = .next (controlWindow s fn via n w) :=
  congrArg Host.Outcome.next (hostAccess_open h1 h2 _)
theorem exec_grnQuotaWrite (p : Part) (w : W32) : exec (.grnQuotaWrite fn via p w) s = .next (writeQuota s fn via p w) :=
  congrArg Host.Outcome.next (hostAccess_open h1 h2 _)
end

/-- Settles O38: each write is its operation once the access is open, and each operation has its guard decided. -/
theorem windowsQuotasTrackers : Obligations.WindowsQuotasTrackers := by
  unfold Obligations.WindowsQuotasTrackers
  intro via s
  refine ⟨congrArg Host.Outcome.next (modSlice_eq s via _), ?_, fun hnone => congrArg Host.Outcome.next (commitWindows_idle hnone),
    fun n h hone => congrArg Host.Outcome.next (commitWindows_one hone), ?_⟩
  · intro k x hx hdet hlate
    rw [trackerTimeout_eq hx hdet hlate, modSlice_eq]
  · intro fn n p v w hup hdec
    rw [exec_grnQuotaWrite hup hdec, exec_grnWinCtrlWrite hup hdec]
    simp only [exec_grnWinStageWrite hup hdec]
    refine ⟨fun hmay => ⟨?_, ?_⟩, ?_, ?_, ?_, ?_, ?_, ?_⟩
    · rw [stageWindow_base via hmay]
    · rw [stageWindow_limit via hmay]
    · rintro h rfl hmay
      refine ⟨_, congrArg Host.Outcome.next (controlWindow_armed via hmay), rfl, ?_, assoc_assocSet_same _ _ _, rfl, rfl⟩
      exact Vector.getElem_set_self _
    · intro hmay hsum hlow hhigh
      rw [writeQuota_set via hmay ((quotaOk_iff s p _).mpr ⟨hsum, hlow, hhigh⟩)]
      rfl
    · intro hmay hbad
      rw [writeQuota_outOfRange via hmay fun hok => ?_]
      obtain ⟨hsum, hlow, hhigh⟩ := (quotaOk_iff s p _).mp hok
      dsimp only [quotaWord] at hsum hlow hhigh
      omega
    · intro hdenied
      rw [writeQuota_denied via hdenied, winDenied_eq]
    · intro hdenied
      rw [stageWindow_denied via hdenied, winDenied_eq]
    · intro hdenied
      rw [controlWindow_denied via hdenied, winDenied_eq]

end Sys2Proof.Proofs

/-! SUPPORT. The statement on the Granary's reads, fills, stores and granted writes (05). First what leaves the lines, the miss registers
and device memory alone; then what the operations on lines and registers give back; then each service of a slice once its guards are
decided. -/

namespace Sys2Proof.Proofs

open Sys2Proof Sys2Proof.Machine Sys2Proof.Laws

/-! ## What leaves the slices and device memory alone -/

/-- What the slices hold, without their registers and the engines' jobs, and the memory stacks. -/
def slices (s : State) : Granary × Memory :=
  ({ s.grn with slice := Vector.replicate 4 {}, jobs := [], recs := [], run := none }, s.mem)

section
variable {s t : State} (h : slices t = slices s)
include h
theorem mem_of_slices : t.mem = s.mem := congrArg (·.2) h
theorem lines_of_slices : t.grn.lines = s.grn.lines := congrArg (·.1.lines) h
theorem misses_of_slices : t.grn.misses = s.grn.misses := congrArg (·.1.misses) h
theorem reqs_of_slices : t.grn.reqs = s.grn.reqs := congrArg (·.1.reqs) h
theorem clock_of_slices : t.grn.clock = s.grn.clock := congrArg (·.1.clock) h
theorem win_of_slices : t.grn.win = s.grn.win := congrArg (·.1.win) h
theorem quota_of_slices : t.grn.quota = s.grn.quota := congrArg (·.1.quota) h
theorem heldMerge_of_slices : t.grn.heldMerge = s.grn.heldMerge := congrArg (·.1.heldMerge) h
theorem heldPool_of_slices : t.grn.heldPool = s.grn.heldPool := congrArg (·.1.heldPool) h
theorem findLine_of_slices (line part : Nat) : findLine t line part = findLine s line part := by
  rw [findLine, findLine, lines_of_slices h]
theorem findMiss_of_slices (line part : Nat) : findMiss t line part = findMiss s line part := by
  rw [findMiss, findMiss, misses_of_slices h]
end

section
variable (s : State)
@[simp] theorem modNextId_slices (f) : slices (s.modNextId f) = slices s := rfl
@[simp] theorem modTile_slices (f) : slices (s.modTile f) = slices s := rfl
@[simp] theorem modBwr_slices (f) : slices (s.modBwr f) = slices s := rfl
@[simp] theorem modStp_slices (f) : slices (s.modStp f) = slices s := rfl
@[simp] theorem modSrv_slices (f) : slices (s.modSrv f) = slices s := rfl
@[simp] theorem modTrl_slices (f) : slices (s.modTrl f) = slices s := rfl
@[simp] theorem modTel_slices (f) : slices (s.modTel f) = slices s := rfl
@[simp] theorem modHif_slices (f) : slices (s.modHif f) = slices s := rfl
@[simp] theorem modSlice_slices (n f) : slices (s.modSlice n f) = slices s := rfl

@[simp] theorem ite_slices {c : Prop} [Decidable c] (x y : State) : slices (if c then x else y) = if c then slices x else slices y :=
  apply_ite slices c x y

@[simp] theorem each_slices {α : Type} {f : State → α → State} (h : ∀ s x, slices (f s x) = slices s) (xs : List α) :
    slices (s.each xs f) = slices s := each_proj slices f h xs s

/-! ### Steps, budgets, answers (R283, R315, R318, R333) -/

@[simp] theorem modStep_slices (id f) : slices (s.modStep id f) = slices s := rfl
@[simp] theorem faultStep_slices (id c) : slices (s.faultStep id c) = slices s := rfl
@[simp] theorem partFrame_slices (p f) : slices (s.partFrame p f) = slices s := by simp [State.partFrame]
@[simp] theorem writeLocal_slices (tile a bs) : slices (s.writeLocal tile a bs) = slices s := by
  simp [State.writeLocal, State.pokeLocal, State.settleMxe]
@[simp] theorem take_slices (m g u) : slices (s.take m g u) = slices s := rfl
@[simp] theorem violate_slices (m u) : slices (s.violate m u) = slices s := by simp [State.violate]
@[simp] theorem hold_slices (m g u c0 k) : slices (s.hold m g u c0 k) = slices s := by simp [State.hold]
@[simp] theorem charge_slices (m g u c0 k) : slices (s.charge m g u c0 k) = slices s := by simp [State.charge]
@[simp] theorem engineAnswer_slices (job n line data code) : slices (engineAnswer s job n line data code) = slices s := rfl

@[simp] theorem dlMissed_slices (d master group step) : slices (dlMissed s d master group step) = slices s := by
  unfold dlMissed; dsimp only; split <;> simp

@[simp] theorem lateTag_slices (r) : slices (lateTag s r) = slices s := by
  unfold lateTag; split <;> simp

@[simp] theorem answerRead_slices (r data poison) : slices (answerRead s r data poison) = slices s := by
  unfold answerRead; split <;> simp

@[simp] theorem answerWaiters_slices (m data) : slices (answerWaiters s m data) = slices s := by simp [answerWaiters]

@[simp] theorem ackStore_slices (r lost) : slices (ackStore s r lost) = slices s := by
  unfold ackStore; split <;> simp

/-! ### The registers of a slice (R113, R219, R226) -/

@[simp] theorem countTie_slices (a part) : slices (countTie s a part) = slices s := by simp [countTie]
@[simp] theorem trackHit_slices (a part) : slices (trackHit s a part) = slices s := by simp [trackHit]
@[simp] theorem recordKill_slices (line part) : slices (recordKill s line part) = slices s := rfl
@[simp] theorem unkill_slices (line part) : slices (unkill s line part) = slices s := rfl

/-! ### What waits for posted writes (R348, R394, R563) -/

@[simp] theorem post_slices (j) : slices (s.post j) = slices s := rfl

@[simp] theorem actDoorbell_slices (p cls tail) : slices (actDoorbell s p cls tail) = slices s := by
  simp [actDoorbell, State.dbError, State.modPart, State.modQueue]

@[simp] theorem submitWalk_slices (fn req) : slices (submitWalk s fn req) = slices s := by
  unfold submitWalk
  dsimp only
  split
  · rfl
  · split <;> rfl

@[simp] theorem settleBells_slices : slices (settleBells s) = slices s := by simp [settleBells]
@[simp] theorem settleGo_slices : slices (settleGo s) = slices s := by simp [settleGo]
@[simp] theorem settleBar2_slices : slices (settleBar2 s) = slices s := by
  unfold settleBar2
  exact each_slices _ (fun _ _ => post_slices _ _) _
@[simp] theorem settlePosted_slices : slices (settlePosted s) = slices s := by simp [settlePosted]
end

/-! ## Lines and miss registers after a change -/

theorem find?_filter_not {α : Type} (p : α → Bool) (xs : List α) : (xs.filter fun x => !p x).find? p = none := by
  rw [List.find?_filter]
  simp

section
variable {s : State} {line part : Nat}

/-- A line used last keeps what it holds. -/
theorem findLine_touch {l : GLine} (h : findLine s line part = some l) :
    findLine (s.touch line part) line part = some { l with used := s.grn.clock + 1 } :=
  findLine_modLine s line part (fun l => { l with used := s.grn.clock + 1 }) (fun _ => ⟨rfl, rfl⟩) l h

theorem findLine_storeHit {r : MemReq} {l : GLine} (h : findLine s r.line r.part = some l) :
    findLine (storeHit s r) r.line r.part = some { l with
      data := mergeBytes r.mask l.data r.data, valid := l.valid ||| r.mask, dirty := l.dirty ||| r.mask, used := s.grn.clock + 1 } :=
  findLine_touch (findLine_modLine s r.line r.part
    (fun l => { l with data := mergeBytes r.mask l.data r.data, valid := l.valid ||| r.mask, dirty := l.dirty ||| r.mask })
    (fun _ => ⟨rfl, rfl⟩) l h)

@[simp] theorem findLine_dropLine : findLine (s.dropLine line part) line part = none := find?_filter_not _ _

@[simp] theorem findLine_killLine : findLine (killLine s line part) line part = none :=
  (findLine_of_slices (recordKill_slices _ line part) line part).trans findLine_dropLine

@[simp] theorem findMiss_dropMiss : findMiss (s.dropMiss line part) line part = none := find?_filter_not _ _

theorem findMiss_modMiss {m : Miss} {f : Miss → Miss} (hf : ∀ m, (f m).line = m.line ∧ (f m).part = m.part)
    (h : findMiss s line part = some m) : findMiss (s.modMiss line part f) line part = some (f m) := by
  have hkey : m.line = line ∧ m.part = part := by simpa using List.find?_some h
  have hmap := find?_map_invariant (fun m : Miss => m.line == line && m.part == part)
    (fun m => if m.line = line ∧ m.part = part then f m else m) (fun x => by split <;> simp [hf]) s.grn.misses
  rw [findMiss] at h
  rw [h, Option.map_some, if_pos hkey] at hmap
  exact hmap
end

/-! ## Reads (R192, R206, R221, R222) -/

section
variable {s : State} {r : MemReq} {l : GLine}

theorem demote_untagged (h : r.deadline = none) : demote s r = (s, r) := by simp [demote, h]

/-- A read with neither a tag nor a dead line before it goes past the detector. -/
theorem serveRead_eq (ecc : GrEcc) (htag : r.deadline = none) (hhome : noHome s r = false) (hkill : wasKilled s r.line r.part = false) :
    serveRead s r ecc = serveLookup s r ecc := by
  simp [serveRead, demote_untagged htag, hhome, hkill]

theorem serveLookup_hit (ecc : GrEcc) (hfound : findLine s r.line r.part = some l) (hclean : linePoisoned s r.line = false)
    (hcover : r.mask &&& l.valid = r.mask) : serveLookup s r ecc = readHit s l r ecc := by
  simp [serveLookup, hfound, hclean, lineCovers, hcover]

theorem serveLookup_miss (ecc : GrEcc) (hline : findLine s r.line r.part = none) (hmiss : findMiss s r.line r.part = none) :
    serveLookup s r ecc = takeMiss s r := by
  simp [serveLookup, readMiss, hline, hmiss]

theorem granaryRead_found (ecc : GrEcc) (h : findReq s r.id false = some r) :
    granaryRead s r.id ecc = serveRead (s.dropReq r.id) r ecc := by
  rw [granaryRead, h]

theorem granaryRead_hit (ecc : GrEcc) (hreq : findReq s r.id false = some r) (htag : r.deadline = none) (hhome : noHome s r = false)
    (hkill : wasKilled s r.line r.part = false) (hclean : linePoisoned s r.line = false) (hfound : findLine s r.line r.part = some l)
    (hcover : r.mask &&& l.valid = r.mask) : granaryRead s r.id ecc = readHit (s.dropReq r.id) l r ecc := by
  rw [granaryRead_found ecc hreq, serveRead_eq (s := s.dropReq r.id) ecc htag hhome hkill]
  exact serveLookup_hit ecc hfound hclean hcover

theorem granaryRead_miss (ecc : GrEcc) (hreq : findReq s r.id false = some r) (htag : r.deadline = none) (hhome : noHome s r = false)
    (hkill : wasKilled s r.line r.part = false) (hline : findLine s r.line r.part = none) (hmiss : findMiss s r.line r.part = none) :
    granaryRead s r.id ecc = takeMiss (s.dropReq r.id) r := by
  rw [granaryRead_found ecc hreq, serveRead_eq (s := s.dropReq r.id) ecc htag hhome hkill]
  exact serveLookup_miss ecc hline hmiss

/-! ### Reads that hit -/

/-- The state in which a read that hits has its answer, before its dead hint acts. -/
def hitAnswered (s : State) (l : GLine) (r : MemReq) : State :=
  answerRead ((trackHit s (lineAddr l.line) l.part).touch l.line l.part) r l.data false

theorem readHit_clean (s : State) (l : GLine) (r : MemReq) : readHit s l r .clean =
    if r.last || lineClass s l == clsDead then deadHint (hitAnswered s l r) l.line l.part else hitAnswered s l r := rfl

theorem hitAnswered_slices (s : State) (l : GLine) (r : MemReq) :
    slices (hitAnswered s l r) = slices ((trackHit s (lineAddr l.line) l.part).touch l.line l.part) := answerRead_slices _ _ _ _

@[simp] theorem hitAnswered_reqs : (hitAnswered s l r).grn.reqs = s.grn.reqs :=
  (reqs_of_slices (hitAnswered_slices s l r)).trans (trackHit_reqs s _ _)

@[simp] theorem hitAnswered_mem : (hitAnswered s l r).mem = s.mem :=
  (mem_of_slices (hitAnswered_slices s l r)).trans (trackHit_mem s _ _)

theorem findMiss_hitAnswered (line part : Nat) : findMiss (hitAnswered s l r) line part = findMiss s line part :=
  (findMiss_of_slices (hitAnswered_slices s l r) line part).trans (findMiss_of_slices (trackHit_slices s _ _) line part)

theorem findLine_hitAnswered (h : findLine s l.line l.part = some l) :
    findLine (hitAnswered s l r) l.line l.part = some { l with used := s.grn.clock + 1 } := by
  have htrack := (findLine_of_slices (trackHit_slices s (lineAddr l.line) l.part) l.line l.part).trans h
  rw [findLine_of_slices (hitAnswered_slices s l r), findLine_touch htrack, trackHit_clock]

theorem hitAnswered_loads {load : Nat} (h : r.src = .load load) : (hitAnswered s l r).tile.loads =
    s.tile.loads.map fun x => if x.id = load then { x with got := x.got ++ [(r.line, l.data)] } else x := by
  unfold hitAnswered answerRead
  rw [h]
  simp [State.touch, State.modLine, trackHit_tile]

@[simp] theorem deadHint_reqs (line part : Nat) : (deadHint s line part).grn.reqs = s.grn.reqs := by unfold deadHint; split <;> rfl
@[simp] theorem deadHint_mem (line part : Nat) : (deadHint s line part).mem = s.mem := by unfold deadHint; split <;> rfl
@[simp] theorem deadHint_tile (line part : Nat) : (deadHint s line part).tile = s.tile := by unfold deadHint; split <;> rfl

theorem findLine_deadHint {line part : Nat} (h : findMiss s line part = none) : findLine (deadHint s line part) line part = none := by
  simp [deadHint, h]

theorem findMiss_deadHint {line part : Nat} {m : Miss} (h : findMiss s line part = some m) :
    findMiss (deadHint s line part) line part = some { m with dead := true } := by
  simp only [deadHint, h, Option.isSome_some, ↓reduceIte]
  exact findMiss_modMiss (f := fun m => { m with dead := true }) (fun _ => ⟨rfl, rfl⟩) h

@[simp] theorem readHit_reqs : (readHit s l r .clean).grn.reqs = s.grn.reqs := by rw [readHit_clean]; split <;> simp
@[simp] theorem readHit_mem : (readHit s l r .clean).mem = s.mem := by rw [readHit_clean]; split <;> simp

theorem readHit_loads {load : Nat} (h : r.src = .load load) : (readHit s l r .clean).tile.loads =
    s.tile.loads.map fun x => if x.id = load then { x with got := x.got ++ [(r.line, l.data)] } else x := by
  rw [readHit_clean, ← hitAnswered_loads h]
  split <;> simp

theorem readHit_dead (h : r.last = true ∨ lineClass s l = clsDead) :
    readHit s l r .clean = deadHint (hitAnswered s l r) l.line l.part := by
  rw [readHit_clean, if_pos (by simpa using h)]

theorem readHit_alive (hlast : r.last = false) (hcls : lineClass s l ≠ clsDead) : readHit s l r .clean = hitAnswered s l r := by
  rw [readHit_clean, if_neg (by simp [hlast, hcls])]
end

/-! ### Reads that miss (R192, R315) -/

section
variable {s : State} {r : MemReq}

/-- A slice once a read has missed in it: a tie is counted, and a tracked miss has passed the detector (R113, R218). -/
def missSeen (s : State) (tracked : Bool) (a part : Nat) : State :=
  if tracked then trackMiss (countTie s a part) a part else countTie s a part

theorem missSeen_proj {γ : Type} (g : State → γ) (hslice : ∀ s n f, g (s.modSlice n f) = g s)
    (htrack : ∀ s a part, g (trackMiss s a part) = g s) (s : State) (tracked : Bool) (a part : Nat) :
    g (missSeen s tracked a part) = g s := by
  have htie : g (countTie s a part) = g s := by
    unfold countTie
    split
    · exact hslice ..
    · rfl
  cases tracked
  · exact htie
  · exact (htrack ..).trans htie

/-- A miss register as a read takes it (R192, R222). -/
structure TakenBy (r : MemReq) (issued : Bool) (m : Miss) : Prop where
  line : m.line = r.line
  part : m.part = r.part
  waiters : m.waiters.map (·.req) = [r]
  dead : m.dead = r.last
  mask : m.mask = 0
  master : m.master = r.master
  issue : m.issued = issued

/-- A read that finds a register and a waiter record free takes both; its stack read is issued as far as the units left allow. -/
theorem takeMiss_eq (hfree : missFree s r = true) (hwait : waiterFree s r = true) :
    ∃ tracked m, takeMiss s r =
        ((missSeen s tracked (lineAddr r.line) r.part).modGrn fun g => { g with misses := g.misses ++ [m] }).charge r.master
          (groupOf (lineAddr r.line)) 4 (c0Desc r) (.miss r.line r.part) ∧
      TakenBy r (fits (missSeen s tracked (lineAddr r.line) r.part) r.master (groupOf (lineAddr r.line)) 4 (c0Desc r)) m := by
  simp only [takeMiss, hfree, hwait, Bool.and_self, ↓reduceIte]
  exact ⟨_, _, rfl, rfl, rfl, rfl, rfl, rfl, rfl, rfl⟩

theorem takeMiss_free (hfree : missFree s r = true) (hwait : waiterFree s r = true) :
    ∃ m, (takeMiss s r).grn.misses = s.grn.misses ++ [m] ∧ (takeMiss s r).grn.lines = s.grn.lines ∧ (takeMiss s r).mem = s.mem ∧
      TakenBy r (fits s r.master (groupOf (lineAddr r.line)) 4 (c0Desc r)) m := by
  obtain ⟨tracked, m, heq, htaken⟩ := takeMiss_eq hfree hwait
  rw [missSeen_proj (fun s => fits s _ _ _ _) (fun _ _ _ => rfl) fun _ _ _ => rfl] at htaken
  have hcharge := congrArg slices heq
  rw [charge_slices] at hcharge
  refine ⟨m, (misses_of_slices hcharge).trans (congrArg (· ++ [m]) ?_), (lines_of_slices hcharge).trans ?_,
    (mem_of_slices hcharge).trans ?_, htaken⟩
  · exact missSeen_proj (·.grn.misses) (fun _ _ _ => rfl) (fun _ _ _ => rfl) ..
  · exact missSeen_proj (·.grn.lines) (fun _ _ _ => rfl) (fun _ _ _ => rfl) ..
  · exact missSeen_proj (·.mem) (fun _ _ _ => rfl) (fun _ _ _ => rfl) ..
end

/-! ## Fills (R197, R199) -/

section
variable {s t : State}

/-- A read of all bursts of a line, none of them corrected, uncorrectable or poisoned, counts nothing. -/
theorem eccCount_clean {line : Nat} {found : List Burst} (hfound : ∀ b ∈ found, b = .clean) (hpoison : linePoison s line = false) :
    eccCount s line found = s := by
  have hclean (b : Nat) (k : Burst) (hk : k ≠ .clean) : (found[b]? == some k) = false := by
    rw [beq_eq_false_iff_ne]
    intro h
    exact hk (hfound k (List.mem_of_getElem? h))
  have hstored : ∀ b ∈ List.range 8, s.mem.poisoned (physOf s (lineAddr line) + 32 * b) = false := by
    simpa [linePoison] using hpoison
  unfold eccCount eccOn
  refine List.foldlRecOn (motive := (· = s)) _ _ rfl ?_
  rintro u rfl b hb
  simp [hclean, hstored b (List.mem_filter.mp hb).1]

theorem fillArrives_clean {m : Miss} {found : List Burst} (hfound : ∀ b ∈ found, b = .clean) (hpoison : linePoison s m.line = false)
    (hanswer : linePoisonAnswer s m.line = false) : fillArrives s m found = finishFill s m (stackLine s m.line) := by
  have hgood : lineBad s m.line found = false := by
    simp only [lineBad, hpoison, Bool.false_or, List.any_eq_false, beq_iff_eq]
    rintro b hb rfl
    cases hfound _ hb
  simp [fillArrives, hanswer, eccCount_clean hfound hpoison, hgood]

section
variable (h : slices t = slices s)
include h
theorem setLines_of_slices (a p : Nat) : setLines t a p = setLines s a p := by rw [setLines, setLines, lines_of_slices h]
theorem lineClass_of_slices (l : GLine) : lineClass t l = lineClass s l := by simp only [lineClass, classOf, win_of_slices h]
theorem quotaOf_of_slices (p cls : Nat) : quotaOf t p cls = quotaOf s p cls := by simp only [quotaOf, quota_of_slices h]
theorem mayEvict_of_slices : mayEvict t = mayEvict s := by
  funext l
  simp only [mayEvict, evicting, stackTripped, stackSt, mem_of_slices h]
end

theorem waysOf_of_str (hstr : t.str = s.str) : waysOf t = waysOf s := by
  funext p
  simp only [waysOf, partDesc, hstr]

section
variable (h : slices t = slices s) (hstr : t.str = s.str)
include h hstr
theorem findWay_of_slices (a p cls : Nat) (store : Bool) : findWay t a p cls store = findWay s a p cls store := by
  simp only [findWay, setLines_of_slices h, lineClass_of_slices h, quotaOf_of_slices h, mayEvict_of_slices h, waysOf_of_str hstr]
theorem freeWay_of_slices (a p : Nat) : freeWay t a p = freeWay s a p := by
  simp only [freeWay, firstWay, setLines_of_slices h, waysOf_of_str hstr]

theorem installLine_of_slices (l : GLine) (cls : Nat) :
    slices (t.installLine l cls) = slices (s.installLine l cls) := by
  obtain ⟨hgrn, hmem⟩ := Prod.mk.inj h
  refine Prod.ext ?_ hmem
  simp only [slices, State.installLine, modGrn_grn, freeWay_of_slices h hstr, lines_of_slices h, clock_of_slices h]
  exact congrArg (fun g : Granary => { g with
    lines := s.grn.lines ++ [{ l with way := freeWay s (lineAddr l.line) l.part, used := if cls = clsStream then 0 else s.grn.clock + 1,
                                      inserted := s.grn.clock + 1 }]
    clock := s.grn.clock + 1 }) hgrn
end

/-- Where nothing is held, the end of a fill serves nothing. -/
theorem serveHeld_idle (hmerge : s.grn.heldMerge = []) (hpool : s.grn.heldPool = []) (line part : Nat) (data : Option (List Byte)) :
    serveHeld s line part data = s := by
  have hheld : (s.modGrn fun g => { g with heldMerge := g.heldMerge.filter fun r => !(r.line == line && r.part == part) }) = s := by
    unfold State.modGrn
    dsimp only
    rw [hmerge, List.filter_nil, ← hmerge]
  unfold serveHeld
  dsimp only
  rw [hheld, hmerge]
  change retryPool s _ s.grn.heldPool.length = s
  rw [hpool]
  rfl

theorem answerWaiters_str (m : Miss) (data : List Byte) : (answerWaiters s m data).str = s.str :=
  each_proj State.str _ (fun s (w : Waiter) => congrArg Fixed.str (answerRead_fixed s w.req (mergeBytes w.mask data w.data) false)) _ s

/-- A fill whose line is not cached, not killed, and finds a free way. -/
theorem finishFill_installs {m : Miss} (hmerge : s.grn.heldMerge = []) (hpool : s.grn.heldPool = [])
    (hline : findLine s m.line m.part = none) (hdead : m.dead = false) (halloc : m.alloc = true)
    (hway : findWay s (lineAddr m.line) m.part m.cls false = some none) (data : List Byte) : finishFill s m data =
      ((answerWaiters s m data).installLine (filledLine m data) m.cls).dropMiss m.line m.part := by
  have hanswer := answerWaiters_slices s m data
  unfold finishFill
  dsimp only
  rw [findLine_of_slices hanswer, hline]
  simp only [hdead, halloc, Bool.false_eq_true, ↓reduceIte]
  rw [findWay_of_slices hanswer (answerWaiters_str m data), hway]
  have hidle := serveHeld_idle (s := ((answerWaiters s m data).installLine (filledLine m data) m.cls).dropMiss m.line m.part)
    ((heldMerge_of_slices hanswer).trans hmerge) ((heldPool_of_slices hanswer).trans hpool)
  exact hidle ..

theorem granaryFill_under_way {m : Miss} (bursts : List Burst)
    (h : (s.grn.misses.find? fun x => x.line == m.line && x.issued && x.fillData.isNone) = some m) :
    granaryFill s m.line bursts = fillArrives s m bursts := by
  rw [granaryFill, readUnderWay, h]
end

/-! ## Stores (R199) -/

/-- A tile's store that hits is merged; its acknowledgement changes nothing at the slice. -/
theorem serveStore_hit {s : State} {r : MemReq} {l : GLine} {tile e : Nat} (hsrc : r.src = .store tile e) (htag : r.deadline = none)
    (hgood : r.poisoned = false) (hhome : noHome s r = false) (hclean : linePoisoned s r.line = false)
    (hfound : findLine s r.line r.part = some l) : serveStore s r = storeHit (unkill s r.line r.part) r := by
  have hline : findLine (unkill s r.line r.part) r.line r.part = some l := hfound
  have hstack : linePoisoned (unkill s r.line r.part) r.line = false := hclean
  simp [serveStore, demote_untagged htag, hhome, hgood, hstack, hline, ackStore, hsrc]

theorem granaryStore_hit {s : State} {r : MemReq} {l : GLine} {tile e : Nat} (hreq : findReq s r.id true = some r)
    (hblocked : storeBlocked s r = false) (hsrc : r.src = .store tile e) (htag : r.deadline = none) (hgood : r.poisoned = false)
    (hhome : noHome s r = false) (hclean : linePoisoned s r.line = false) (hfound : findLine s r.line r.part = some l) :
    granaryStore s r.id = settlePosted (storeHit (unkill (s.dropReq r.id) r.line r.part) r) := by
  rw [granaryStore, hreq]
  dsimp only
  rw [hblocked, if_neg Bool.false_ne_true]
  exact congrArg settlePosted (serveStore_hit hsrc htag hgood hhome hclean hfound)

/-! ## Granted writes (R175, R241, R304) -/

/-- The bytes of the memory, the writes that wait for a write-buffer entry, and those that keep one. -/
def written (m : Memory) : List Host.Cell × List WbWait × List WbWait := (m.cells, m.wbWait, m.wbuf)

theorem channelFault_written (s : State) (line : Nat) (step : Option Nat) : written (channelFault s line step).mem = written s.mem := by
  unfold channelFault
  split
  · exact each_proj (fun s => written s.mem) (fun s id => s.faultStep id .memChannelFailed) (fun _ _ => rfl) ..
  · rfl

theorem mergeHome_mem (s : State) (r : MemReq) : (mergeHome s r).mem = s.mem := by
  unfold mergeHome; split <;> rfl

/-- What follows the grant of a store's write leaves the bytes and the writes as the grant has made them. -/
theorem afterGrant_written {s : State} {w : WbWait} {r : MemReq} (h : w.andThen = .ack r) :
    written (afterGrant s w).mem = written s.mem := by
  unfold afterGrant
  rw [h]
  dsimp only
  rw [mem_of_slices (ackStore_slices _ _ _), mergeHome_mem, channelFault_written]

/-- The entry of a store's write keeps it while its stack is tripped, and writes the line else. -/
theorem grantWrite_store {s u : State} {w : WbWait} {r : MemReq} (found : List Burst) (hevict : w.evict = false) (hack : w.andThen = .ack r)
    (hu : u = s.modMem fun m => { m with wbWait := m.wbWait.filter fun v => v.id != w.id }) :
    grantWrite s w found = afterGrant (if stackTripped s (w.x / 64) then u.modMem fun m => { m with wbuf := m.wbuf ++ [w] }
      else mergeLine u w.line w.mask w.data w.poisoned found) w := by
  have hsame : stackTripped u (w.x / 64) = stackTripped s (w.x / 64) := hu ▸ rfl
  simp only [grantWrite, ← hu, hsame, drainWrite, wbBytes, hevict, hack, Bool.false_eq_true, ↓reduceIte, Option.elim_some]
  split <;> rfl

theorem wbGrant_written {s u : State} {x : Nat} {w : WbWait} {r : MemReq} (found : List Burst) (hnext : nextWrite s x = some w)
    (hevict : w.evict = false) (hack : w.andThen = .ack r)
    (hu : u = s.modMem fun m => { m with wbWait := m.wbWait.filter fun v => v.id != w.id }) :
    written (wbGrant s x found).mem = written (if stackTripped s (w.x / 64) then u.modMem fun m => { m with wbuf := m.wbuf ++ [w] }
      else mergeLine u w.line w.mask w.data w.poisoned found).mem := by
  rw [wbGrant, hnext]
  dsimp only
  rw [mem_of_slices (settlePosted_slices _), grantWrite_store found hevict hack hu, afterGrant_written hack]

/-! ### The writes that wait, under a write of a line -/

theorem remapStart_wbWait (s : State) (x bank row : Nat) : (remapStart s x bank row).mem.wbWait = s.mem.wbWait := by
  unfold remapStart
  split
  · rfl
  · split
    · split <;> rfl
    · rfl

theorem countCe_wbWait (s : State) (x bank row : Nat) : (countCe s x bank row).mem.wbWait = s.mem.wbWait := by
  unfold countCe
  dsimp only
  split
  · split
    · exact remapStart_wbWait ..
    · rfl
  · rfl

theorem eccOn_wbWait (s : State) (line : Nat) (read : Nat → Bool) (found : List Burst) :
    (eccOn s line read found).mem.wbWait = s.mem.wbWait := by
  unfold eccOn
  refine each_proj (·.mem.wbWait) _ (fun s b => ?_) _ s
  split
  · exact remapStart_wbWait ..
  · split
    · exact countCe_wbWait ..
    · rfl

theorem foldl_wbWait {α : Type} {f : Memory → α → Memory} (h : ∀ m x, (f m x).wbWait = m.wbWait) (xs : List α) (m : Memory) :
    (xs.foldl f m).wbWait = m.wbWait :=
  List.foldlRecOn (motive := fun u => u.wbWait = m.wbWait) xs f rfl fun u hu x _ => (h u x).trans hu

theorem writeBurst_wbWait (m : Memory) (k b : Nat) (mask : BitVec 256) (data : List Byte) (poisoned bad : Bool) :
    (writeBurst m k b mask data poisoned bad).wbWait = m.wbWait := by
  unfold writeBurst; split <;> rfl

theorem writeLine_wbWait (s : State) (line : Nat) (mask : BitVec 256) (data : List Byte) (poisoned : Bool) (bad : BitVec 8) :
    (writeLine s line mask data poisoned bad).mem.wbWait = s.mem.wbWait := by
  unfold writeLine
  split
  · rfl
  · exact foldl_wbWait (fun m k => foldl_wbWait (fun m b => writeBurst_wbWait ..) _ m) _ _

theorem mergeLine_wbWait (s : State) (line : Nat) (mask : BitVec 256) (data : List Byte) (poisoned : Bool) (found : List Burst) :
    (mergeLine s line mask data poisoned found).mem.wbWait = s.mem.wbWait := by
  unfold mergeLine
  dsimp only
  rw [writeLine_wbWait]
  split
  · rfl
  · exact eccOn_wbWait ..

/-! ## The statement -/

theorem settle_idle {s : State} (h : s.grn.jobs = []) : settle s = s := by
  unfold settle
  split
  · rfl
  · simp [h, State.each]

/-- Settles O37: each service is its operation once its guards are decided, and what the operation leaves alone is read off its rules. -/
theorem granaryServes : Obligations.GranaryServes := by
  unfold Obligations.GranaryServes
  intro s
  refine ⟨settle_idle, ?_, ?_, ?_, ?_, ?_⟩
  · intro r l load hreq htag hsrc hhome hkill hclean hfound hcover
    obtain ⟨hl, hp⟩ := findLine_key hfound
    have hserve := granaryRead_hit .clean hreq htag hhome hkill hclean hfound hcover
    refine ⟨_, congrArg (fun t => Host.Outcome.next (settle t)) hserve, readHit_reqs, readHit_mem, readHit_loads hsrc, ?_, ?_⟩
    · intro hdead
      rw [readHit_dead (s := s.dropReq r.id) hdead, ← hl, ← hp]
      refine ⟨fun hmiss => findLine_deadHint ((findMiss_hitAnswered ..).trans hmiss), fun m hmiss => ?_⟩
      exact findMiss_deadHint ((findMiss_hitAnswered ..).trans hmiss)
    · intro hlast hcls
      rw [readHit_alive (s := s.dropReq r.id) hlast hcls, ← hl, ← hp]
      rw [← hl, ← hp] at hfound
      exact findLine_hitAnswered hfound
  · intro r hreq htag hhome hkill hline hmiss hfree hwait
    have hserve := granaryRead_miss .clean hreq htag hhome hkill hline hmiss
    obtain ⟨m, hmisses, hlines, hmem, k⟩ := takeMiss_free (s := s.dropReq r.id) hfree hwait
    exact ⟨_, m, congrArg (fun t => Host.Outcome.next (settle t)) hserve, hmisses, k.line, k.part, k.waiters, k.dead, k.mask, k.master,
      k.issue, hlines, hmem⟩
  · intro m bursts hread hbursts hpoison hanswer hmerge hpool hline hdead halloc hway
    have hserve : granaryFill s m.line bursts = _ := (granaryFill_under_way bursts hread).trans
      ((fillArrives_clean hbursts hpoison hanswer).trans (finishFill_installs hmerge hpool hline hdead halloc hway _))
    have hslices := installLine_of_slices (answerWaiters_slices s m (stackLine s m.line)) (answerWaiters_str m _)
      (filledLine m (stackLine s m.line)) m.cls
    exact ⟨_, congrArg (fun t => Host.Outcome.next (settle t)) hserve, findMiss_dropMiss,
      (mem_of_slices hslices :), (lines_of_slices hslices :)⟩
  · intro r l tile e hreq hblocked hsrc htag hgood hhome hclean hfound
    have hserve := granaryStore_hit hreq hblocked hsrc htag hgood hhome hclean hfound
    have hslices := settlePosted_slices (storeHit (unkill (s.dropReq r.id) r.line r.part) r)
    refine ⟨_, congrArg (fun t => Host.Outcome.next (settle t)) hserve, (reqs_of_slices hslices :),
      (congrArg Memory.cells (mem_of_slices hslices) :), (findLine_of_slices hslices _ _).trans (findLine_storeHit ?_)⟩
    exact hfound
  · intro x found w r u hnext hevict hack hu
    have hkept := wbGrant_written found hnext hevict hack hu
    refine ⟨_, rfl, fun v hv => ?_, fun hwhole => ?_, fun htripped => ?_⟩
    · have hwait : (wbGrant s x found).mem.wbWait = u.mem.wbWait := by
        refine (congrArg (·.2.1) hkept).trans ?_
        split
        · rfl
        · exact mergeLine_wbWait ..
      rw [hwait, hu] at hv
      simpa using (List.mem_filter.mp hv).2
    · rw [hwhole, if_neg Bool.false_ne_true] at hkept
      exact congrArg (·.1) hkept
    · rw [htripped, if_pos rfl, hu] at hkept
      exact ⟨congrArg (·.1) hkept, congrArg (·.2.2) hkept⟩

end Sys2Proof.Proofs

/-! SUPPORT. The statements on the package fabric, the Threshers and die consensus (06). First what leaves the fabric or its dies alone, as
far as a reset of a die reaches; then what that reset leaves in the registers of its die, from which the statement on die consensus is
settled; then routes, the fabric's buffers, a flit that travels alone and the slots of a reduction, from which that on the fabric is. -/

namespace Sys2Proof.Proofs

open Sys2Proof Sys2Proof.Machine Sys2Proof.Laws

/-! ## What leaves the fabric alone

The operations that a reset of a die puts together, one lemma each. -/

/-- An operation on each of a list leaves what the operation itself leaves. -/
@[simp] theorem each_fab {α : Type} {f : State → α → State} (h : ∀ s x, (f s x).fab = s.fab) (xs : List α) (s : State) :
    (s.each xs f).fab = s.fab := each_proj State.fab f h xs s

@[simp] theorem when_fab {f : State → State} (h : ∀ s, (f s).fab = s.fab) (c : Bool) (s : State) : (s.when c f).fab = s.fab := by
  unfold State.when; split <;> simp [h]

@[simp] theorem ite_fab {c : Prop} [Decidable c] (x y : State) : (if c then x else y).fab = if c then x.fab else y.fab :=
  apply_ite State.fab c x y

section
variable (s : State)

/-! ### Steps, reports, upstream reads (Machine/Ops.lean, Machine/StepOps.lean) -/

@[simp] theorem modStep_fab (id f) : (s.modStep id f).fab = s.fab := rfl
@[simp] theorem modPart_fab (p f) : (s.modPart p f).fab = s.fab := rfl
@[simp] theorem partFrame_fab (p f) : (s.partFrame p f).fab = s.fab := by simp [State.partFrame]
@[simp] theorem event_fab (c) : (s.event c).fab = s.fab := rfl
@[simp] theorem signal_fab (fn vec) : (s.signal fn vec).fab = s.fab := signal_proj State.fab (fun _ _ => rfl) (fun _ _ => rfl) s fn vec
@[simp] theorem signalPart_fab (p) : (s.signalPart p).fab = s.fab := signal_fab s _ _
@[simp] theorem setPartState_fab (p v) : (s.setPartState p v).fab = s.fab := by simp [State.setPartState]
@[simp] theorem setCause_fab (c type source target) : (s.setCause c type source target).fab = s.fab := rfl
@[simp] theorem faultStep_fab (id c) : (s.faultStep id c).fab = s.fab := by simp [State.faultStep, State.faultStepAt]
@[simp] theorem chargePart_fab (p n) : (s.chargePart p n).fab = s.fab := rfl
@[simp] theorem abandonUp_fab (p) : (s.abandonUp p).fab = s.fab := rfl
@[simp] theorem issueUp_fab (r) : (s.issueUp r).fab = s.fab := by simp [State.issueUp, State.fresh]
@[simp] theorem upstream_fab (fn src addr len) : (s.upstream fn src addr len).fab = s.fab := by simp [State.upstream, State.sendUp]
@[simp] theorem startFill_fab (n p) : (s.startFill n p).fab = s.fab := by simp [State.startFill, State.modTrlSlot]

@[simp] theorem tryPending_fab (n) : (s.tryPending n).fab = s.fab := by
  unfold State.tryPending; dsimp only; split
  · rfl
  · split <;> simp [State.modTrlSlot]

@[simp] theorem unpin_fab (step) : (s.unpin step).fab = s.fab := by simp [State.unpin]
@[simp] theorem writeRecord_fab (p irq r) : (s.writeRecord p irq r).fab = s.fab := by simp [State.writeRecord, State.modFn]

/-! ### Groups, tokens, jobs, walks (Machine/TileOps.lean, Machine/GranaryOps.lean) -/

@[simp] theorem modGroup_fab (tile slot f) : (s.modGroup tile slot f).fab = s.fab := rfl
@[simp] theorem dropGroup_fab (tile slot) : (s.dropGroup tile slot).fab = s.fab := rfl
@[simp] theorem writeLocal_fab (tile a bs) : (s.writeLocal tile a bs).fab = s.fab := by
  simp [State.writeLocal, State.settleMxe, State.pokeLocal]
@[simp] theorem clearTiles_fab (p) : (s.clearTiles p).fab = s.fab := rfl
@[simp] theorem dropJobs_fab (p) : (s.dropJobs p).fab = s.fab := rfl
@[simp] theorem dropWalks_fab (p) : (s.dropWalks p).fab = s.fab := rfl

@[simp] theorem tokenStatus_fab (tile slot dst keep lanes first rest) :
    (s.tokenStatus tile slot dst keep lanes first rest).fab = s.fab := by
  unfold State.tokenStatus; split <;> rfl

@[simp] theorem grantToken_fab (t part tile slot dst keep lanes) : (s.grantToken t part tile slot dst keep lanes).fab = s.fab := by
  unfold State.grantToken; split
  · rfl
  · exact tokenStatus_fab _ _ _ _ _ _ _ _

@[simp] theorem serveToken_fab (t) : (s.serveToken t).fab = s.fab := by
  unfold State.serveToken; split
  · rfl
  · exact grantToken_fab _ _ _ _ _ _ _ _

@[simp] theorem forfeitTokens_fab (tile slot) : (s.forfeitTokens tile slot).fab = s.fab := by simp [State.forfeitTokens]

@[simp] theorem groupFault_fab (tile slot c pc cycle) : (s.groupFault tile slot c pc cycle).fab = s.fab := by
  unfold State.groupFault; split
  · rfl
  · simp [State.faultStepAt]

/-! ### A read that its slice serves (Machine/BwrOps.lean, Machine/GranaryOps.lean) -/

@[simp] theorem violate_fab (m u) : (s.violate m u).fab = s.fab := by simp [State.violate]
@[simp] theorem charge_fab (m g u c0 k) : (s.charge m g u c0 k).fab = s.fab := by simp [State.charge, State.hold, State.take]

@[simp] theorem untagged_fab (r) : (untagged s r).fab = s.fab := by unfold untagged; split <;> rfl

@[simp] theorem demote_fab (r) : (demote s r).1.fab = s.fab := by
  unfold demote
  split
  · split <;> simp
  · rfl

@[simp] theorem dlMissed_fab (d master group step) : (dlMissed s d master group step).fab = s.fab := by
  unfold dlMissed; dsimp only; split <;> rfl

@[simp] theorem queueWrite_fab (w charges) : (s.queueWrite w charges).fab = s.fab := by simp [State.queueWrite, State.fresh]
@[simp] theorem modSlice_fab (n f) : (s.modSlice n f).fab = s.fab := rfl
@[simp] theorem dropLine_fab (line part) : (s.dropLine line part).fab = s.fab := rfl
@[simp] theorem touch_fab (line part) : (s.touch line part).fab = s.fab := rfl
@[simp] theorem recordKill_fab (line part) : (recordKill s line part).fab = s.fab := by simp [recordKill]
@[simp] theorem killLine_fab (line part) : (killLine s line part).fab = s.fab := rfl
@[simp] theorem noteDeadRead_fab (line part) : (noteDeadRead s line part).fab = s.fab := rfl
@[simp] theorem modMiss_fab (line part f) : (s.modMiss line part f).fab = s.fab := rfl
@[simp] theorem trackMiss_fab (a part) : (trackMiss s a part).fab = s.fab := rfl
@[simp] theorem countGr_fab (e) : (countGr s e).fab = s.fab := rfl
@[simp] theorem holdPool_fab (r) : (holdPool s r).fab = s.fab := rfl
@[simp] theorem engineAnswer_fab (job n line data code) : (engineAnswer s job n line data code).fab = s.fab := rfl
@[simp] theorem countTie_fab (a part) : (countTie s a part).fab = s.fab := by simp [countTie]
@[simp] theorem trackHit_fab (a part) : (trackHit s a part).fab = s.fab := by simp [trackHit]
@[simp] theorem deadHint_fab (line part) : (deadHint s line part).fab = s.fab := by simp [deadHint]
@[simp] theorem lineError_fab (l) : (lineError s l).fab = s.fab := by simp [lineError]
@[simp] theorem channelFault_fab (line step) : (channelFault s line step).fab = s.fab := by simp [channelFault, recordErr, State.modStack]

@[simp] theorem lateTag_fab (r) : (lateTag s r).fab = s.fab := by unfold lateTag; split <;> simp

@[simp] theorem answerRead_fab (r data poison) : (answerRead s r data poison).fab = s.fab := by
  unfold answerRead; split <;> simp

theorem deadReadFault_fab {s t : State} {r : MemReq} (e : deadReadFault s r = some t) : t.fab = s.fab := by
  unfold deadReadFault at e
  split at e
  · split at e
    · split at e
      · cases e; exact groupFault_fab _ _ _ _ _ _
      · cases e
    · cases e; rfl
    · split at e
      · cases e; rfl
      · cases e
    · cases e
  · cases e

@[simp] theorem joinMiss_fab (m r) : (joinMiss s m r).fab = s.fab := by simp [joinMiss]
@[simp] theorem takeMiss_fab (r) : (takeMiss s r).fab = s.fab := by
  unfold takeMiss
  split
  · simp only [charge_fab, modGrn_fab]
    split <;> simp
  · rfl

@[simp] theorem readMiss_fab (r) : (readMiss s r).fab = s.fab := by unfold readMiss; split <;> simp
@[simp] theorem readHit_fab (l r ecc) : (readHit s l r ecc).fab = s.fab := by simp [readHit]
@[simp] theorem readDirect_fab (r) : (readDirect s r).fab = s.fab := by simp [readDirect]
@[simp] theorem serveLookup_fab (r ecc) : (serveLookup s r ecc).fab = s.fab := by unfold serveLookup; split <;> simp

@[simp] theorem serveRead_fab (r ecc) : (serveRead s r ecc).fab = s.fab := by
  unfold serveRead
  dsimp only
  split
  · simp
  · split
    · rename_i e
      split at e
      · rw [deadReadFault_fab e]; simp
      · cases e
    · simp

@[simp] theorem retryPool_fab (n k) : (retryPool s n k).fab = s.fab := by
  induction k generalizing s with
  | zero => rfl
  | succ k ih => unfold retryPool; split <;> simp [ih]
end

/-! ## What leaves the registers of the dies alone

A fence and the end of a step change the fabric, but only its reductions. -/

/-- An operation on each of a list leaves the dies' registers where the operation itself does. -/
@[simp] theorem each_dies {α : Type} {f : State → α → State} (h : ∀ s x, (f s x).fab.die = s.fab.die) (xs : List α) (s : State) :
    (s.each xs f).fab.die = s.fab.die := each_proj (·.fab.die) f h xs s

section
variable (s : State)
@[simp] theorem modRed_dies (id f) : (s.modRed id f).fab.die = s.fab.die := by simp [State.modRed]
@[simp] theorem resetThreshers_dies (n) : (resetThreshers s n).fab.die = s.fab.die := rfl
@[simp] theorem fencePorts_dies (n) : (fencePorts s (.die n)).fab.die = s.fab.die := rfl
@[simp] theorem fenceAnswers_dies (k) : (fenceAnswers s k).fab.die = s.fab.die := by simp [fenceAnswers]
@[simp] theorem fenceRevoke_dies (n) : (fenceRevoke s (.die n)).fab.die = s.fab.die := by simp [fenceRevoke]
@[simp] theorem fence_dies (n) : (fence s (.die n)).fab.die = s.fab.die := by simp [fence]
@[simp] theorem clearStep_dies (id) : (s.clearStep id).fab.die = s.fab.die := by simp [State.clearStep]

@[simp] theorem completeStep_dies (id) : (s.completeStep id).fab.die = s.fab.die := by
  unfold State.completeStep; split
  · rfl
  · simp

@[simp] theorem endStep_dies (id c) : (s.endStep id c).fab.die = s.fab.die := by simp [State.endStep]
@[simp] theorem dieDown_dies (n c) : (dieDown s n c).fab.die = s.fab.die := by simp [dieDown]
end

/-! ## The registers of a die, and its reset (R261, R263, R509) -/

section
variable (s : State) (n : Die)

theorem modFabDie_eq (f : FabDie → FabDie) :
    s.modFabDie n f = { s with fab := { s.fab with die := s.fab.die.set n (f s.fab.die[n]) } } := by
  simp [State.modFabDie, State.modFab, vmodN_set]

@[simp] theorem modFabDie_die (f : FabDie → FabDie) : (s.modFabDie n f).fab.die[n] = f s.fab.die[n] := by
  simp [modFabDie_eq]

@[simp] theorem fabDie_get : fabDie s n = s.fab.die[n] := by simp [fabDie, vat_get]

/-- A DIE reset leaves of the die's registers what the hub's copies do not restore (R261, R509). -/
theorem dieReset_die (c : Code) (source : Nat) : (dieReset s n c source).fab.die[n] = { s.fab.die[n] with
    reloading := true, reloaded := false, reloadAt := s.tmp.frames, badShare := none, badWindow := none, badBeat := none } := by
  rw [dieReset, setCause_fab, modFabDie_die, dieDown_dies]

variable {s n}

/-- A die with reloads left is reset, and the reload counts. -/
theorem dieReload_die (h : s.fab.die[n].reloads ≠ 3) (c : Code) (source : Nat) :
    (dieReload s n c source).fab.die[n] = { s.fab.die[n] with
      reloading := true, reloaded := false, reloadAt := s.tmp.frames, badShare := none, badWindow := none, badBeat := none
      reloads := s.fab.die[n].reloads + 1 } := by
  rw [dieReload, fabDie_get, if_neg h, modFabDie_die, dieReset_die]

theorem dieReload_cause (h : s.fab.die[n].reloads ≠ 3) (c : Code) (source : Nat) :
    (dieReload s n c source).rst.cause = { code := c, type := 4, source := source, target := n.val } := by
  rw [dieReload, fabDie_get, if_neg h]
  rfl

/-- A die without reloads left fails. -/
theorem dieReload_failed (h : s.fab.die[n].reloads = 3) (c : Code) (source : Nat) :
    (dieReload s n c source).fab.die[n].failed = true := by
  rw [dieReload, fabDie_get, if_pos h, event_fab, modFabDie_die]
end

/-! ## Consensus reports (R259 to R263) -/

/-- The registers of a die once its report of a frame is in: what its own copies have become where the report says so, and the CRC that
its share gives. -/
def afterReport (d : FabDie) (fixed win : Option W64) (b : Option Nat) (share : W64) (frame : Nat) : FabDie :=
  { d with badShare := fixed.orElse fun _ => d.badShare, badWindow := win.orElse fun _ => d.badWindow
           badBeat := b.orElse fun _ => d.badBeat, fixedCrc := share, reportedAt := some frame }

section
variable {s : State} {n : Die}

/-- A disagreement of a die with reloads left is recorded and reloads it. -/
theorem disagree_die (h : s.fab.die[n].reloads ≠ 3) (b w f : Bool) : (disagree s n b w f).fab.die[n] = { s.fab.die[n] with
    lastFrame := BitVec.ofNat 32 (s.tmp.beat / 1024), lastBeatBad := b, lastWinBad := w, lastFixedBad := f
    reloading := true, reloaded := false, reloadAt := s.tmp.frames, badShare := none, badWindow := none, badBeat := none
    reloads := s.fab.die[n].reloads + 1 } := by
  rw [disagree, dieReload_die (by rwa [modFabDie_die]), modFabDie_die]
  rfl

theorem disagree_cause (h : s.fab.die[n].reloads ≠ 3) (b w f : Bool) :
    (disagree s n b w f).rst.cause = { code := .dieMismatch, type := 4, source := 7, target := n.val } :=
  dieReload_cause (by rwa [modFabDie_die]) _ _

theorem disagree_failed (h : s.fab.die[n].reloads = 3) (b w f : Bool) : (disagree s n b w f).fab.die[n].failed = true :=
  dieReload_failed (by rwa [modFabDie_die]) _ _

theorem dieReported_iff : dieReported s n = true ↔ s.fab.die[n].reportedAt = some s.tmp.frames := by
  rw [dieReported, fabDie_get, beq_iff_eq]

theorem modFabDie_modFabDie (f g : FabDie → FabDie) : (s.modFabDie n f).modFabDie n g = s.modFabDie n fun d => g (f d) := by
  simp [modFabDie_eq]

/-- The first report of a frame is compared with the hub's own copies (R260). -/
theorem dieConsensusReport_first {fixed win : Option W64} {b : Option Nat} {share image : W64} {number : Nat}
    (hchecked : dieChecked s n = true) (hbeat : s.tmp.beat % 1024 = 0) (hfirst : s.fab.die[n].reportedAt ≠ some s.tmp.frames)
    (hshare : share = (fixed.orElse fun _ => s.fab.die[n].badShare).getD (crc64 ((s.str.map (·.dieShare)).getD [])))
    (himage : image = (win.orElse fun _ => s.fab.die[n].badWindow).getD (crc64 (windowImage s)))
    (hnumber : number = (b.orElse fun _ => s.fab.die[n].badBeat).getD s.tmp.beat) :
    exec (.dieConsensusReport n fixed win b) s = .next (
      let u := s.modFabDie n fun d => afterReport d fixed win b share s.tmp.frames
      if number != s.tmp.beat || image != crc64 (windowImage s) || share != s.fab.die[n].fixedCrcRef then
        disagree u n (number != s.tmp.beat) (image != crc64 (windowImage s)) (share != s.fab.die[n].fixedCrcRef)
      else u) := by
  have hguard : (dieChecked s n && bInF s.beat == 0 && !dieReported s n) = true := by
    simp only [hchecked, Bool.true_and, Bool.and_eq_true, beq_iff_eq, Bool.not_eq_true', ← Bool.not_eq_true, dieReported_iff]
    exact ⟨hbeat, hfirst⟩
  subst hshare himage hnumber
  show Host.Outcome.next (if dieChecked s n && bInF s.beat == 0 && !dieReported s n then _ else s) = _
  rw [if_pos hguard, compareReport]
  simp only [dieReport, fabDie_get, modFabDie_die, State.reported, modFabDie_modFabDie]
  rfl

theorem dieConsensusReport_again (h : s.fab.die[n].reportedAt = some s.tmp.frames) (fixed win : Option W64) (b : Option Nat) :
    exec (.dieConsensusReport n fixed win b) s = .next s := by
  show Host.Outcome.next (if dieChecked s n && bInF s.beat == 0 && !dieReported s n then _ else s) = _
  simp [dieReported_iff.mpr h]

/-- A report that has not come disagrees on all three values (R260). -/
theorem dieReportTimeout_missed (hchecked : dieChecked s n = true) (hcounting : s.tmp.counting = true)
    (hfirst : s.fab.die[n].reportedAt ≠ some s.tmp.frames) :
    exec (.dieReportTimeout n) s =
      .next (disagree (s.modFabDie n fun d => { d with reportedAt := some s.tmp.frames }) n true true true) := by
  have hguard : (dieChecked s n && s.tmp.counting && !dieReported s n) = true := by
    simp only [hchecked, hcounting, Bool.true_and, Bool.not_eq_true', ← Bool.not_eq_true, dieReported_iff]
    exact hfirst
  exact congrArg Host.Outcome.next (if_pos hguard)

theorem dieReportTimeout_again (h : s.fab.die[n].reportedAt = some s.tmp.frames) : exec (.dieReportTimeout n) s = .next s := by
  show Host.Outcome.next (if dieChecked s n && s.tmp.counting && !dieReported s n then _ else s) = _
  simp [dieReported_iff.mpr h]
end

/-- Settles O40: a report is compared by `dieConsensusReport_first`, and what a disagreement does is read off the reset of the die. -/
theorem dieConsensus : Obligations.DieConsensus := by
  unfold Obligations.DieConsensus
  rintro n fixed win b _ s rfl hchecked
  refine ⟨fun share image number hbeat hfirst hshare himage hnumber => ?_, fun hcounting hfirst => ?_, fun hreported => ?_,
    fun u hu => ?_⟩
  · have hreport := dieConsensusReport_first hchecked hbeat hfirst hshare himage hnumber
    refine ⟨fun hs hi hn => ?_, fun hbad => ?_⟩
    · rw [hreport, hs, hi, hn]
      simp only [bne_self_eq_false, Bool.or_self, Bool.false_eq_true, ↓reduceIte, modFabDie_eq]
      rfl
    · have hguard : (number != s.tmp.beat || image != crc64 (windowImage s) || share != s.fab.die[n].fixedCrcRef) = true := by
        rcases hbad with h | h | h <;> simp only [bne_iff_ne.mpr h, Bool.or_true, Bool.true_or]
      simp only [hguard, ↓reduceIte] at hreport
      refine ⟨fun hleft => ⟨_, hreport, ?_⟩, fun hleft => ⟨_, hreport, disagree_failed (by rwa [modFabDie_die]) _ _ _⟩⟩
      rw [disagree_cause (by rwa [modFabDie_die]), disagree_die (by rwa [modFabDie_die]), modFabDie_die]
      exact ⟨rfl, rfl, rfl, rfl, rfl, rfl, rfl, rfl⟩
  · have hmissed := dieReportTimeout_missed hchecked hcounting hfirst
    refine ⟨fun hleft => ⟨_, hmissed, ?_⟩, fun hleft => ⟨_, hmissed, disagree_failed (by rwa [modFabDie_die]) _ _ _⟩⟩
    rw [disagree_cause (by rwa [modFabDie_die]), disagree_die (by rwa [modFabDie_die]), modFabDie_die]
    exact ⟨rfl, rfl, rfl, rfl, rfl, rfl, rfl⟩
  · exact ⟨dieConsensusReport_again hreported _ _ _, dieReportTimeout_again hreported⟩
  · show Host.Outcome.next (if (fabDie u n).reloading then _ else u) = _
    rw [fabDie_get, if_pos hu, modFabDie_eq]

/-! ## Routes (R234) -/

theorem meshStep_self (a : Nat) : meshStep a a = a := by simp [meshStep]

/-- A step on the mesh leaves its node until it is there. -/
theorem meshStep_ne {a b : Nat} (h : a ≠ b) : meshStep a b ≠ a := by
  unfold meshStep
  repeat' split
  all_goals omega

theorem halfOf_gateNode (h k : Nat) : halfOf (gateNode h k) = h := by
  unfold halfOf gateNode hubNode
  split <;> omega

/-- A flit that leaves its half enters another one. -/
theorem nextHalf_ne {h g : Nat} (hg : g ≤ 8) (hne : h ≠ g) : nextHalf h g ≠ h := by
  unfold nextHalf
  repeat' split
  all_goals omega

/-- A route stays at a node only at its end. -/
theorem nextHop_eq_self_iff {a b : Nat} (hb : b ≤ 64) : nextHop a b = a ↔ b = a := by
  refine ⟨fun hstay => ?_, fun h => by simp [h, nextHop, meshStep_self]⟩
  unfold nextHop at hstay
  dsimp only at hstay
  split at hstay
  · exact Decidable.byContradiction fun hne => meshStep_ne (Ne.symm hne) hstay
  · next hother =>
    split at hstay
    · have hgate := halfOf_gateNode (nextHalf (halfOf a) (halfOf b)) (halfOf a)
      rw [hstay] at hgate
      exact absurd hgate.symm (nextHalf_ne (Nat.div_le_div_right hb) hother)
    · next hinside => exact absurd hstay (meshStep_ne hinside)

/-! ## Buffers of the fabric (R239, R243, R244) -/

/-- The state in which a flit has come to an input port and taken its buffer, before anything moves. -/
def arrived (s : State) (node port : Nat) (x : FabFlit) : State :=
  takeBuffer (s.modFab fun f =>
    { f with transit := if port = node then f.transit else dropFirst (· == (port, node, x)) f.transit }) node port x

section
variable {s : State} {node port : Nat} {x : FabFlit}

theorem comes_of (hnode : node ≤ 64) (hne : x.dests ≠ []) (hdests : ∀ d ∈ x.dests, d ≤ 64)
    (hfrom : port = node ∨ (s.fab.transit.find? fun e => e.1 == port && e.2.1 == node) = some (port, node, x)) :
    comes s node port x = true := by
  have horigin : (port == node || (onLink s port node).head? == some x) = true := by
    rw [Bool.or_eq_true, beq_iff_eq, beq_iff_eq, onLink, List.head?_map, List.head?_filter]
    exact hfrom.imp_right fun h => by rw [h, Option.map_some]
  have hinside : decide (node ≤ hubNode) = true := decide_eq_true hnode
  have hsome : x.dests.isEmpty = false := by simpa using hne
  have hall : (x.dests.all fun d => decide (d ≤ hubNode)) = true := List.all_eq_true.mpr fun d hd => decide_eq_true (hdests d hd)
  rw [comes, hinside, hsome, hall, horigin]
  rfl

/-- A flit that comes and finds a buffer takes it, and the fabric moves (R234, R243, R244). -/
theorem fabricFlitArrival_taken (hcomes : comes s node port x = true) (htakes : (fabPort s node port).takes x = true) :
    exec (.fabricFlitArrival node port x) s =
      .next (moveAll (moveFuel (arrived s node port x)) (arrived s node port x)) := by
  show Host.Outcome.next (if comes s node port x && (fabPort s node port).takes x then _ else s) = _
  rw [hcomes, htakes]
  rfl

/-- A flit that finds no buffer stays where it is (R244). -/
theorem fabricFlitArrival_full (htakes : (fabPort s node port).takes x = false) : exec (.fabricFlitArrival node port x) s = .next s := by
  show Host.Outcome.next (if comes s node port x && (fabPort s node port).takes x then _ else s) = _
  rw [htakes, Bool.and_false]
  rfl

theorem fabPort_name (s : State) (node port : Nat) : (fabPort s node port).node = node ∧ (fabPort s node port).port = port := by
  unfold fabPort
  cases h : s.fab.ports.find? fun p => p.node == node && p.port == port with
  | none => exact ⟨rfl, rfl⟩
  | some p => simpa using List.find?_some h

theorem fabPort_setPort (s : State) {p : Port} (hname : p.node = node ∧ p.port = port)
    (h : (p.shared.isEmpty && p.escape.isEmpty) = false) : fabPort (s.setPort p) node port = p := by
  obtain ⟨rfl, rfl⟩ := hname
  have hother := find?_filter_not (fun q : Port => q.node == p.node && q.port == p.port) s.fab.ports
  simp only [fabPort, State.setPort, modFab_fab, List.find?_append, hother, h]
  simp

theorem takeBuffer_frame (s : State) (node port : Nat) (x : FabFlit) :
    takeBuffer s node port x = { s with fab := (takeBuffer s node port x).fab } := by
  unfold takeBuffer
  dsimp only
  split
  · rfl
  · split <;> rfl

/-- A free shared buffer takes the flit. -/
theorem fabPort_takeBuffer_shared (h : (fabPort s node port).shared.length < 32) : fabPort (takeBuffer s node port x) node port =
    { fabPort s node port with shared := (fabPort s node port).shared ++ [x] } := by
  rw [takeBuffer, if_pos h]
  exact fabPort_setPort s (fabPort_name s node port) (by simp)

/-- With the shared buffers full the flit takes the escape buffer of its class. -/
theorem fabPort_takeBuffer_escape (h : ¬(fabPort s node port).shared.length < 32) : fabPort (takeBuffer s node port x) node port =
    { fabPort s node port with escape := (fabPort s node port).escape ++ [x] } := by
  have hset := fabPort_setPort s (p := { fabPort s node port with escape := (fabPort s node port).escape ++ [x] })
    (fabPort_name s node port) (by simp)
  rw [takeBuffer, if_neg h]
  dsimp only
  split <;> exact hset

/-- An escape buffer that is taken counts on the die of its node. -/
theorem takeBuffer_escapeUse (h : ¬(fabPort s node port).shared.length < 32) {d : Die} (hd : node / 16 = d.val) :
    (takeBuffer s node port x).fab.die[d] = { s.fab.die[d] with
      escapeUse := vmodN s.fab.die[d].escapeUse (flitClass x).val (· + 1) } := by
  have hnode : node < 64 := by have := d.isLt; omega
  rw [takeBuffer, if_neg h]
  dsimp only
  rw [if_pos hnode, hd]
  exact modFabDie_die _ d fun x' => { x' with escapeUse := vmodN x'.escapeUse (flitClass x).val (· + 1) }
end

/-! ## A flit alone in the fabric (R234, R239, R243) -/

/-- An input port that holds one flit, in a shared buffer. -/
def lonePort (node port : Nat) (x : FabFlit) : Port := { node := node, port := port, shared := [x], escape := [] }

/-- The state after the flit of a lone port has moved to an output port of its node: into the sink there, or on its way. -/
def sentOn (s : State) (node port out : Nat) (x : FabFlit) : State :=
  s.modFab fun f => { f with
    ports := [], rotation := mset 0 f.rotation (128 * node + out) port,
    sunk := if out = node then f.sunk ++ [(node, x)] else f.sunk,
    transit := if out = node then f.transit else f.transit ++ [(node, out, x)] }

theorem moveAll_empty {s : State} (h : s.fab.ports = []) (k : Nat) : moveAll k s = s := by
  cases k with
  | zero => rfl
  | succ k =>
    have hheld : heldOuts s = [] := by simp [heldOuts, h]
    simp [moveAll, hheld, State.each]

section
variable {s : State} {node port d : Nat} {x : FabFlit} (hports : s.fab.ports = [lonePort node port x]) (htransit : s.fab.transit = [])
  (hdest : x.dests = [d])
include hports

theorem fabPort_lone : fabPort s node port = lonePort node port x := by simp [fabPort, hports, lonePort]

theorem fabPort_lone_other {a : Nat} (h : a ≠ node) (b : Nat) : (fabPort s a b).shared = [] := by
  simp [fabPort, hports, lonePort, Ne.symm h]

theorem rotationOf_lone (out : Nat) : Machine.rotationOf s node out = [port] := by
  have hsorted : (List.range (maxN [port] + 1)).filter (fun i => [port].contains i) = [port] := by
    have hlow : (List.range port).filter (fun i => [port].contains i) = [] :=
      List.filter_eq_nil_iff.mpr fun i hi => by simpa using Nat.ne_of_lt (List.mem_range.mp hi)
    have hmax : maxN [port] = port := Nat.max_eq_right (Nat.zero_le port)
    rw [hmax, List.range_succ, List.filter_append, hlow]
    simp
  unfold Machine.rotationOf
  simp only [hports, lonePort, List.filter_cons, beq_self_eq_true, ↓reduceIte, List.filter_nil, List.map_cons, List.map_nil, hsorted]
  by_cases hlast : mget 0 s.fab.rotation (128 * node + out) < port
  · simp [hlast]
  · simp [hlast, Nat.not_lt.mp hlast]

include htransit in
theorem outSpace_lone (out cls : Nat) : outSpace s node out cls = true := by
  by_cases h : out = node
  · simp [outSpace, h]
  · simp [outSpace, onLink, htransit, fabPort_lone_other hports h]

include hdest in
theorem heldOuts_lone : heldOuts s = [(node, nextHop node d)] := by simp [heldOuts, hports, lonePort, hdest, List.eraseDups_cons]

include hdest in
theorem moveFuel_lone : moveFuel s = 2 := by simp [moveFuel, hports, lonePort, hdest, sumN]

include htransit hdest in
theorem nextFlit_lone : nextFlit s node (nextHop node d) = some (lonePort node port x, x) := by
  have hspace : (List.range 5).filter (outSpace s node (nextHop node d)) = List.range 5 :=
    List.filter_eq_self.mpr fun c _ => outSpace_lone hports htransit _ c
  have hflit (c : Nat) : portFlit (lonePort node port x) (nextHop node d) c = if (flitClass x).val = c then some x else none := by
    by_cases h : (flitClass x).val = c <;> simp [portFlit, viaOut, lonePort, hdest, h]
  have hclass (k : Fin 5) : (List.range 5).findSome? (fun c => if k.val = c then some (lonePort node port x, x) else none) =
      some (lonePort node port x, x) := by
    match k with
    | 0 | 1 | 2 | 3 | 4 => rfl
  simp only [nextFlit, hspace, rotationOf_lone hports, List.findSome?_cons, List.findSome?_nil, fabPort_lone hports, hflit]
  rw [← hclass (flitClass x)]
  congr 1
  funext c
  by_cases h : (flitClass x).val = c <;> simp [h]

include htransit hdest in
theorem moveFlit_lone : moveFlit s node (nextHop node d) = sentOn s node port (nextHop node d) x := by
  have hvia : ({ x with dests := viaOut x node (nextHop node d) } : FabFlit) = x := by
    cases x
    simp_all [viaOut]
  have hmoved : (lonePort node port x).moved x (nextHop node d) = { node := node, port := port, shared := [], escape := [] } := by
    simp [Port.moved, lonePort, hdest, dropFirst]
  simp only [moveFlit, nextFlit_lone hports htransit hdest, hvia, hmoved]
  simp [State.setPort, State.modFab, sentOn, hports, lonePort]

include htransit hdest in
/-- The flit moves once: to the next node of its route, or into the sink. -/
theorem moveAll_lone : moveAll (moveFuel s) s = sentOn s node port (nextHop node d) x := by
  have hround : s.each (heldOuts s) (fun s e => moveFlit s e.1 e.2) = sentOn s node port (nextHop node d) x := by
    rw [heldOuts_lone hports hdest]
    exact moveFlit_lone hports htransit hdest
  have hmoved : (sentOn s node port (nextHop node d) x).fab.ports ≠ s.fab.ports := by simp [sentOn, hports]
  rw [moveFuel_lone hports hdest, moveAll]
  simp only [hround]
  rw [if_neg hmoved]
  exact moveAll_empty rfl 1
end

/-- A flit that comes to a fabric that holds no other is alone in a shared buffer of its port. -/
theorem arrived_alone {s : State} {node port : Nat} {x : FabFlit} (hports : s.fab.ports = [])
    (htransit : s.fab.transit = if port = node then [] else [(port, node, x)]) :
    arrived s node port x =
      s.modFab fun f => { f with ports := [lonePort node port x], transit := [] } := by
  have hleft : (if port = node then s.fab.transit else dropFirst (· == (port, node, x)) s.fab.transit) = [] := by
    rw [htransit]
    split <;> simp [dropFirst]
  simp [arrived, takeBuffer, fabPort, State.setPort, State.modFab, hports, hleft, lonePort]

/-! ## Credits of the slices (R245) -/

theorem ingCreditGrant_sends {s : State} {slice : Die} {r : MemReq}
    (h : (s.fab.ingWait.find? fun q => homeSlice (256 * q.line) == slice) = some r) :
    exec (.ingCreditGrant slice) s = .next ((s.modFab fun f => { f with ingWait := dropFirst (fun q => q == r) f.ingWait }).modGrn fun g =>
      { g with reqs := g.reqs ++ [r] }) := by
  show execIngCreditGrant slice s = _
  rw [execIngCreditGrant]
  simp only [lineAddr, h]

theorem ingCreditGrant_kept {s : State} {slice : Die} (h : ∀ q ∈ s.fab.ingWait, homeSlice (256 * q.line) ≠ slice) :
    exec (.ingCreditGrant slice) s =
      .next { s with fab := { s.fab with ingCredit := s.fab.ingCredit.set slice (min 64 (s.fab.ingCredit[slice] + 1)) } } := by
  have hnone : (s.fab.ingWait.find? fun q => homeSlice (256 * q.line) == slice) = none := by simpa using h
  show execIngCreditGrant slice s = _
  rw [execIngCreditGrant]
  simp only [lineAddr, hnone]
  rfl

/-! ## Slots of a reduction (R242, R253, R256) -/

theorem assoc_assocSet_ne {β : Type} (l : List (Nat × β)) {k j : Nat} (h : j ≠ k) (v : β) : assoc (assocSet l k v) j = assoc l j := by
  induction l with
  | nil => simp [assocSet, assoc, Ne.symm h]
  | cons e m ih =>
    unfold assocSet
    split
    · simp [assoc, Ne.symm h]
    · split
      · next hk => simp [assoc, ← hk, Ne.symm h]
      · simp [assoc, ih]

@[simp] theorem slot_setSlot_same (r : Red) (node input : Nat) (fs : List RedFlit) : (r.setSlot node input fs).slot node input = fs := by
  simp [Red.slot, Red.setSlot, assoc_assocSet_same]

theorem slot_setSlot_ne (r : Red) {node input p i : Nat} (h : 4 * p + i ≠ 4 * node + input) (fs : List RedFlit) :
    (r.setSlot node input fs).slot p i = r.slot p i := by
  simp [Red.slot, Red.setSlot, assoc_assocSet_ne _ h]

theorem find?_modRed {s : State} {id : Nat} {r : Red} {f : Red → Red} (hf : ∀ x, (f x).id = x.id)
    (h : (s.fab.reds.find? fun x => x.id == id) = some r) : ((s.modRed id f).fab.reds.find? fun x => x.id == id) = some (f r) := by
  have hid : r.id = id := by simpa using List.find?_some h
  have hmap := find?_map_invariant (fun x : Red => x.id == id) (fun x => if x.id = id then f x else x)
    (fun x => by split <;> simp [hf]) s.fab.reds
  rw [h, Option.map_some, if_pos hid] at hmap
  exact hmap

/-- A reduction once a node has taken the first flits of its inputs. -/
def withoutHeads (r : Red) (node n : Nat) (ins : List (Nat × Nat)) : Red :=
  ins.foldl (fun x e => x.setSlot node e.1 ((x.slot node e.1).drop n)) r

theorem withoutHeads_id (r : Red) (node n : Nat) (ins : List (Nat × Nat)) : (withoutHeads r node n ins).id = r.id := by
  induction ins generalizing r with
  | nil => rfl
  | cons e ins ih => exact ih _

/-- Slots that are no input of the node keep their flits. -/
theorem withoutHeads_slot (r : Red) (node n : Nat) {ins : List (Nat × Nat)} {p i : Nat} (h : ∀ e ∈ ins, 4 * p + i ≠ 4 * node + e.1) :
    (withoutHeads r node n ins).slot p i = r.slot p i := by
  induction ins generalizing r with
  | nil => rfl
  | cons e ins ih =>
    obtain ⟨hhead, htail⟩ := List.forall_mem_cons.mp h
    exact (ih _ htail).trans (slot_setSlot_ne r hhead _)

/-- A leaf's flit enters its slot, as far as the input is owed any (R256). -/
theorem thresherInput_enters {s : State} {r : Red} {y : TreeEntry} {node code : Nat} {input : Fin 4} (f : RedFlit)
    (hred : (s.fab.reds.find? fun x => x.id == r.id) = some r) (htree : redTree s r = some y)
    (hinput : ((y.inputs node).find? fun e => e.1 == input.val) = some (input.val, code)) (hcode : code < 0x48)
    (howed : r.received y node input < r.total y) (hleaf : leafOk s r code = true) :
    exec (.thresherInput r.id node input f) s = .next (s.modRed r.id fun r =>
      r.setSlot node input (r.slot node input ++ (leafFlits y code f).take (r.total y - r.received y node input))) := by
  show execThresherInput r.id node input f s = _
  rw [execThresherInput]
  simp only [hred, htree, hinput]
  rw [if_pos ⟨hcode, howed⟩, if_pos hleaf]

/-! ## The sum of a node (R251, R253 to R256) -/

section
variable {s : State} {r : Red} {y : TreeEntry} {node n : Nat} {heads : List (List RedFlit)}
  (hred : (s.fab.reds.find? fun x => x.id == r.id) = some r) (htree : redTree s r = some y)
  (hn : n = if node = y.root then y.perOut else 1) (hheads : heads = (y.inputs node).map fun e => (r.slot node e.1).take n)
  (hne : heads ≠ []) (hgood : ∀ h ∈ heads, h.length = n ∧ ∀ f ∈ h, f.poison = false)

include hheads hne hgood in
/-- Every input in use holds its flits. -/
theorem inputs_hold : ((y.inputs node).isEmpty || (y.inputs node).any fun e => decide ((r.slot node e.1).length < n)) = false := by
  have hall (e) (he : e ∈ y.inputs node) : n ≤ (r.slot node e.1).length := by
    have hlength := (hgood _ (hheads ▸ List.mem_map_of_mem he)).1
    rw [List.length_take] at hlength
    omega
  have hsome : y.inputs node ≠ [] := fun hnil => hne (by rw [hheads, hnil, List.map_nil])
  rw [Bool.or_eq_false_iff, List.any_eq_false]
  exact ⟨by simpa using hsome, fun e he => by simpa using hall e he⟩

include hgood in
theorem heads_not_poisoned : (heads.any fun h => h.any (·.poison)) = false := by
  simp only [List.any_eq_false, Bool.not_eq_true]
  exact fun h hh => (hgood h hh).2

/-- The sum of the flits at the head of a node's inputs, in the order of the inputs. -/
def headSum (y : TreeEntry) (heads : List (List RedFlit)) : List W32 :=
  redSum y.format (heads.map fun h => h.flatMap fun f => flitWords f.bytes)

include hred htree in
theorem thresherEmit_eq : exec (.thresherEmit r.id node) s = .next (emitNode s r y node) := by
  show execThresherEmit r.id node s = _
  rw [execThresherEmit]
  simp only [hred, htree]

include hn hheads hne hgood in
/-- A node other than the root hands its sum to the input of its parent. -/
theorem emitNode_inner {p i : Nat} (hroot : node ≠ y.root) (hparent : y.parent node = some (p, i)) : emitNode s r y node =
    (s.modRed r.id fun x => withoutHeads x node n (y.inputs node)).modRed r.id fun x => x.setSlot p i
      (x.slot p i ++ [{ poison := false, bytes := (headSum y heads).flatMap fun w => leBytes 4 w.toNat }]) := by
  rw [emitNode]
  simp only [← hn, inputs_hold hheads hne hgood, ← hheads, heads_not_poisoned hgood, if_neg hroot, hparent, Bool.false_eq_true,
    ↓reduceIte]
  rfl

include hn hheads hne hgood in
/-- The root writes its sum into the local memory of the tree's tiles; what it does besides is done to the fabric alone. -/
theorem emitNode_root (hroot : node = y.root) (hout : y.outCode < 0x10)
    (haddr : 64 * (bitsOf y.dest.toNat 12 0 + r.rootOut) ≤ 0x5FFC0) :
    ∃ f, emitNode s r y node = ((s.modRed r.id fun x => withoutHeads x node n (y.inputs node)).each (rootTiles s y) fun s k =>
      s.writeLocal k (64 * (bitsOf y.dest.toNat 12 0 + r.rootOut)) (redBytes y.format (headSum y heads))).modFab f := by
  rw [emitNode]
  simp only [← hn, inputs_hold hheads hne hgood, ← hheads, heads_not_poisoned hgood, if_pos hroot, Bool.false_eq_true, ↓reduceIte,
    rootOutput, if_neg (Nat.not_le.mpr hout), if_neg (Nat.not_lt.mpr haddr)]
  split
  · exact ⟨_, rfl⟩
  · exact ⟨_, rfl⟩
end

theorem writeLocal_mem (s : State) (tile a : Nat) (bs : List Byte) : (s.writeLocal tile a bs).mem = s.mem := rfl

theorem each_writeLocal_tile {s t : State} (h : t.tile = s.tile) (ks : List Nat) (a : Nat) (bs : List Byte) :
    (t.each ks fun s k => s.writeLocal k a bs).tile = (s.each ks fun s k => s.writeLocal k a bs).tile := by
  induction ks generalizing s t with
  | nil => exact h
  | cons k ks ih => exact ih (by simp [State.writeLocal, State.settleMxe, State.pokeLocal, h])

/-! ## The statement on the fabric -/

/-- Settles O39: a buffer is taken or none is free, a lone flit moves once, and a reduction's slots are read back after they are set. -/
theorem fabricMovesFlits : Obligations.FabricMovesFlits := by
  unfold Obligations.FabricMovesFlits
  intro s
  refine ⟨fun node port x hnode hdests hinside hfrom => ?_, fun slice => ?_, fun r y node hred htree => ⟨?_, ?_⟩⟩
  · have hcomes := comes_of hnode hdests hinside hfrom
    refine ⟨fun hshared => ?_, fun hfull hescape => ?_, fun hfull htaken => ?_, fun d hd hports htransit => ?_⟩
    · have htakes : (fabPort s node port).takes x = true := by simp [Port.takes, hshared]
      exact ⟨_, fabricFlitArrival_taken hcomes htakes, fabPort_takeBuffer_shared hshared, takeBuffer_frame _ _ _ _⟩
    · have htakes : (fabPort s node port).takes x = true := by simpa [Port.takes] using .inr hescape
      have hnone := Nat.not_lt.mpr hfull
      exact ⟨_, fabricFlitArrival_taken hcomes htakes, fabPort_takeBuffer_escape hnone, takeBuffer_frame _ _ _ _,
        fun d hd => takeBuffer_escapeUse (s := s.modFab _) (by exact hnone) hd⟩
    · exact fabricFlitArrival_full (by simpa [Port.takes] using ⟨hfull, htaken⟩)
    · have htakes : (fabPort s node port).takes x = true := by simp [Port.takes, fabPort, hports]
      have hmove := fabricFlitArrival_taken hcomes htakes
      rw [arrived_alone hports htransit, moveAll_lone (s := s.modFab _) rfl rfl hd] at hmove
      have hend := nextHop_eq_self_iff (a := node) (hinside d (hd ▸ List.mem_singleton_self d))
      refine ⟨_, hmove, rfl, rfl, ?_, ?_⟩ <;> simp [sentOn, hend]
  · exact ⟨fun r h => ⟨_, ingCreditGrant_sends h, rfl, rfl, rfl⟩, ingCreditGrant_kept⟩
  · intro input code f hinput hcode howed hleaf
    exact ⟨_, _, thresherInput_enters f hred htree hinput hcode howed hleaf, find?_modRed (fun _ => rfl) hred,
      slot_setSlot_same _ _ _ _, rfl⟩
  · intro heads n hn hheads hne hgood
    refine ⟨fun p i hroot hparent hother => ?_, fun hroot hout haddr => ?_⟩
    · have hemit := (thresherEmit_eq hred htree).trans (congrArg Host.Outcome.next (emitNode_inner hn hheads hne hgood hroot hparent))
      refine ⟨_, _, hemit, find?_modRed (fun _ => rfl) (find?_modRed (fun x => withoutHeads_id x _ _ _) hred), ?_, rfl⟩
      rw [slot_setSlot_same, withoutHeads_slot r node n hother]
      rfl
    · obtain ⟨f, hroot⟩ := emitNode_root (s := s) hn hheads hne hgood hroot hout haddr
      refine ⟨_, (thresherEmit_eq hred htree).trans (congrArg Host.Outcome.next hroot), ?_, ?_⟩
      · exact each_proj State.mem _ (fun _ _ => writeLocal_mem _ _ _ _) _ _
      · exact congrArg Tiles.localMem ((modFab_tile _ f).trans (each_writeLocal_tile (modFab_tile s _) _ _ _))

end Sys2Proof.Proofs

/-! SUPPORT. The statements on the memory stacks (07), and on the canonical form of device memory under any command. First the canonical form;
then what the operations on stacks and on maps give back; then parity retries; then what a check of a line's bursts can do to memory; then
remaps and refresh; then what the end of a step leaves of memory, and a stack's temperature. -/

namespace Sys2Proof.Proofs

open Sys2Proof Sys2Proof.Machine Sys2Proof.Laws

/-! ## The canonical form under any command (R268) -/

theorem coolingUpdate_mem (s : State) (temps : List (Option Int)) : (coolingUpdate s temps).mem = s.mem := by
  have readings : (s.each slots fun s k => if isPkg s k then s else s.modSlot k fun x =>
      { x with temp := if x.powered then (temps[k]?).getD none else none }).mem = s.mem :=
    each_proj State.mem _ (fun s k => by split <;> rfl) _ s
  unfold coolingUpdate
  dsimp only
  split
  · exact readings
  · exact readings

theorem larkspur_mem {f : State → State} (h : ∀ s, (f s).mem = s.mem) (s : State) : (larkspur s f).mem = s.mem := by
  unfold larkspur
  split
  · exact h s
  · rfl

/-- The end of a key operation burns fuses, and leaves memory to what `Ok` says. -/
theorem sourceRead_memWf {s : State} (w : s.mem.wf = true) (good : Bool) (data : List Byte) : (sourceRead s good data).mem.wf = true := by
  obtain hok | ⟨f, nonce, d, -, hok⟩ := sourceRead_ok s good data
  · exact hok.2 w
  · exact hok.2 w

theorem exec_memWf {c : Instr} {s t : State} (w : s.mem.wf = true) (h : exec c s = .next t) : t.mem.wf = true := by
  obtain hok | ⟨good, data, rfl⟩ | ⟨temps, rfl⟩ | ⟨ms, rfl⟩ | ⟨b1, b2, us, i, x, y, ms, rfl⟩ := exec_ok_or_special c h
  · exact hok.2 w
  all_goals cases h
  · exact sourceRead_memWf w good data
  · rwa [larkspur_mem fun s => coolingUpdate_mem s temps]
  · exact w
  · rwa [larkspur_mem fun s => by split <;> rfl]

/-- Settles O4: a step executes one command or none, and each command keeps the form. -/
theorem stepKeepsMemoryCanonical : Obligations.StepKeepsMemoryCanonical := by
  unfold Obligations.StepKeepsMemoryCanonical
  intro s t w h
  unfold step at h
  split at h
  · cases h
    exact w
  · refine exec_memWf ?_ h
    exact w

/-! ## Stacks, counters and the poison syndrome -/

/-- A count that is not the default reads back whatever form its map has. -/
theorem mget_mset_of_ne {β : Type} [DecidableEq β] {d v : β} (h : v ≠ d) (m : NMap β) (k : Nat) : mget d (mset d m k v) k = v := by
  induction m with
  | nil => simp [mset, mget, h]
  | cons e m ih =>
    unfold mset
    rw [if_neg h, if_neg h]
    split
    · simp [mget]
    · split
      · simp [mget]
      · next hne => simp [mget, Ne.symm hne, ih]

section
variable {s : State} {t : Nat} {f : Stack → Stack}

theorem stackSt_modStack (h : t < 8) : stackSt (s.modStack t f) t = f (stackSt s t) := by
  rw [stackSt, stackSt, State.modStack, modMem_mem, vat_vmodN, if_pos ⟨rfl, h⟩]

theorem stackSt_modStack_ne {k : Nat} (h : k ≠ t) : stackSt (s.modStack t f) k = stackSt s k :=
  vat_vmodN_ne _ _ _ _ _ (Ne.symm h)

/-- What a change of a stack leaves alone, it leaves alone of every stack. -/
theorem stackSt_modStack_proj {γ : Type} {g : Stack → γ} (h : ∀ k, g (f k) = g k) (k : Nat) :
    g (stackSt (s.modStack t f) k) = g (stackSt s k) := by
  rw [stackSt, State.modStack, modMem_mem, vat_vmodN]
  split
  · exact h _
  · rfl
end

/-- What `recordErr` does not record, it leaves alone. -/
theorem stackSt_recordErr {γ : Type} {g : Stack → γ} (h : ∀ (k : Stack) (v : Bool) (c a : Nat),
    g { k with errValid := v, errCause := c, errAddr := a } = g k) (s : State) (line cause k : Nat) :
    g (stackSt (recordErr s line cause) k) = g (stackSt s k) :=
  stackSt_modStack_proj (fun k => by
    split
    · rfl
    · exact h ..) k

/-- A fold establishes what one of its steps sets and every step keeps. -/
theorem foldl_of_mem {α β : Type} {P : β → Prop} {f : β → α → β} (keep : ∀ m x, P m → P (f m x)) {x : α}
    (set : ∀ m, P (f m x)) {xs : List α} (hx : x ∈ xs) (m : β) : P (xs.foldl f m) := by
  obtain ⟨as, bs, rfl⟩ := List.append_of_mem hx
  rw [List.foldl_append, List.foldl_cons]
  exact List.foldlRecOn (motive := P) bs f (set _) fun m hm y _ => keep m y hm

theorem poisoned_setPoison_same (m : Memory) (k : Nat) : (m.setPoison k true).poisoned k = true := by
  simp [Memory.poisoned, Memory.setPoison]

theorem poisoned_setPoison_of_poisoned {m : Memory} {j : Nat} (h : m.poisoned j = true) (k : Nat) :
    (m.setPoison k true).poisoned j = true := by
  simp only [Memory.poisoned, Memory.setPoison, List.contains_iff_mem, ↓reduceIte, List.mem_append, List.mem_cons, List.mem_filter,
    decide_eq_true_eq] at h ⊢
  exact (Nat.lt_trichotomy (j / 32) (k / 32)).imp (⟨h, ·⟩) (.imp id (⟨h, ·⟩))

/-! ## Parity retries (R273 to R276, R676) -/

/-- Names the transfer of a retry. -/
def retryOf (x line : Nat) (kind : ParityKind) (r : Retry) : Bool := r.x == x && r.line == line && r.kind == kind

/-- The state in which an attempt is made: a slot of the reserve is used, and the transfer's retry is under way no more. -/
def retryTaken (s : State) (x line : Nat) (kind : ParityKind) : State := s.modMem fun m => { m with
  retryUsed := mset 0 m.retryUsed x (mget 0 m.retryUsed x + 1), retries := m.retries.filter fun r => !retryOf x line kind r }

section
variable {s : State} {x : Nat} {line : Nat} {kind : ParityKind}

theorem parityRetry_open {tries : Nat} (hx : chanOf (lineAddr line) = x) (hfail : chanFailed s x = false)
    (htrip : stackTripped s (x / 64) = false) (hfree : mget 0 s.mem.retryUsed x < 4)
    (htries : tries = (findRetry s x line kind).elim 1 (·.tries + 1)) (pass : Bool) :
    parityRetry s x line kind pass =
      if pass then (retryTaken s x line kind).modStack (x / 64) fun t => { t with parPass := t.parPass + 1 }
      else if tries < 3 then (retryTaken s x line kind).modMem fun m =>
        { m with retries := m.retries ++ [{ x := x, line := line, kind := kind, tries := tries, poisonWrite := false }] }
      else retriesOver (retryTaken s x line kind) x line kind := by
  have hguard : (chanOf (lineAddr line) != x || linePoisonAnswer s line || decide (4 ≤ mget 0 s.mem.retryUsed x)) = false := by
    simp [linePoisonAnswer, hx, hfail, htrip, hfree]
  rw [parityRetry, hguard, htries]
  rfl

theorem retryUsed_taken : mget 0 (retryTaken s x line kind).mem.retryUsed x = mget 0 s.mem.retryUsed x + 1 :=
  mget_mset_of_ne (Nat.succ_ne_zero _) _ _

theorem findRetry_taken : findRetry (retryTaken s x line kind) x line kind = none := find?_filter_not _ _

theorem findRetry_again (tries : Nat) : findRetry ((retryTaken s x line kind).modMem fun m =>
    { m with retries := m.retries ++ [{ x := x, line := line, kind := kind, tries := tries, poisonWrite := false }] }) x line kind =
      some { x := x, line := line, kind := kind, tries := tries, poisonWrite := false } := by
  have hnone := findRetry_taken (s := s) (x := x) (line := line) (kind := kind)
  unfold findRetry at hnone ⊢
  rw [modMem_mem, List.find?_append, hnone]
  simp

/-! ### The third failure (Table 7-3) -/

theorem failChannel_fails (h : x / 64 < 8) : (stackSt (failChannel s x) (x / 64)).chFail.getLsbD (x % 64) = true := by
  have hbit : x % 64 < 64 := Nat.mod_lt _ (by decide)
  rw [failChannel, stackSt_modStack h, BitVec.getLsbD_or, BitVec.getLsbD_ofNat, Nat.testBit_two_pow_self]
  simp [hbit]

theorem failChannel_parExhaust (k : Nat) : (stackSt (failChannel s x) k).parExhaust = (stackSt s k).parExhaust :=
  stackSt_modStack_proj (f := fun t => { t with chFail := t.chFail ||| _ }) (g := Stack.parExhaust) (fun _ => rfl) k

/-- A data retry exhaustion up to the check of its count. -/
def exhaustionCounted (s : State) (x line : Nat) : State :=
  (recordErr (s.modStack (x / 64) fun t => { t with parExhaust := t.parExhaust + 1 }) line 1).modMem fun m =>
    { m with exhaust := mset 0 m.exhaust x (mget 0 s.mem.exhaust x + 1) }

theorem dataExhausted_eq : dataExhausted s x line =
    if mget 0 s.mem.exhaust x + 1 = 4 then failChannel (exhaustionCounted s x line) x else exhaustionCounted s x line := rfl

theorem parExhaust_counted (h : x / 64 < 8) (cause : Nat) :
    (stackSt (recordErr (s.modStack (x / 64) fun t => { t with parExhaust := t.parExhaust + 1 }) line cause) (x / 64)).parExhaust =
      (stackSt s (x / 64)).parExhaust + 1 := by
  rw [stackSt_recordErr (g := Stack.parExhaust) fun _ _ _ _ => rfl, stackSt_modStack h]

theorem dataExhausted_parExhaust (h : x / 64 < 8) :
    (stackSt (dataExhausted s x line) (x / 64)).parExhaust = (stackSt s (x / 64)).parExhaust + 1 := by
  have hcounted : (stackSt (exhaustionCounted s x line) (x / 64)).parExhaust = _ := parExhaust_counted h 1
  rw [dataExhausted_eq]
  split
  · rw [failChannel_parExhaust, hcounted]
  · exact hcounted

theorem dataExhausted_exhaust : mget 0 (dataExhausted s x line).mem.exhaust x = mget 0 s.mem.exhaust x + 1 := by
  rw [dataExhausted_eq]
  split <;> exact mget_mset_of_ne (Nat.succ_ne_zero _) _ _

theorem dataExhausted_fails (h : x / 64 < 8) (hfourth : mget 0 s.mem.exhaust x = 3) :
    (stackSt (dataExhausted s x line) (x / 64)).chFail.getLsbD (x % 64) = true := by
  rw [dataExhausted_eq, if_pos (by rw [hfourth])]
  exact failChannel_fails h

theorem dataExhausted_grn : (dataExhausted s x line).grn = s.grn := by rw [dataExhausted_eq]; split <;> rfl
theorem dataExhausted_cells : (dataExhausted s x line).mem.cells = s.mem.cells := by rw [dataExhausted_eq]; split <;> rfl
theorem dataExhausted_poison : (dataExhausted s x line).mem.poison = s.mem.poison := by rw [dataExhausted_eq]; split <;> rfl

/-- With no read of the line under way there is no waiter to tell. -/
theorem poisonRead_idle (hmiss : readUnderWay s line = none) (hdirect : directUnderWay s line = none) : poisonRead s line = s := by
  simp [poisonRead, hmiss, hdirect]

theorem poisonRead_exhausted (hmiss : readUnderWay s line = none) (hdirect : directUnderWay s line = none) :
    poisonRead (dataExhausted s x line) line = dataExhausted s x line :=
  poisonRead_idle (by rw [readUnderWay, dataExhausted_grn]; exact hmiss) (by rw [directUnderWay, dataExhausted_grn]; exact hdirect)

/-- A poison write marks each burst of the line, where its row lies. -/
theorem poisonLine_poisoned {b : Nat} (hb : b < 8) : (poisonLine s line).mem.poisoned (physOf s (lineAddr line) + 32 * b) = true := by
  have keep (k : Nat) (m : Memory) (c : Nat) (hm : m.poisoned (physOf s (lineAddr line) + 32 * b) = true) :
      (m.setPoison (k + 32 * c) true).poisoned (physOf s (lineAddr line) + 32 * b) = true := poisoned_setPoison_of_poisoned hm _
  refine foldl_of_mem (P := fun m : Memory => m.poisoned (physOf s (lineAddr line) + 32 * b) = true) (fun m k hm => ?_) (fun m => ?_)
    List.mem_cons_self s.mem
  · exact List.foldlRecOn (motive := fun m : Memory => m.poisoned _ = true) _ _ hm fun m hm c _ => keep k m c hm
  · exact foldl_of_mem (P := fun m : Memory => m.poisoned _ = true) (keep _) (fun m => poisoned_setPoison_same m _)
      (List.mem_range.mpr hb) m

/-- A poison write changes nothing but marks. -/
theorem poisonLine_eq : ∃ p, poisonLine s line = s.modMem fun m => { m with poison := p } := by
  have hmem : (poisonLine s line).mem = { s.mem with poison := (poisonLine s line).mem.poison } :=
    List.foldlRecOn (motive := fun m : Memory => m = { s.mem with poison := m.poison }) _ _ rfl fun _ hm _ _ =>
      List.foldlRecOn (motive := fun m : Memory => m = { s.mem with poison := m.poison }) _ _ hm fun _ hm _ _ => by rw [hm]; rfl
  exact ⟨_, congrArg (fun m => { s with mem := m }) hmem⟩

/-! ### Each kind of transfer whose retries are over -/

/-- What the statement says of a transfer whose third retry has failed. -/
structure RetriesExhausted (s : State) (x line : Nat) (kind : ParityKind) (t : State) : Prop where
  parExhaust : (stackSt t (x / 64)).parExhaust = (stackSt s (x / 64)).parExhaust + 1
  cells : t.mem.cells = s.mem.cells
  fails : kind = .command ∨ mget 0 s.mem.exhaust x = 3 → (stackSt t (x / 64)).chFail.getLsbD (x % 64) = true
  counts : kind ≠ .command → mget 0 t.mem.exhaust x = mget 0 s.mem.exhaust x + 1
  poisons : kind = .write → ∀ b < 8, t.mem.poisoned (physOf s (lineAddr line) + 32 * b) = true

variable (hstack : x / 64 < 8)
include hstack

theorem command_exhausted : RetriesExhausted s x line .command (retriesOver s x line .command) where
  parExhaust := (failChannel_parExhaust _).trans (parExhaust_counted hstack 2)
  cells := rfl
  fails _ := failChannel_fails hstack
  counts h := absurd rfl h
  poisons h := nomatch h

variable (hmiss : readUnderWay s line = none) (hdirect : directUnderWay s line = none)
include hmiss hdirect

theorem read_exhausted : RetriesExhausted s x line .read (retriesOver s x line .read) := by
  rw [retriesOver, poisonRead_exhausted hmiss hdirect]
  exact {
    parExhaust := dataExhausted_parExhaust hstack
    cells := dataExhausted_cells
    fails := fun h => dataExhausted_fails hstack (h.resolve_left nofun)
    counts := fun _ => dataExhausted_exhaust
    poisons := nofun }

theorem write_exhausted : RetriesExhausted s x line .write (retriesOver s x line .write) := by
  have hmark : ∀ b < 8, (poisonLine s line).mem.poisoned (physOf s (lineAddr line) + 32 * b) = true := fun b => poisonLine_poisoned
  obtain ⟨p, hp⟩ := poisonLine_eq (s := s) (line := line)
  rw [hp] at hmark
  rw [retriesOver, hp, poisonRead_exhausted (s := s.modMem _) hmiss hdirect]
  exact {
    parExhaust := dataExhausted_parExhaust hstack
    cells := dataExhausted_cells
    fails := fun h => dataExhausted_fails hstack (h.resolve_left nofun)
    counts := fun _ => dataExhausted_exhaust
    poisons := fun _ b hb => by rw [Memory.poisoned, dataExhausted_poison]; exact hmark b hb }
end

theorem retriesOver_exhausted {s : State} {x line : Nat} (hstack : x / 64 < 8) (hmiss : readUnderWay s line = none)
    (hdirect : directUnderWay s line = none) : (kind : ParityKind) → RetriesExhausted s x line kind (retriesOver s x line kind)
  | .command => command_exhausted hstack
  | .write => write_exhausted hstack hmiss hdirect
  | .read => read_exhausted hstack hmiss hdirect

/-- Settles O41: an attempt takes its slot of the reserve, and then passes, is tried again, or is the last. -/
theorem parityRetries : Obligations.ParityRetries := by
  unfold Obligations.ParityRetries
  intro x line kind tries s hx hfail htrip hfree htries
  have hopen := parityRetry_open hx hfail htrip hfree htries
  have hstack : x.val / 64 < 8 := by omega
  refine ⟨⟨_, congrArg (Host.Outcome.next ∘ settle) (hopen true), ?_, findRetry_taken, ?_, rfl, rfl⟩, fun hagain => ?_,
    fun hlast hmiss hdirect => ?_⟩
  · exact congrArg Stack.parPass (stackSt_modStack hstack)
  · exact retryUsed_taken (line := line) (kind := kind)
  · exact ⟨_, congrArg (Host.Outcome.next ∘ settle) ((hopen false).trans (if_pos hagain)), findRetry_again tries,
      retryUsed_taken (line := line) (kind := kind), rfl, rfl⟩
  · have hover := retriesOver_exhausted (s := retryTaken s x line kind) hstack hmiss hdirect kind
    exact ⟨_, congrArg (Host.Outcome.next ∘ settle) ((hopen false).trans (if_neg (Nat.not_lt.mpr hlast))), hover.parExhaust, hover.cells,
      hover.fails, hover.counts, hover.poisons⟩

/-! ## What a check of a line's bursts can do to memory (R280 to R288) -/

/-- A stack is tripped, and is in self-refresh. -/
def tripOf (k : Stack) : Bool × Bool := (k.tripped, k.selfRefresh)

/-- A state differs from another, in memory, by counts, error records and new entries of the remap table that are not in effect. -/
structure EccCounted (s t : State) : Prop where
  cells : t.mem.cells = s.mem.cells
  wbuf : t.mem.wbuf = s.mem.wbuf
  trips : t.mem.stack.map tripOf = s.mem.stack.map tripOf
  remap : ∃ more : List Remap, (∀ q ∈ more, q.active = false) ∧ t.mem.remap = s.mem.remap ++ more

theorem EccCounted.refl (s : State) : EccCounted s s := ⟨rfl, rfl, rfl, [], nofun, (List.append_nil _).symm⟩

theorem EccCounted.trans {s t u : State} (h : EccCounted s t) (k : EccCounted t u) : EccCounted s u := by
  obtain ⟨a, ha, hs⟩ := h.remap
  obtain ⟨b, hb, ht⟩ := k.remap
  refine ⟨k.cells.trans h.cells, k.wbuf.trans h.wbuf, k.trips.trans h.trips, a ++ b, fun q hq => ?_, ?_⟩
  · exact (List.mem_append.mp hq).elim (ha q) (hb q)
  · rw [ht, hs, List.append_assoc]

theorem each_counted {α : Type} {f : State → α → State} (h : ∀ s x, EccCounted s (f s x)) (xs : List α) (s : State) :
    EccCounted s (s.each xs f) :=
  List.foldlRecOn (motive := EccCounted s) xs f (.refl s) fun _ hu x _ => hu.trans (h _ x)

theorem modStack_counted {f : Stack → Stack} (h : ∀ k, tripOf (f k) = tripOf k) (s : State) (t : Nat) : EccCounted s (s.modStack t f) :=
  ⟨rfl, rfl, vmodN_map h _ _, [], nofun, (List.append_nil _).symm⟩

theorem recordErr_counted (s : State) (line cause : Nat) : EccCounted s (recordErr s line cause) :=
  modStack_counted (fun k => by split <;> rfl) s _

theorem event_counted (s : State) (c : Code) : EccCounted s (s.event c) := ⟨rfl, rfl, rfl, [], nofun, (List.append_nil _).symm⟩

/-- A table that is full only counts. -/
theorem remapFull_counted (s : State) (x : Nat) :
    EccCounted s ((s.event .memRemapFull).modStack (x / 64) fun t => { t with remapFull := t.remapFull + 1 }) :=
  (event_counted s _).trans (modStack_counted (f := fun t => { t with remapFull := t.remapFull + 1 }) (fun _ => rfl) _ _)

theorem remapStart_counted (s : State) (x bank row : Nat) : EccCounted s (remapStart s x bank row) := by
  unfold remapStart
  split
  · exact .refl s
  · split
    · split
      · exact ⟨rfl, rfl, rfl, _, fun q hq => by rw [List.mem_singleton.mp hq], rfl⟩
      · exact remapFull_counted s x
    · exact remapFull_counted s x

theorem fresh_counted (s : State) : EccCounted s s.fresh := ⟨rfl, rfl, rfl, [], nofun, (List.append_nil _).symm⟩

theorem ceRows_counted (s : State) (f : Memory → List CeRow) : EccCounted s (s.modMem fun m => { m with ceRows := f m }) :=
  ⟨rfl, rfl, rfl, [], nofun, (List.append_nil _).symm⟩

theorem countCe_counted (s : State) (x bank row : Nat) : EccCounted s (countCe s x bank row) := by
  unfold countCe
  dsimp only
  split
  · split
    · exact (ceRows_counted s _).trans (remapStart_counted _ x bank row)
    · exact ceRows_counted s _
  · exact (fresh_counted s).trans (ceRows_counted _ _)

theorem eccOn_counted (s : State) (line : Nat) (read : Nat → Bool) (found : List Burst) : EccCounted s (eccOn s line read found) := by
  unfold eccOn
  refine each_counted (fun u b => ?_) _ s
  split
  · have hue := modStack_counted (f := fun t => { t with ue := t.ue + 1 }) (fun _ => rfl) u
    exact ((hue _).trans (recordErr_counted _ _ _)).trans (remapStart_counted _ _ _ _)
  · split
    · have hce := modStack_counted (f := fun t => { t with ce := t.ce + 1 }) (fun _ => rfl) u
      exact (hce _).trans (countCe_counted _ _ _ _)
    · exact .refl u

/-- An entry that is not in effect moves no row. -/
theorem physRow_of_counted {s t : State} (h : EccCounted s t) (x bank row : Nat) : physRow t x bank row = physRow s x bank row := by
  obtain ⟨more, hoff, hremap⟩ := h.remap
  rw [physRow, physRow, hremap, List.foldl_append]
  exact List.foldlRecOn (motive := fun r => r = s.mem.remap.foldl _ row) more _ rfl fun r hr q hq => by
    rw [if_neg (by simp [hoff q hq]), hr]

/-! ## The copy of a row (R288) -/

theorem mget_msetN_outside {β : Type} [DecidableEq β] (d : β) {j : Nat} (vs : List β) (m : NMap β) (k : Nat)
    (h : j < k ∨ k + vs.length ≤ j) : mget d (msetN d m k vs) j = mget d m j := by
  induction vs generalizing m k with
  | nil => rfl
  | cons v vs ih =>
    rw [List.length_cons] at h
    rw [msetN, ih _ _ (by omega), mget_mset_other _ _ _ _ _ (by omega)]

theorem mget_msetN_inside {β : Type} [DecidableEq β] {d v : β} (vs : List β) {i : Nat} (h : vs[i]? = some v) (m : NMap β) (k : Nat)
    (w : NMap.wf d m = true) : mget d (msetN d m k vs) (k + i) = v := by
  induction vs generalizing m k i with
  | nil => cases h
  | cons u vs ih =>
    rw [msetN]
    cases i with
    | zero =>
      cases h
      show mget d _ k = v
      rw [mget_msetN_outside d vs _ (k + 1) (.inl (Nat.lt_succ_self k))]
      exact mget_mset_same _ _ _ _ _ w
    | succ i =>
      rw [← Nat.add_assoc, Nat.add_right_comm]
      exact ih h _ _ (mset_wf _ _ _ _ w)

theorem mgetN_length {β : Type} (d : β) (m : NMap β) (k n : Nat) : (mgetN d m k n).length = n := by
  induction n generalizing k with
  | zero => rfl
  | succ n ih => rw [mgetN, List.length_cons, ih]

theorem getElem?_mgetN {β : Type} (d : β) (m : NMap β) {i n : Nat} (h : i < n) (k : Nat) :
    (mgetN d m k n)[i]? = some (mget d m (k + i)) := by
  induction n generalizing k i with
  | zero => omega
  | succ n ih =>
    rw [mgetN]
    cases i with
    | zero => rfl
    | succ i => rw [List.getElem?_cons_succ, ih (by omega), Nat.add_right_comm, Nat.add_assoc]

section
variable {found : List Burst} {src dst : Nat}

theorem copyBurst_cells (m : Memory) (b : Nat) : (copyBurst found src dst m b).cells =
    msetN Memory.fresh m.cells (dst + 32 * b) (mgetN Memory.fresh m.cells (src + 32 * b) 32) := by
  simp only [copyBurst, Memory.setPoison, Memory.writeN]

theorem copyBurst_read {m : Memory} (w : m.wf = true) (b : Nat) {i : Nat} (h : i < 32) :
    (copyBurst found src dst m b).read (dst + 32 * b + i) = m.read (src + 32 * b + i) := by
  rw [Memory.read, copyBurst_cells]
  exact mget_msetN_inside _ (getElem?_mgetN _ _ h _) _ _ w

theorem copyBurst_read_outside (m : Memory) (b : Nat) {j : Nat} (h : j < dst + 32 * b ∨ dst + 32 * b + 32 ≤ j) :
    (copyBurst found src dst m b).read j = m.read j := by
  rw [Memory.read, copyBurst_cells, mget_msetN_outside _ _ _ _ (by rwa [mgetN_length]), Memory.read]

/-- The first bursts of a row have been copied, and no other byte is another. -/
structure RowCopied (src dst n : Nat) (m t : Memory) : Prop where
  wf : t.wf = true
  read : ∀ i < 32 * n, t.read (dst + i) = m.read (src + i)
  frame : ∀ j, j < dst ∨ dst + 32 * n ≤ j → t.read j = m.read j

/-- It is a copy of any memory that reads the same. -/
theorem RowCopied.of_read {m u t : Memory} {n : Nat} (h : RowCopied src dst n u t) (hread : ∀ k, u.read k = m.read k) :
    RowCopied src dst n m t :=
  ⟨h.wf, fun i hi => (h.read i hi).trans (hread _), fun j hj => (h.frame j hj).trans (hread _)⟩

/-- One more burst, from a row that the copy does not reach. -/
theorem RowCopied.burst {m t : Memory} {n : Nat} (h : RowCopied src dst n m t) (hn : n < 32)
    (hapart : src + 1024 ≤ dst ∨ dst + 1024 ≤ src) : RowCopied src dst (n + 1) m (copyBurst found src dst t n) where
  wf := copyBurst_wf _ _ _ _ _ h.wf
  read i hi := by
    by_cases hold : i < 32 * n
    · rw [copyBurst_read_outside _ _ (by omega), h.read i hold]
    · obtain ⟨k, rfl⟩ := Nat.exists_eq_add_of_le (Nat.not_lt.mp hold)
      rw [← Nat.add_assoc, copyBurst_read h.wf _ (by omega), h.frame _ (by omega), Nat.add_assoc]
  frame j hj := by rw [copyBurst_read_outside _ _ (by omega), h.frame j (by omega)]

theorem copyBursts_copied {m : Memory} (w : m.wf = true) (hapart : src + 1024 ≤ dst ∨ dst + 1024 ≤ src) (n : Nat) (hn : n ≤ 32) :
    RowCopied src dst n m ((List.range n).foldl (copyBurst found src dst) m) := by
  induction n with
  | zero => exact ⟨w, nofun, fun _ _ => rfl⟩
  | succ n ih =>
    rw [List.range_succ, List.foldl_append]
    exact (ih (by omega)).burst (by omega) hapart

theorem copyBurst_remap (m : Memory) (b : Nat) : (copyBurst found src dst m b).remap = m.remap := by
  simp only [copyBurst, Memory.setPoison, Memory.writeN]

theorem copyBursts_remap (m : Memory) (bs : List Nat) : (bs.foldl (copyBurst found src dst) m).remap = m.remap :=
  List.foldlRecOn (motive := fun t : Memory => t.remap = m.remap) bs _ rfl fun t h b _ => (copyBurst_remap t b).trans h
end

section
variable {s : State} {e : Remap} {found : List Burst}

theorem countRow_counted : EccCounted s (countRow s e found) := each_counted (fun u _ => eccOn_counted u _ _ _) _ s

/-- Rows of other numbers lie apart. -/
theorem rows_apart (h : physRow s e.x e.bank e.row ≠ e.spare) : oldRow s e + 1024 ≤ spareRow e ∨ spareRow e + 1024 ≤ oldRow s e := by
  unfold oldRow spareRow placeKey
  omega

theorem copyRow_copied (w : s.mem.wf = true) (h : physRow s e.x e.bank e.row ≠ e.spare) :
    RowCopied (oldRow s e) (spareRow e) 32 s.mem (copyRow (countRow s e found) e found).mem := by
  have hcount : EccCounted s (countRow s e found) := countRow_counted
  have hold : oldRow (countRow s e found) e = oldRow s e := by rw [oldRow, oldRow, physRow_of_counted hcount]
  have hread (k : Nat) : (countRow s e found).mem.read k = s.mem.read k := by rw [Memory.read, Memory.read, hcount.cells]
  have wcount : (countRow s e found).mem.wf = true := by rw [Memory.wf, hcount.cells]; exact w
  have hcopied := copyBursts_copied (found := found) wcount (rows_apart h) 32 (Nat.le_refl _)
  rw [copyRow, modMem_mem, hold]
  exact hcopied.of_read hread

theorem read_modRemap (s : State) (f : Memory → List Remap) (k : Nat) :
    (s.modMem fun m => { m with remap := f m }).mem.read k = s.mem.read k := rfl

theorem remapCopyDone_found (h : (s.mem.remap.find? fun q => q.order == e.order && !q.copied && takesCommands s q.x) = some e) :
    exec (.remapCopyDone e.order found) s = .next ((copyRow (countRow s e found) e found).modMem fun m =>
      { m with remap := m.remap.map fun q => if q.order = e.order then { q with copied := true } else q }) := by
  show execRemapCopyDone _ _ _ = _
  rw [execRemapCopyDone, h]

theorem repairLogWrite_found (h : (s.mem.remap.find? fun q => q.order == e.order && q.active && !q.logged) = some e) :
    exec (.repairLogWrite e.order) s =
      .next { s with flash := { s.flash with repairLog := s.flash.repairLog ++ [{ e with logged := true }] }, mem := { s.mem with
        remap := s.mem.remap.map fun q => if q.order = e.order then { q with logged := true } else q } } := by
  show execRepairLogWrite _ _ = _
  rw [execRepairLogWrite, h]
  rfl
end

/-! ## Refresh slots (R296 to R299) -/

/-- An operation on each of a list that changes what is seen of one element at that element only. -/
theorem each_at {α γ : Type} {f : State → α → State} {g : State → γ} {F : γ → γ} {x : α} (hat : ∀ s, g (f s x) = F (g s))
    (hoff : ∀ s y, y ≠ x → g (f s y) = g s) {xs : List α} (hx : x ∈ xs) (hxs : xs.Nodup) (s : State) :
    g (s.each xs f) = F (g s) := by
  obtain ⟨as, bs, rfl⟩ := List.append_of_mem hx
  obtain ⟨-, hbs, hne⟩ := List.nodup_append.mp hxs
  have hleft (ys : List α) (h : ∀ y ∈ ys, y ≠ x) (s : State) : g (s.each ys f) = g s :=
    List.foldlRecOn (motive := fun u => g u = g s) ys f rfl fun u hu y hy => (hoff u y (h y hy)).trans hu
  have hafter : ∀ y ∈ bs, y ≠ x := fun y hy e => (List.nodup_cons.mp hbs).1 (e ▸ hy)
  have hbefore : ∀ y ∈ as, y ≠ x := fun y hy => hne y hy x List.mem_cons_self
  rw [State.each, List.foldl_append, List.foldl_cons]
  exact (hleft bs hafter _).trans ((hat _).trans (congrArg F (hleft as hbefore s)))

/-- What a refresh slot of a pseudo-channel sees of a stack, and its counts. -/
structure Refreshing where
  stack : Stack
  dieFailed : Bool
  slots : Nat
  commands : Nat

/-- What slot c of stack k sees in a state. -/
def refreshing (k c : Nat) (s : State) : Refreshing where
  stack := stackSt s k
  dieFailed := dieFailed s (k / 2)
  slots := mget 0 s.mem.refreshSlots (64 * k + c)
  commands := mget 0 s.mem.refreshes (64 * k + c)

/-- The MULT that waits is in force from a slot on. -/
def newMult (k : Stack) : Stack := match k.multNext with
  | some m => { k with mult := m, multNext := none }
  | none => k

/-- The stack takes refresh commands. -/
def Refreshing.takes (v : Refreshing) : Bool := v.stack.trained && !(v.stack.failed || v.dieFailed) && !v.stack.selfRefresh

/-- A slot of a stack that takes commands issues one where MULT / 512 of the slots calls for it. -/
def Refreshing.issued (n : Nat) (v : Refreshing) : Nat :=
  if v.takes = true ∧ n * (newMult v.stack).mult / 512 < (n + 1) * (newMult v.stack).mult / 512 then 1 else 0

/-- What slot n leaves. -/
def Refreshing.slot (n : Nat) (v : Refreshing) : Refreshing :=
  { v with stack := newMult v.stack, slots := v.slots + 1, commands := v.commands + v.issued n }

theorem newMult_mult (k : Stack) : (newMult k).mult = k.multNext.getD k.mult := by unfold newMult; split <;> simp_all

theorem newMult_keeps (k : Stack) : (newMult k).trained = k.trained ∧ (newMult k).failed = k.failed ∧
    (newMult k).selfRefresh = k.selfRefresh := by
  unfold newMult; split <;> exact ⟨rfl, rfl, rfl⟩

/-- A refresh slot after its MULT is in force. -/
def refreshCounted (s : State) (t c n : Nat) : State :=
  let key := 64 * t + c
  s.modMem fun x => { x with
    refreshSlots := mset 0 x.refreshSlots key (mget 0 x.refreshSlots key + 1)
    refreshes := if refreshed s t && decide (n * (stackSt s t).mult / 512 < (n + 1) * (stackSt s t).mult / 512) then
      mset 0 x.refreshes key (mget 0 x.refreshes key + 1) else x.refreshes }

theorem refreshOne_eq (s : State) (t c n : Nat) : refreshOne s t c n = refreshCounted (s.modStack t newMult) t c n := rfl

theorem refreshOne_at {k : Nat} (hk : k < 8) (c n : Nat) (s : State) :
    refreshing k c (refreshOne s k c n) = (refreshing k c s).slot n := by
  have hst : stackSt (s.modStack k newMult) k = newMult (stackSt s k) := stackSt_modStack hk
  obtain ⟨htrained, hfailed, hself⟩ := newMult_keeps (stackSt s k)
  have hissued : (refreshing k c s).issued n = if refreshed (s.modStack k newMult) k &&
      decide (n * (stackSt (s.modStack k newMult) k).mult / 512 < (n + 1) * (stackSt (s.modStack k newMult) k).mult / 512) then 1 else 0 := by
    simp only [refreshed, stackFailed, hst, htrained, hfailed, hself, Bool.and_eq_true (_ && _) (decide _), decide_eq_true_eq]
    rfl
  rw [refreshOne_eq, Refreshing.slot, hissued]
  unfold refreshCounted
  dsimp only
  rw [refreshing, Refreshing.mk.injEq]
  refine ⟨hst, rfl, mget_mset_of_ne (Nat.succ_ne_zero _) _ _, ?_⟩
  dsimp only [modMem_mem]
  split
  · exact mget_mset_of_ne (Nat.succ_ne_zero _) _ _
  · rfl

theorem refreshOne_off {k j : Nat} (h : j ≠ k) (c n : Nat) (s : State) : refreshing k c (refreshOne s j c n) = refreshing k c s := by
  have hkey : 64 * k + c ≠ 64 * j + c := by omega
  rw [refreshOne_eq, refreshing, refreshing, Refreshing.mk.injEq]
  refine ⟨stackSt_modStack_ne (Ne.symm h), rfl, mget_mset_other _ _ _ _ _ hkey, ?_⟩
  unfold refreshCounted
  dsimp only [modMem_mem]
  split
  · exact mget_mset_other _ _ _ _ _ hkey
  · rfl

theorem retrainSlot_mem (s : State) (c : Nat) : (retrainSlot s c).mem = s.mem := by
  unfold retrainSlot; split
  · dsimp only; split <;> rfl
  · rfl

/-- The eight stacks after a refresh slot. -/
def stacksRefreshed (s : State) (c n : Nat) : State :=
  (s.modMem fun m => { m with nextSlot := mset 0 m.nextSlot c (n + 1) }).each (List.range 8) fun s t => refreshOne s t c n

section
variable {s : State} {c : Fin 64} {n : Nat}

theorem refreshSlot_notDue (h : slotDue s c n = false) : exec (.refreshSlot c n) s = .next s := by
  show execRefreshSlot _ _ _ = _
  simp [execRefreshSlot, h]

theorem refreshSlot_due (h : slotDue s c n = true) : exec (.refreshSlot c n) s = .next (retrainSlot (stacksRefreshed s c n) c) := by
  show execRefreshSlot _ _ _ = _
  rw [execRefreshSlot, if_pos h]
  rfl

theorem stacksRefreshed_refreshing {k : Nat} (hk : k < 8) (c : Nat) :
    refreshing k c (stacksRefreshed s c n) = (refreshing k c s).slot n := by
  unfold stacksRefreshed
  exact each_at (f := fun s t => refreshOne s t c n) (refreshOne_at hk c n) (fun s _ h => refreshOne_off h c n s)
    (List.mem_range.mpr hk) List.nodup_range _

theorem stacksRefreshed_cells (c : Nat) : (stacksRefreshed s c n).mem.cells = s.mem.cells := by
  unfold stacksRefreshed
  exact each_proj (·.mem.cells) (fun s t => refreshOne s t c n) (fun _ _ => rfl) _ _

theorem stacksRefreshed_nextSlot (c : Nat) : mget 0 (stacksRefreshed s c n).mem.nextSlot c = n + 1 := by
  unfold stacksRefreshed
  rw [each_proj (·.mem.nextSlot) (fun s t => refreshOne s t c n) (fun _ _ => rfl)]
  exact mget_mset_of_ne (Nat.succ_ne_zero n) _ _

theorem refreshing_of_mem {s t : State} (hmem : t.mem = s.mem) (c k : Nat) :
    stackSt t k = (refreshing k c s).stack ∧ mget 0 t.mem.refreshSlots (64 * k + c) = (refreshing k c s).slots ∧
      mget 0 t.mem.refreshes (64 * k + c) = (refreshing k c s).commands := by
  rw [stackSt, hmem]
  exact ⟨rfl, rfl, rfl⟩
end

/-- Settles O42: the copy keeps away from the row it reads, and a refresh slot does to each stack what it does to one. -/
theorem remapsAndRefresh : Obligations.RemapsAndRefresh := by
  unfold Obligations.RemapsAndRefresh
  intro s
  refine ⟨fun e found w hfound _ hrow => ?_, fun k => rfl, fun e hfound => repairLogWrite_found hfound, fun c n =>
    ⟨refreshSlot_notDue, fun hdue => ?_⟩⟩
  · obtain ⟨more, -, hremap⟩ := (countRow_counted (s := s) (e := e) (found := found)).remap
    have hcopied := copyRow_copied (found := found) w hrow
    refine ⟨_, more, remapCopyDone_found hfound, fun i hi => ?_, fun j hj => ?_, ?_⟩
    · rw [read_modRemap, hcopied.read i hi]
    · rw [read_modRemap, hcopied.frame j hj]
    · rw [modMem_mem, copyRow, modMem_mem, copyBursts_remap, hremap]
  · have hmem := retrainSlot_mem (stacksRefreshed s c n) c
    refine ⟨_, refreshSlot_due hdue, ?_, ?_, fun k hk => ?_⟩
    · rw [hmem, stacksRefreshed_cells]
    · rw [hmem, stacksRefreshed_nextSlot]
    · obtain ⟨hstack, hslots, hcommands⟩ := refreshing_of_mem hmem c k
      rw [stacksRefreshed_refreshing hk] at hstack hslots hcommands
      rw [hstack]
      exact ⟨hslots, newMult_mult _, hcommands⟩

/-! ## What the end of a step leaves of memory

The operations that the end of a step puts together, one lemma each. -/

@[simp] theorem each_mem {α : Type} {f : State → α → State} (h : ∀ s x, (f s x).mem = s.mem) (xs : List α) (s : State) :
    (s.each xs f).mem = s.mem := each_proj State.mem f h xs s

@[simp] theorem ite_mem {c : Prop} [Decidable c] (x y : State) : (if c then x else y).mem = if c then x.mem else y.mem :=
  apply_ite State.mem c x y

section
variable (s : State)

@[simp] theorem tokenStatus_mem (tile slot dst keep lanes first rest) : (s.tokenStatus tile slot dst keep lanes first rest).mem = s.mem := by
  unfold State.tokenStatus; split <;> rfl

@[simp] theorem serveToken_mem (t) : (s.serveToken t).mem = s.mem := by
  unfold State.serveToken State.grantToken
  split
  · rfl
  · split
    · rfl
    · exact tokenStatus_mem ..

@[simp] theorem forfeitTokens_mem (tile slot) : (s.forfeitTokens tile slot).mem = s.mem := by simp [State.forfeitTokens]
@[simp] theorem dropGroup_mem (tile slot) : (s.dropGroup tile slot).mem = s.mem := rfl
@[simp] theorem dropJobs_mem (p) : (s.dropJobs p).mem = s.mem := rfl
@[simp] theorem dropWalks_mem (p) : (s.dropWalks p).mem = s.mem := rfl
@[simp] theorem abandonUp_mem (p) : (s.abandonUp p).mem = s.mem := rfl
@[simp] theorem issueUp_mem (r) : (s.issueUp r).mem = s.mem := by simp [State.issueUp, State.fresh]
@[simp] theorem startFill_mem (n p) : (s.startFill n p).mem = s.mem := by
  simp [State.startFill, State.modTrlSlot, State.upstream, State.sendUp]

@[simp] theorem tryPending_mem (n) : (s.tryPending n).mem = s.mem := by
  unfold State.tryPending
  dsimp only
  split
  · rfl
  · simp [State.modTrlSlot]

@[simp] theorem unpin_mem (step) : (s.unpin step).mem = s.mem := by simp [State.unpin]
@[simp] theorem chargePart_mem (p n) : (s.chargePart p n).mem = s.mem := rfl
@[simp] theorem modPart_mem (p f) : (s.modPart p f).mem = s.mem := rfl
@[simp] theorem partFrame_mem (p f) : (s.partFrame p f).mem = s.mem := rfl
@[simp] theorem writeRecord_mem (p irq r) : (s.writeRecord p irq r).mem = s.mem := by simp [State.writeRecord, State.modFn]
@[simp] theorem clearStep_mem (id) : (s.clearStep id).mem = s.mem := by simp [State.clearStep]

@[simp] theorem completeStep_mem (id) : (s.completeStep id).mem = s.mem := by
  unfold State.completeStep
  split
  · rfl
  · simp

@[simp] theorem endStep_mem (id c) : (s.endStep id c).mem = s.mem := completeStep_mem _ _
@[simp] theorem sendUpdate_mem (w) : (s.sendUpdate w).mem = s.mem := sendWord_mem _ _ _
end

/-! ## Samples of a stack (R299 to R304) -/

theorem stackSt_get (s : State) (n : Fin 8) : stackSt s n = s.mem.stack[n] := vat_get ..

theorem modStack_eq (s : State) (n : Fin 8) (f : Stack → Stack) :
    s.modStack n f = { s with mem := { s.mem with stack := s.mem.stack.set n (f s.mem.stack[n]) } } := by
  rw [State.modStack, State.modMem, vmodN_set]

theorem modStack_modStack (s : State) (n : Nat) (f g : Stack → Stack) :
    (s.modStack n f).modStack n g = s.modStack n fun k => g (f k) := by
  simp only [State.modStack, State.modMem, vmodN]
  split
  · simp
  · rfl

theorem tripStack_mem {s : State} {n : Nat} (h : stackTripped s n = false) :
    (tripStack s n).mem = (s.modStack n fun k => { k with tripped := true, selfRefresh := true }).mem := by
  rw [tripStack, if_neg (by simp [h])]
  simp

theorem capChange_mem (s : State) (f : State → State) : (s.capChange f).mem = (f s).mem := by
  simp [State.capChange, State.powerEvent]

theorem stackSt_of_mem {s t : State} (h : t.mem = s.mem) (n : Nat) : stackSt t n = stackSt s n := by rw [stackSt, stackSt, h]

section
variable {s : State} {n : Fin 8}

theorem tripStack_stack : stackSt (tripStack s n) n =
    { stackSt s n with tripped := true, selfRefresh := (stackSt s n).selfRefresh || !(stackSt s n).tripped } := by
  cases h : (stackSt s n).tripped with
  | true => rw [tripStack, if_pos (show stackTripped s n = true from h), Bool.not_true, Bool.or_false, ← h]
  | false => rw [stackSt_of_mem (tripStack_mem h), stackSt_modStack n.isLt, Bool.not_false, Bool.or_true]

theorem tripStack_cells : (tripStack s n).mem.cells = s.mem.cells := by
  cases h : stackTripped s n with
  | true => rw [tripStack, if_pos h]
  | false => rw [tripStack_mem h]; rfl

/-- A warning changes what R301 names and nothing else of its stack. -/
theorem warnStack_stack : ∃ g e, stackSt (warnStack s n) n = { stackSt s n with warn := true, warnGrade := g, lastDropEff := e } := by
  unfold warnStack
  split
  · next hwarn => exact ⟨_, _, by rw [← hwarn]⟩
  · exact ⟨_, _, stackSt_modStack n.isLt⟩

theorem warnStack_cells : (warnStack s n).mem.cells = s.mem.cells := by
  unfold warnStack
  split <;> rfl

/-- A stack after a valid sample, its reasons not yet looked at. -/
def stackSampled (s : State) (n : Fin 8) (w : Int) : State :=
  s.modStack n fun k => { k with sampledAt := some s.tmp.elapsed }.sampled w s.tmp.elapsed s.tmp.frames (refreshMult s w)

/-- A stack after a sample of 95 degrees or more (R301). -/
def stackWarned (s : State) (n : Fin 8) (w : Int) : State := (stackSampled s n w).capChange fun s => warnStack s n

theorem stackSampled_stack (w : Int) : stackSt (stackSampled s n w) n =
    { stackSt s n with sampledAt := some s.tmp.elapsed }.sampled w s.tmp.elapsed s.tmp.frames (refreshMult s w) :=
  stackSt_modStack n.isLt

theorem stackWarned_stack (w : Int) : ∃ g e, stackSt (stackWarned s n w) n =
    { stackSt (stackSampled s n w) n with warn := true, warnGrade := g, lastDropEff := e } := by
  rw [stackWarned, stackSt_of_mem (capChange_mem _ _)]
  exact warnStack_stack

theorem stackWarned_cells (w : Int) : (stackWarned s n w).mem.cells = s.mem.cells := by
  rw [stackWarned, capChange_mem, warnStack_cells]
  rfl

theorem stackTempSample_notDue (h : sampleDue s n = false) (temps : Option (List Int)) : exec (.stackTempSample n temps) s = .next s := by
  show execStackTempSample _ _ _ = _
  simp [execStackTempSample, h]

theorem stackTempSample_invalid (h : sampleDue s n = true) : exec (.stackTempSample n none) s =
    .next { s with mem := { s.mem with
      stack := s.mem.stack.set n { s.mem.stack[n] with tempValid := false, sampledAt := some s.tmp.elapsed } } } := by
  show execStackTempSample _ _ _ = _
  rw [execStackTempSample, if_pos h]
  exact congrArg Host.Outcome.next ((modStack_modStack ..).trans (modStack_eq ..))

theorem stackTempSample_valid (h : sampleDue s n = true) (v : Int) (vs : List Int) {w : Int} (hw : w = vs.foldl max v) :
    exec (.stackTempSample n (some (v :: vs))) s = .next (if 105 ≤ w then
        tripStack (if 95 ≤ w then stackWarned s n w else stackSampled s n w) n
      else if 95 ≤ w then stackWarned s n w else stackSampled s n w) := by
  show execStackTempSample _ _ _ = _
  rw [execStackTempSample, if_pos h, stackHottest, ← hw, stackSample]
  simp only [modStack_modStack]
  rfl

theorem stackTempSample_cool (h : sampleDue s n = true) (v : Int) (vs : List Int) {w : Int} (hw : w = vs.foldl max v) (hcool : w < 95) :
    exec (.stackTempSample n (some (v :: vs))) s = .next (stackSampled s n w) := by
  rw [stackTempSample_valid h v vs hw, if_neg (by omega), if_neg (by omega)]

theorem stackTempSample_warm (h : sampleDue s n = true) (v : Int) (vs : List Int) {w : Int} (hw : w = vs.foldl max v) (hwarm : 95 ≤ w) :
    exec (.stackTempSample n (some (v :: vs))) s = .next (if 105 ≤ w then tripStack (stackWarned s n w) n else stackWarned s n w) := by
  rw [stackTempSample_valid h v vs hw, if_pos hwarm]
end

/-! ## A stack without samples, and one that returns (R304 to R307) -/

/-- What the buffers of a tripped stack hold, and which stacks are tripped: a write of a line changes neither. -/
def guarded (m : Memory) : List WbWait × Vector (Bool × Bool) 8 := (m.wbuf, m.stack.map tripOf)

theorem writeBurst_guarded (m : Memory) (k b : Nat) (mask : BitVec 256) (data : List Byte) (poisoned bad : Bool) :
    guarded (writeBurst m k b mask data poisoned bad) = guarded m := by
  unfold writeBurst
  split <;> rfl

theorem writeLine_guarded (s : State) (line : Nat) (mask : BitVec 256) (data : List Byte) (poisoned : Bool) (bad : BitVec 8) :
    guarded (writeLine s line mask data poisoned bad).mem = guarded s.mem := by
  unfold writeLine
  split
  · rfl
  · exact List.foldlRecOn (motive := fun m => guarded m = guarded s.mem) _ _ rfl fun _ hm _ _ =>
      List.foldlRecOn (motive := fun m => guarded m = guarded s.mem) _ _ hm fun _ hm _ _ => (writeBurst_guarded ..).trans hm

theorem mergeLine_guarded (s : State) (line : Nat) (mask : BitVec 256) (data : List Byte) (poisoned : Bool) (found : List Burst) :
    guarded (mergeLine s line mask data poisoned found).mem = guarded s.mem := by
  have hcount := eccOn_counted s line (mergeReads mask) found
  unfold mergeLine
  dsimp only
  rw [writeLine_guarded]
  split
  · rfl
  · rw [guarded, guarded, hcount.wbuf, hcount.trips]

/-- The writes that drain leave the buffers of the other stacks, and which stacks are tripped. -/
theorem drainBuffers_guarded (s : State) (t : Nat) :
    guarded (drainBuffers s t).mem = (s.mem.wbuf.filter fun w => w.x / 64 != t, s.mem.stack.map tripOf) :=
  each_proj (fun s => guarded s.mem) _ (fun _ _ => mergeLine_guarded ..) _ _

theorem drainBuffers_empty {s : State} {t : Nat} (h : ∀ w ∈ s.mem.wbuf, w.x / 64 ≠ t) : drainBuffers s t = s := by
  have hmine : s.mem.wbuf.filter (fun w => w.x / 64 == t) = [] := by simpa using h
  have hothers : s.mem.wbuf.filter (fun w => w.x / 64 != t) = s.mem.wbuf := by simpa using h
  simp only [drainBuffers, hmine, State.modMem, hothers]
  rfl

section
variable {s : State} {n : Fin 8}

/-- A stack whose samples have been missed, before it trips. -/
def stackLost (s : State) (n : Fin 8) : State :=
  (s.modStack n fun k => { k with tempLost := true, below95Since := none }).event .stackTempLost

theorem stackLost_stack : stackSt (stackLost s n) n = { stackSt s n with tempLost := true, below95Since := none } := stackSt_modStack n.isLt

theorem stackTempLost_lost (htrained : (stackSt s n).trained = true) (hnew : (stackSt s n).tempLost = false)
    (hlate : (stackSt s n).lastValidBeat + 1024 ≤ s.tmp.elapsed) :
    exec (.stackTempLost n) s = .next (tripStack (stackLost s n) n) := by
  show execStackTempLost _ _ = _
  rw [execStackTempLost, if_neg (by simp [htrained, hnew, hlate])]
  rfl

/-- A stack that has cooled down, before its buffers drain. -/
def stackReturned (s : State) (n : Fin 8) : State := s.modStack n fun k => { k with tripped := false, selfRefresh := false }

theorem stackTripReturn_returns (htrip : (stackSt s n).tripped = true) (hsampled : (stackSt s n).tempLost = false)
    (hframe : s.tmp.beat % 1024 = 0) {b : Nat} (hbelow : (stackSt s n).below95Since = some b) (hlong : b + 1024 ≤ s.tmp.elapsed)
    (hrun : s.pwr.stage = .run) : exec (.stackTripReturn n) s = .next (drainBuffers (stackReturned s n) n) := by
  show execStackTripReturn _ _ = _
  simp [execStackTripReturn, stackReturned, htrip, hsampled, bInF, State.beat, hframe, hbelow, hlong, hrun]

theorem stackReturned_trips : tripOf (drainBuffers (stackReturned s n) n).mem.stack[n] = (false, false) := by
  have htrips := congrArg (fun g => g.2[n]) (drainBuffers_guarded (stackReturned s n) n)
  simp only [guarded, Fin.getElem_fin, Vector.getElem_map] at htrips
  rw [Fin.getElem_fin, htrips, ← Fin.getElem_fin, ← stackSt_get, stackReturned, stackSt_modStack n.isLt]
  rfl
end

/-- Settles O43: a sample sets its stack and then looks at its reasons, a trip sets two flags, and the writes that drain touch neither. -/
theorem stackTemperature : Obligations.StackTemperature := by
  unfold Obligations.StackTemperature
  intro n v w vs s hw
  refine ⟨stackTempSample_notDue, fun hdue => ⟨stackTempSample_invalid hdue, fun hcool => ?_, fun hwarm => ?_⟩, ?_, ?_⟩
  · refine ⟨_, stackTempSample_cool hdue v vs hw hcool, rfl, fun k hk => ?_, ?_⟩
    · rw [← stackSt_get, ← stackSt_get]
      exact stackSt_modStack_ne (fun e => hk (Fin.ext e))
    · rw [← stackSt_get, ← stackSt_get, stackSampled_stack]
      exact ⟨rfl, rfl, rfl, rfl, rfl, rfl, rfl, rfl⟩
  · obtain ⟨g, e, hstack⟩ := stackWarned_stack (s := s) (n := n) w
    rw [stackSampled_stack] at hstack
    have hexec := stackTempSample_warm hdue v vs hw hwarm
    by_cases hhot : 105 ≤ w
    · rw [if_pos hhot] at hexec
      refine ⟨_, hexec, ?_⟩
      rw [← stackSt_get, ← stackSt_get, tripStack_cells, stackWarned_cells, tripStack_stack, hstack]
      refine ⟨rfl, rfl, rfl, ?_, fun _ hrun => ?_⟩
      · simp [hhot]
      · simp [Stack.sampled, hrun]
    · rw [if_neg hhot] at hexec
      refine ⟨_, hexec, ?_⟩
      rw [← stackSt_get, ← stackSt_get, stackWarned_cells, hstack]
      exact ⟨rfl, rfl, rfl, by simp [Stack.sampled, hhot], fun h => absurd h hhot⟩
  · rw [← stackSt_get]
    intro htrained hnew hrun hlate
    refine ⟨_, stackTempLost_lost htrained hnew hlate, ?_⟩
    rw [← stackSt_get, tripStack_cells, tripStack_stack, stackLost_stack]
    exact ⟨rfl, rfl, by simp [hrun], rfl⟩
  · rw [← stackSt_get]
    intro b htrip hsampled hframe hbelow hlong hrun
    have htrips := stackReturned_trips (s := s) (n := n)
    refine ⟨_, stackTripReturn_returns htrip hsampled hframe hbelow hlong hrun, congrArg Prod.fst htrips, congrArg Prod.snd htrips,
      congrArg Prod.fst (drainBuffers_guarded _ _), fun hempty => ?_⟩
    rw [drainBuffers_empty (s := stackReturned s n) hempty, stackSt_get]
    exact modStack_eq ..

end Sys2Proof.Proofs

/-! SUPPORT. The statements on partitions, steps and shares (09): first the registers of partitions and of rings, doorbells, and the start of
a C0 slot; then the reads that an engine makes of lines that the slices hold, which answer at once, and the run of the job that makes them,
from which the statement on descriptors is settled. -/

namespace Sys2Proof.Proofs

open Sys2Proof Sys2Proof.Machine Sys2Proof.Laws

/-! ## Partitions and queues after a change -/

section
variable (s : State)
theorem partSt_get (p : Part) : partSt s p = s.stp.part[p] := vat_get ..
theorem queueSt_get (q : Fin 32) : queueSt s q = s.stp.queue[q] := vat_get ..

theorem modPart_eq (p : Part) (f : PartSt → PartSt) :
    s.modPart p f = { s with stp := { s.stp with part := s.stp.part.set p (f s.stp.part[p]) } } := by
  rw [State.modPart, State.modStp, vmodN_set]

theorem modQueue_eq (q : Fin 32) (f : Queue → Queue) :
    s.modQueue q f = { s with stp := { s.stp with queue := s.stp.queue.set q (f s.stp.queue[q]) } } := by
  rw [State.modQueue, State.modStp, vmodN_set]

theorem queueSt_modQueue_same (q : Fin 32) (f : Queue → Queue) : queueSt (s.modQueue q f) q = f (queueSt s q) :=
  (vat_vmodN_same ..).trans (congrArg f (queueSt_get s q).symm)

theorem queueSt_modQueue_ne {q r : Nat} (f : Queue → Queue) (h : r ≠ q) : queueSt (s.modQueue q f) r = queueSt s r :=
  vat_vmodN_ne _ _ _ _ _ h.symm

theorem cfgError_eq (p : Part) :
    s.cfgError p = { s with stp := { s.stp with part := s.stp.part.set p { s.stp.part[p] with cfgErr := true } } } := modPart_eq s p _

theorem dbError_eq (p : Part) :
    s.dbError p = { s with stp := { s.stp with part := s.stp.part.set p { s.stp.part[p] with dbErr := true } } } := modPart_eq s p _
end

/-! ## Registers of partitions (R357 to R359) -/

section
variable {s : State} (p : Part)

theorem writeShare_held {v : Nat} (h : v % 65536 ≠ 0) : writeShare s 0 p v =
    { s with stp := { s.stp with part := s.stp.part.set p { s.stp.part[p] with shareNext := some (BitVec.ofNat 16 v) } } } := by
  simp [writeShare, h, modPart_eq]

theorem writeShare_zero {v : Nat} (h : v % 65536 = 0) : writeShare s 0 p v = s.cfgError p := by
  simp [writeShare, h]

theorem writeC0Phase_held {v : Nat} (hlow : 1 ≤ v % 1024) (hhigh : v % 1024 ≤ c0Period s - 2) :
    writeC0Phase s 0 v = { s with stp := { s.stp with c0PhaseNext := some (v % 1024) } } := by
  simp [writeC0Phase, hlow, hhigh, State.modStp]

/-- The range check of STP_C0_SHEAVES: each sheaf of the mask is the partition's. -/
theorem sheavesOwned_iff (s : State) (p : Nat) (w : W64) : ((List.range 64).all fun k => !w.getLsbD k || ownsSheaf s p k) = true ↔
    ∀ k : Fin 64, w.getLsbD k = true → ownsSheaf s p k = true := by
  constructor
  · intro hall k hset
    have hk := List.all_eq_true.mp hall k (List.mem_range.mpr k.isLt)
    rwa [hset, Bool.not_true, Bool.false_or] at hk
  · refine fun h => List.all_eq_true.mpr fun k hk => ?_
    cases hset : w.getLsbD k with
    | false => rfl
    | true => exact h ⟨k, List.mem_range.mp hk⟩ hset

theorem writeC0Sheaves_held {w : W64} (h : ∀ k : Fin 64, w.getLsbD k = true → ownsSheaf s p k = true) : writeC0Sheaves s 0 p w =
    { s with stp := { s.stp with part := s.stp.part.set p { s.stp.part[p] with c0SheavesNext := some w } } } := by
  simp only [writeC0Sheaves, (sheavesOwned_iff s p w).mpr h, bne_self_eq_false, Bool.false_eq_true, ↓reduceIte, modPart_eq]

theorem writeC0Sheaves_notOwned {w : W64} (h : ∃ k : Fin 64, w.getLsbD k = true ∧ ownsSheaf s p k = false) :
    writeC0Sheaves s 0 p w = s.cfgError p := by
  have hbad : ¬((List.range 64).all fun k => !w.getLsbD k || ownsSheaf s p k) = true := by
    obtain ⟨k, hset, hother⟩ := h
    intro hall
    rw [(sheavesOwned_iff s p w).mp hall k hset] at hother
    cases hother
  simp only [writeC0Sheaves, hbad, bne_self_eq_false, Bool.false_eq_true, ↓reduceIte]
end

/-- Settles O25: the PF's access is open, and each register's write is decided by its range. -/
theorem shareAndC0Writes : Obligations.ShareAndC0Writes := by
  unfold Obligations.ShareAndC0Writes
  intro p v w s hup hdec
  have hshare : exec (.stpShareWrite 0 p v) s = .next (writeShare s 0 p v.toNat) :=
    congrArg Host.Outcome.next (hostAccess_open_primary hup hdec _)
  have hphase : exec (.stpC0PhaseWrite 0 v) s = .next (writeC0Phase s 0 v.toNat) :=
    congrArg Host.Outcome.next (hostAccess_open_primary hup hdec _)
  have hsheaves : exec (.stpC0SheavesWrite 0 p w) s = .next (writeC0Sheaves s 0 p w) :=
    congrArg Host.Outcome.next (hostAccess_open_primary hup hdec _)
  rw [hshare, hphase, hsheaves]
  refine ⟨fun h => ?_, fun h => ?_, fun hlow hhigh => ?_, fun h => ?_, fun h => ?_⟩
  · rw [writeShare_held p h]
  · rw [writeShare_zero p h, cfgError_eq]
  · rw [writeC0Phase_held hlow hhigh]
  · rw [writeC0Sheaves_held p h]
  · rw [writeC0Sheaves_notOwned p h, cfgError_eq]

/-! ## The registers of rings (R368) -/

section
variable {s : State} {fn : Nat} {q : Fin 32} {p : Part}

theorem writeQueueCfg_qBase (hp : p.val = q.val / 4) (hcls : q.val % 4 ≠ 0) (hmay : mayPart s fn p = true) (v : W64) :
    writeQueueCfg s fn (.qBase q v) =
      if (queueSt s q).head = (queueSt s q).tail ∧ noSteps s p = true then
        s.modQueue q fun k => { k with base := v &&& ~~~0xFFF, head := 0, tail := 0 }
      else s.cfgError p := by
  simp [writeQueueCfg, ← hp, hmay, hcls]

theorem writeQueueCfg_cqBase (hmay : mayPart s fn p = true) (hempty : (partSt s p).cqHead = (partSt s p).cqTail)
    (hidle : noSteps s p = true) (v : W64) : writeQueueCfg s fn (.cqBase p v) =
      s.modPart p fun k => { k with cqBase := v &&& ~~~0xFFF, cqHead := 0, cqTail := 0, cqPhase := true } := by
  simp [writeQueueCfg, hmay, hempty, hidle]
end

/-- Settles O27: a function that may use the partition writes the ring of an idle partition when it is empty, and is refused else. -/
theorem queueConfigWrites : Obligations.QueueConfigWrites := by
  unfold Obligations.QueueConfigWrites
  intro fn q p v s hup hdec hp hcls hmay
  have hexec (w : QueueCfg) : exec (.queueConfigWrite fn w) s = .next (writeQueueCfg s fn w) :=
    congrArg Host.Outcome.next (hostAccess_open hup hdec _)
  rw [hexec, hexec, writeQueueCfg_qBase hp hcls hmay, queueSt_get]
  refine ⟨fun hempty hidle => ?_, fun hbusy => ?_, fun hempty hidle => ?_⟩
  · rw [if_pos ⟨hempty, hidle⟩, modQueue_eq]
  · have hrefused : ¬(s.stp.queue[q].head = s.stp.queue[q].tail ∧ noSteps s p = true) := by
      rintro ⟨hempty, hidle⟩
      rcases hbusy with hused | hsteps
      · exact hused hempty
      · exact Bool.false_ne_true (hsteps.symm.trans hidle)
    rw [if_neg hrefused, cfgError_eq]
  · rw [writeQueueCfg_cqBase hmay hempty hidle, modPart_eq]

/-! ## Doorbells (R345, R347, R348) -/

/-- The posted writes of a function, by name. -/
theorem postedOf_eq_nil_iff (s : State) (fn : Nat) : postedOf s fn = [] ↔ ∀ e ∈ s.hif.posted, e.1 ≠ fn := by
  simp [postedOf]

section
variable {s : State} {p : Part} {cls tail : Nat}

theorem doorbellBad_iff (s : State) (p : Part) (cls tail : Nat) : doorbellBad s p cls tail = true ↔
    2 ^ (queueSt s (4 * p.val + cls)).size.toNat ≤ tail ∨ s.stp.part[p].state = .disabled ∨ s.stp.part[p].state = .resetting ∨
      s.rst.warm = some true := by
  simp only [doorbellBad, partSt_get, Bool.or_eq_true, decide_eq_true_eq, beq_iff_eq, or_assoc]
  exact Iff.rfl

theorem takeDoorbell_bad (fn : Nat) (h : doorbellBad s p cls tail = true) : takeDoorbell s fn p cls tail = s.dbError p := by
  rw [takeDoorbell, if_pos h]

theorem takeDoorbell_acts {fn : Nat} (h : ¬doorbellBad s p cls tail = true) (hposted : postedOf s fn = []) :
    takeDoorbell s fn p cls tail = s.modQueue (4 * p + cls) fun q => { q with tail := tail } := by
  rw [takeDoorbell, if_neg h, hposted]
  dsimp only
  rw [actDoorbell, if_neg h]

theorem takeDoorbell_waits {fn : Nat} (h : ¬doorbellBad s p cls tail = true) (hposted : postedOf s fn ≠ []) :
    takeDoorbell s fn p cls tail = s.modStp fun t =>
      { t with dbWait := t.dbWait ++ [{ fn := fn, part := p, cls := cls, tail := tail, waitFor := postedOf s fn }] } := by
  rw [takeDoorbell, if_neg h]
  cases hws : postedOf s fn with
  | nil => exact absurd hws hposted
  | cons => rfl

/-- A doorbell of a function that may use the partition, on a BAR4 page of the function that serves it or through BAR0. -/
theorem doorbellWrite_takes {fn : Fn} {bar4 : Bool} (hmay : mayPart s fn p = true) (hserves : bar4 = true → fn = 0 → servingFn s p = 0)
    (v : W32) : doorbellWrite s fn bar4 p v = takeDoorbell s fn p (v.toNat / 2 ^ 30) (v.toNat % 4096) := by
  have hpage : ¬(bar4 && fn.val == 0 && servingFn s p != 0) = true := by
    rw [Bool.and_eq_true, Bool.and_eq_true, beq_iff_eq, bne_iff_ne]
    rintro ⟨⟨hbar, hfn⟩, hother⟩
    exact hother (hserves hbar (Fin.ext hfn))
  rw [doorbellWrite, if_neg hpage, if_pos hmay]
end

/-- Settles O18: the access is open and the page allowed, and the doorbell is refused, acts or waits. -/
theorem doorbellSetsTail : Obligations.DoorbellSetsTail := by
  unfold Obligations.DoorbellSetsTail
  intro fn bar4 p value s hup hdec hmay hserves
  have hexec : exec (.stpDoorbell fn bar4 p value) s = .next (takeDoorbell s fn p (value.toNat / 2 ^ 30) (value.toNat % 4096)) :=
    congrArg Host.Outcome.next ((hostAccess_open hup hdec _).trans (doorbellWrite_takes hmay hserves value))
  dsimp only
  rw [hexec, ← doorbellBad_iff, ← postedOf_eq_nil_iff]
  refine ⟨fun hbad => ?_, fun hgood hposted => ?_, fun hgood hposted => ?_⟩
  · rw [takeDoorbell_bad _ hbad, dbError_eq]
  · have hq : 4 * p.val + value.toNat / 2 ^ 30 < 32 := by have := value.isLt; omega
    refine ⟨_, congrArg _ (takeDoorbell_acts hgood hposted), queueSt_modQueue_same s ⟨_, hq⟩ _, fun r hr => ?_, rfl, rfl⟩
    exact queueSt_modQueue_ne s _ hr
  · have hsome : postedOf s fn ≠ [] := by
      obtain ⟨e, he, hfn⟩ := hposted
      exact fun hnil => (postedOf_eq_nil_iff s fn).mp hnil e he hfn
    exact ⟨_, congrArg _ (takeDoorbell_waits hgood hsome), rfl, List.length_append⟩

/-! ## The start of a C0 slot (R358, R360) -/

section
variable {s : State} {x : Step} {r : PlanRec} {g : PlanGrade}

/-- Neither a tripped stack nor the rules of collective steps (R455) end the step before a grade is chosen. -/
theorem startCode_none (htrip : partTripped s x.part = false) (hcoll : collectiveStep s x = true → collAllowed s x.part = true) :
    startCode s x = none := by
  have hallowed : (collectiveStep s x && !collAllowed s x.part) = false := by
    cases h : collectiveStep s x with
    | false => rfl
    | true => rw [hcoll h]; rfl
  rw [startCode, htrip, if_neg Bool.false_ne_true, hallowed, if_neg Bool.false_ne_true]

/-- What lets the head C0 step of a partition start at this beat (R360 to R362). -/
structure C0Ready (s : State) (x : Step) (r : PlanRec) (g : PlanGrade) : Prop where
  due : x.notBefore ≤ s.beat
  collective : collectiveStep s x = true → collAllowed s x.part = true ∧ x.notBefore = s.beat
  untripped : partTripped s x.part = false
  viewed : x.ingest = true → x.snap.isSome = true ∧ viewPending s x.id = false
  accepted : x.snapCode = none
  plan : stepPlan s x = some r
  chosen : chooseGrade s r s.beat = some g
  tilesFree : g.tiles.any (tileHeld s) = false
  ctxsFree : ctxsFree s x = true
  inFlight : c0InFlight s < 32

theorem c0Head_starts (h : C0Ready s x r g) : c0Head s x = (startStep s x r g, true) := by
  have hontime : (collectiveStep s x && x.notBefore != s.beat) = false := by
    rw [Bool.and_eq_false_imp, bne_eq_false_iff_eq]
    exact fun hc => (h.collective hc).2
  have hviewed : (x.ingest && (x.snap.isNone || viewPending s x.id)) = false := by
    rw [Bool.and_eq_false_imp]
    intro hi
    obtain ⟨hsnap, hview⟩ := h.viewed hi
    simp [hsnap, hview]
  have hfree : (x.ingest && (x.snap.isNone || viewPending s x.id) || g.tiles.any (tileHeld s) || !ctxsFree s x ||
      decide (32 ≤ c0InFlight s)) = false := by
    simp [hviewed, h.tilesFree, h.ctxsFree, h.inFlight]
  unfold c0Head
  dsimp only
  rw [if_neg (Nat.not_lt.mpr h.due), startCode_none h.untripped fun hc => (h.collective hc).1]
  dsimp only
  rw [hontime, if_neg Bool.false_ne_true, h.plan]
  dsimp only
  rw [h.chosen]
  dsimp only
  rw [hfree, if_neg Bool.false_ne_true, h.accepted]

/-- The steps once one has started: each step of its name is in flight (R363). -/
theorem startStep_steps : (startStep s x r g).stp.steps = s.stp.steps.map fun y => if y.id = x.id then admitted s r g y else y :=
  congrArg Steps.steps (openCtxs_stp ..)

theorem startStep_c0Due : (startStep s x r g).stp.c0Due = s.stp.c0Due := (congrArg Steps.c0Due (openCtxs_stp ..)).trans rfl

/-- The only C0 step that waited in the partition waits no more once it has started. -/
theorem c0Waiting_startStep {p : Nat} (h : c0Waiting s p = [x]) : c0Waiting (startStep s x r g) p = [] := by
  rw [c0Waiting, startStep_steps, List.filter_eq_nil_iff, List.forall_mem_map]
  intro y hy
  by_cases hid : y.id = x.id
  · simp [hid, admitted]
  · rw [if_neg hid]
    intro hwaits
    have hmem : y ∈ c0Waiting s p := List.mem_filter.mpr ⟨hy, hwaits⟩
    rw [h, List.mem_singleton] at hmem
    exact hid (congrArg Step.id hmem)

/-- A slot start for a partition in which one C0 step waits that may start: it starts, and no other is left to refuse or to snapshot anew. -/
theorem c0Slot_starts {p : Nat} (hwait : c0Waiting s p = [x]) (h : C0Ready s x r g) :
    c0Resnap (c0Late (c0Admit s (c0Waiting s p)) p) p = startStep s x r g := by
  have hadmit : c0Admit s (c0Waiting s p) = startStep s x r g := by
    rw [hwait, c0Admit, c0Head_starts h]
    rfl
  have hlate : c0Late (startStep s x r g) p = startStep s x r g := by
    rw [c0Late, c0Waiting_startStep hwait]
    rfl
  rw [hadmit, hlate, c0Resnap, c0Waiting_startStep hwait]
  rfl
end

/-- A C0 slot start that has been taken: no later beat makes up for it (R665). -/
def slotTaken (s : State) : State := s.modStp fun t => { t with c0Due := false }

/-- Settles O21: the one active partition's one waiting C0 step is ready, and starts. -/
theorem c0StepAdmittedAtSlotStart : Obligations.C0StepAdmittedAtSlotStart := by
  unfold Obligations.C0StepAdmittedAtSlotStart
  intro p x r g s hslot hfg hadm hactive hwait hx hdue hcoll htrip hview hcode hplan hgrade htiles hctxs hflight
  have hopen : (((isC0Slot s s.beat && !s.tmp.again) || s.stp.c0Due) && isFg s.beat && admitting s) = true := by
    have hstart : (isC0Slot s s.beat && !s.tmp.again || s.stp.c0Due) = true := by
      rw [Bool.or_eq_true, Bool.and_eq_true, Bool.not_eq_true']
      exact hslot
    rw [hstart, hadm, Bool.true_and, Bool.and_true]
    exact hfg
  have hready : C0Ready (slotTaken s) x r g := ⟨hdue, hcoll, htrip, hview, hcode, hplan, hgrade, htiles, hctxs, hflight⟩
  have hexec : exec .c0SlotStart s = .next (startStep (slotTaken s) x r g) := by
    change execC0SlotStart s = _
    rw [execC0SlotStart, if_pos hopen, hactive, ← c0Slot_starts (s := slotTaken s) hwait hready]
    rfl
  obtain ⟨hstep, hmem, -⟩ := startStep_spec (s := slotTaken s) r g hx
  exact ⟨_, hexec, startStep_c0Due, hstep, hmem⟩

/-! ## A read of held lines by an engine (R188, R189, R192)

Each line answers at once with its bytes. What the reads change is in the slices only, and no other line of them. -/

/-- A line that its home slice holds whole and good, so that a read of it hits (R189, R192, R227). -/
structure Held (s : State) (line : Nat) (l : GLine) : Prop where
  inService : sliceOut s (homeSlice (256 * line)) = false
  ways : waysOf s (addrPart s (256 * line)) ≠ 0
  alive : wasKilled s line (addrPart s (256 * line)) = false
  good : linePoisoned s line = false
  found : findLine s line (addrPart s (256 * line)) = some l
  valid : l.valid = BitVec.allOnes 256
  full : l.data.length = 256

theorem homeLine_lineAddr (s : State) (line : Nat) : homeLine s (256 * line) = findLine s line (addrPart s (256 * line)) := by
  rw [homeLine, Nat.mul_div_cancel_left line (by decide)]

theorem lineHeld_iff (s : State) (line : Nat) : lineHeld s line = true ↔ ∃ l, Held s line l := by
  simp only [lineHeld, homeLine_lineAddr, Bool.and_eq_true, Bool.not_eq_true', bne_iff_ne, Option.any_eq_true, beq_iff_eq]
  constructor
  · rintro ⟨⟨⟨⟨hservice, hways⟩, halive⟩, hgood⟩, l, hfound, hvalid, hfull⟩
    exact ⟨l, hservice, hways, halive, hgood, hfound, hvalid, hfull⟩
  · rintro ⟨l, hservice, hways, halive, hgood, hfound, hvalid, hfull⟩
    exact ⟨⟨⟨⟨hservice, hways⟩, halive⟩, hgood⟩, l, hfound, hvalid, hfull⟩

/-- The bytes of a line as its home slice holds them. -/
def lineData (s : State) (line : Nat) : List Byte := (homeLine s (256 * line)).elim [] (·.data)

theorem lineData_held {s : State} {line : Nat} {l : GLine} (h : Held s line l) : lineData s line = l.data := by
  rw [lineData, homeLine_lineAddr, h.found]
  rfl

/-- What an engine's reads of some lines leave: all but the slices and the next name; the engines' jobs; and every other line of the
slices. -/
structure ReadLines (s t : State) (lines : List Nat) : Prop where
  frame : t = { s with nextId := t.nextId, grn := t.grn }
  jobs : t.grn.jobs = s.grn.jobs
  alive : ∀ m p, m ∉ lines → wasKilled s m p = false → wasKilled t m p = false
  found : ∀ m p, m ∉ lines → findLine t m p = findLine s m p

namespace ReadLines
variable {s t u : State} {lines more : List Nat}

theorem trans (h : ReadLines s t lines) (h' : ReadLines t u more) : ReadLines s u (lines ++ more) where
  frame := by rw [h'.frame, h.frame]
  jobs := h'.jobs.trans h.jobs
  alive m p hm hs := by
    rw [List.mem_append, not_or] at hm
    exact h'.alive m p hm.2 (h.alive m p hm.1 hs)
  found m p hm := by
    rw [List.mem_append, not_or] at hm
    exact (h'.found m p hm.2).trans (h.found m p hm.1)

theorem mono (h : ReadLines s t lines) (hsub : ∀ m ∈ lines, m ∈ more) : ReadLines s t more where
  frame := h.frame
  jobs := h.jobs
  alive m p hm := h.alive m p fun hin => hm (hsub m hin)
  found m p hm := h.found m p fun hin => hm (hsub m hin)

/-- The partition of an address goes by the structure in force, which no read changes. -/
theorem addrPart_eq (h : ReadLines s t lines) (a : Nat) : addrPart t a = addrPart s a := by rw [h.frame]; rfl

theorem held (h : ReadLines s t lines) {m : Nat} {l : GLine} (hm : m ∉ lines) (hs : Held s m l) : Held t m l where
  inService := by rw [h.frame]; exact hs.inService
  ways := by rw [h.addrPart_eq, h.frame]; exact hs.ways
  alive := by rw [h.addrPart_eq]; exact h.alive m _ hm hs.alive
  good := by rw [h.frame]; exact hs.good
  found := by rw [h.addrPart_eq, h.found m _ hm]; exact hs.found
  valid := hs.valid
  full := hs.full

theorem lineHeld (h : ReadLines s t lines) {m : Nat} (hm : m ∉ lines) (hs : lineHeld s m = true) : lineHeld t m = true := by
  rw [lineHeld_iff] at hs ⊢
  exact hs.imp fun _ => h.held hm

theorem lineData_eq (h : ReadLines s t lines) {m : Nat} (hm : m ∉ lines) : lineData t m = lineData s m := by
  rw [lineData, lineData, homeLine_lineAddr, homeLine_lineAddr, h.addrPart_eq, h.found m _ hm]
end ReadLines

/-! ### The parts of a hit -/

section
variable {s : State}

theorem wasKilled_modSlice {f : Slice → Slice} {m p : Nat} (n : Nat) (hf : ∀ x, (m, p) ∈ (f x).killed → (m, p) ∈ x.killed)
    (h : wasKilled s m p = false) : wasKilled (s.modSlice n f) m p = false := by
  have hslice : sliceSt (s.modSlice n f) (homeSlice (lineAddr m)) = if n = homeSlice (lineAddr m) ∧ n < 4 then
      f (sliceSt s (homeSlice (lineAddr m))) else sliceSt s (homeSlice (lineAddr m)) := vat_vmodN ..
  rw [wasKilled, List.contains_eq_mem, decide_eq_false_iff_not] at h ⊢
  rw [hslice]
  split
  · exact fun hin => h (hf _ hin)
  · exact h

theorem findLine_modLine_ne {line part m p : Nat} {f : GLine → GLine} (hf : ∀ l, (f l).line = l.line ∧ (f l).part = l.part)
    (h : m ≠ line) : findLine (s.modLine line part f) m p = findLine s m p := by
  have hmap := find?_map_invariant (fun l : GLine => l.line == m && l.part == p)
    (fun l => if l.line = line ∧ l.part = part then f l else l) (fun x => by split <;> simp [hf]) s.grn.lines
  refine hmap.trans ?_
  cases hfound : s.grn.lines.find? fun l => l.line == m && l.part == p with
  | none => exact hfound.symm
  | some l =>
    have hline : l.line = m := (findLine_key hfound).1
    rw [Option.map_some, if_neg fun hkey => h (hline.symm.trans hkey.1)]
    exact hfound.symm

theorem findLine_dropLine_ne {line part m p : Nat} (h : m ≠ line) : findLine (s.dropLine line part) m p = findLine s m p := by
  change (s.grn.lines.filter _).find? _ = s.grn.lines.find? _
  rw [List.find?_filter]
  congr 1
  funext l
  rw [Bool.eq_iff_iff, decide_eq_true_iff]
  refine ⟨And.right, fun hkey => ⟨?_, hkey⟩⟩
  have hline : l.line = m := beq_iff_eq.mp (Bool.and_eq_true_iff.mp hkey).1
  rw [hline, beq_false_of_ne h]
  rfl

theorem trackHit_readLines (a part : Nat) : ReadLines s (trackHit s a part) [] := by
  unfold trackHit
  split
  · exact ⟨rfl, rfl, fun _ _ _ => wasKilled_modSlice _ fun _ => id, fun _ _ _ => rfl⟩
  · exact ⟨rfl, rfl, fun _ _ _ => id, fun _ _ _ => rfl⟩

theorem touch_readLines (line part : Nat) : ReadLines s (s.touch line part) [line] :=
  ⟨rfl, rfl, fun _ _ _ => id, fun _ _ hm => findLine_modLine_ne (fun _ => ⟨rfl, rfl⟩) (List.ne_of_not_mem_cons hm)⟩

theorem engineAnswer_readLines (job n line : Nat) (data : List Byte) (code : Option Code) :
    ReadLines s (engineAnswer s job n line data code) [] := ⟨rfl, rfl, fun _ _ _ => id, fun _ _ _ => rfl⟩

theorem killLine_readLines (line part : Nat) : ReadLines s (killLine s line part) [line] := by
  refine ⟨rfl, rfl, fun m p hm => ?_, fun m p hm => findLine_dropLine_ne (List.ne_of_not_mem_cons hm)⟩
  refine wasKilled_modSlice (s := s.dropLine line part) _ fun x hin => ?_
  rcases List.mem_cons.mp (List.mem_of_mem_take hin) with hnew | hold
  · exact absurd (congrArg Prod.fst hnew) (List.ne_of_not_mem_cons hm)
  · exact hold

theorem deadHint_readLines (line part : Nat) : ReadLines s (deadHint s line part) [line] := by
  unfold deadHint
  split
  · exact ⟨rfl, rfl, fun _ _ _ => id, fun _ _ _ => rfl⟩
  · exact killLine_readLines line part

@[simp] theorem trackHit_recs (a part : Nat) : (trackHit s a part).grn.recs = s.grn.recs := by unfold trackHit; split <;> rfl
@[simp] theorem deadHint_recs (line part : Nat) : (deadHint s line part).grn.recs = s.grn.recs := by unfold deadHint; split <;> rfl
end

/-! ### A line, and a range -/

section
variable {s : State} {line : Nat} {l : GLine} {r : MemReq} {job n : Nat}

/-- The accesses made, once a line of one of them has its answer. -/
def answeredRecs (recs : List EngRec) (job n line : Nat) (data : List Byte) : List EngRec :=
  recs.map fun e => if e.job = job ∧ e.n = n then e.answer line data none else e

theorem hitAnswered_engine (hsrc : r.src = .engine job n) (htag : r.deadline = none) : hitAnswered s l r =
    engineAnswer ((trackHit s (lineAddr l.line) l.part).touch l.line l.part) job n r.line l.data none := by
  unfold hitAnswered answerRead
  rw [hsrc]
  simp [lateTag, htag]

/-- An engine's untagged read of a held line answers at once. -/
theorem serveRead_held (h : Held s line l) (hline : r.line = line) (hpart : r.part = addrPart s (lineAddr line))
    (hsrc : r.src = .engine job n) (htag : r.deadline = none) : ReadLines s (serveRead s r .clean) [line] ∧
      (serveRead s r .clean).grn.recs = answeredRecs s.grn.recs job n line l.data := by
  subst hline
  have hhome : noHome s r = false := by
    rw [noHome, hpart, Bool.or_eq_false_iff, beq_eq_false_iff_ne]
    exact ⟨h.inService, h.ways⟩
  have hfound : findLine s r.line r.part = some l := hpart ▸ h.found
  have hcover : r.mask &&& l.valid = r.mask := by rw [h.valid, BitVec.and_allOnes]
  rw [serveRead_eq _ htag hhome (hpart ▸ h.alive), serveLookup_hit _ hfound h.good hcover, readHit_clean, hitAnswered_engine hsrc htag]
  obtain ⟨hl, -⟩ := findLine_key hfound
  rw [hl]
  have hanswered := ((trackHit_readLines (s := s) (lineAddr r.line) l.part).trans (touch_readLines r.line l.part)).trans
    (engineAnswer_readLines job n r.line l.data none)
  have hrecs : (engineAnswer ((trackHit s (lineAddr r.line) l.part).touch r.line l.part) job n r.line l.data none).grn.recs =
      answeredRecs s.grn.recs job n r.line l.data := congrArg (answeredRecs · job n r.line l.data) (trackHit_recs ..)
  split
  · exact ⟨(hanswered.trans (deadHint_readLines r.line l.part)).mono (by simp), (deadHint_recs ..).trans hrecs⟩
  · exact ⟨hanswered.mono (by simp), hrecs⟩

theorem readLines_fresh (s : State) : ReadLines s s.fresh [] := ⟨rfl, rfl, fun _ _ _ => id, fun _ _ _ => rfl⟩
end

section
variable {acc : EngAcc} {job : Nat}

/-- What an access to some lines gives when each is held. -/
def heldAnswers (s : State) (lines : List Nat) : List (Nat × List Byte × Option Code) := lines.map fun l => (l, lineData s l, none)

theorem answeredRecs_last {old : List EngRec} {n line : Nat} {more : List Nat} {got : List (Nat × List Byte × Option Code)}
    (hold : ∀ e ∈ old, ¬(e.job = job ∧ e.n = n)) (data : List Byte) :
    answeredRecs (old ++ [⟨job, n, line :: more, got⟩]) job n line data = old ++ [⟨job, n, more, got ++ [(line, data, none)]⟩] := by
  have hkeep : answeredRecs old job n line data = old :=
    (List.map_congr_left (g := id) fun e he => if_neg (hold e he)).trans old.map_id
  rw [answeredRecs, List.map_append, ← answeredRecs, hkeep]
  simp [EngRec.answer, dropFirst]

/-- Reads of held lines, each once, answer their access in full. -/
theorem serveReads_held (htag : acc.who.deadline = none) {old : List EngRec}
    (hold : ∀ e ∈ old, ¬(e.job = job ∧ e.n = acc.n)) {lines : List Nat} (hnodup : lines.Nodup) {s : State}
    (hheld : ∀ l ∈ lines, lineHeld s l = true) {got : List (Nat × List Byte × Option Code)}
    (hrecs : s.grn.recs = old ++ [⟨job, acc.n, lines, got⟩]) :
    ReadLines s (s.each lines fun s l => serveRead s.fresh (acc.request s job l) .clean) lines ∧
      (s.each lines fun s l => serveRead s.fresh (acc.request s job l) .clean).grn.recs =
        old ++ [⟨job, acc.n, [], got ++ heldAnswers s lines⟩] := by
  induction lines generalizing s got with
  | nil => exact ⟨⟨rfl, rfl, fun _ _ _ => id, fun _ _ _ => rfl⟩, by simpa [State.each, heldAnswers] using hrecs⟩
  | cons line more ih =>
    rw [List.nodup_cons] at hnodup
    obtain ⟨hnew, hnodup⟩ := hnodup
    obtain ⟨l, hl⟩ := (lineHeld_iff s line).mp (hheld line List.mem_cons_self)
    have hfresh := readLines_fresh s
    obtain ⟨hone, hrec⟩ := serveRead_held (r := acc.request s job line) (hfresh.held List.not_mem_nil hl) rfl rfl rfl htag
    have hfirst := hfresh.trans hone
    have hmore {m : Nat} (hm : m ∈ more) : m ∉ [] ++ [line] := by
      simpa using fun (h : m = line) => hnew (h ▸ hm)
    rw [show s.fresh.grn.recs = _ from hrecs, answeredRecs_last hold] at hrec
    obtain ⟨hrest, hall⟩ := ih hnodup (fun m hm => hfirst.lineHeld (hmore hm) (hheld m (List.mem_cons_of_mem _ hm))) hrec
    refine ⟨(hfirst.trans hrest).mono (by simp), hall.trans ?_⟩
    have hdata : heldAnswers (serveRead s.fresh (acc.request s job line) .clean) more = heldAnswers s more :=
      List.map_congr_left fun m hm => by rw [hfirst.lineData_eq (hmore hm)]
    rw [hdata, ← lineData_held hl, List.append_assoc]
    rfl
end

/-! ### What an access to held lines gives -/

theorem mem_linesOf {a n l : Nat} : l ∈ linesOf a n ↔ n ≠ 0 ∧ a / 256 ≤ l ∧ l ≤ (a + n - 1) / 256 := by
  unfold linesOf
  split
  · simp [*]
  · simp only [List.mem_map, List.mem_range]
    constructor
    · rintro ⟨i, hi, rfl⟩
      omega
    · rintro ⟨-, hlow, hhigh⟩
      exact ⟨l - a / 256, by omega, by omega⟩

theorem nodup_linesOf (a n : Nat) : (linesOf a n).Nodup := by
  unfold linesOf
  split
  · exact List.nodup_nil
  · exact List.Pairwise.map _ (fun _ _ hne h => hne (Nat.add_left_cancel h)) List.nodup_range

theorem find?_heldAnswers {s : State} {lines : List Nat} {line : Nat} (h : line ∈ lines) :
    (heldAnswers s lines).find? (fun g => g.1 == line) = some (line, lineData s line, none) := by
  have hfound : lines.find? (fun l => l == line) = some line := by
    have hsome : (lines.find? fun l => l == line).isSome = true := List.find?_isSome.mpr ⟨line, h, beq_self_eq_true line⟩
    obtain ⟨k, hk⟩ := Option.isSome_iff_exists.mp hsome
    rw [hk, beq_iff_eq.mp (List.find?_some hk :)]
  rw [heldAnswers, List.find?_map]
  exact congrArg (Option.map _) hfound

theorem heldBytes_eq (s : State) (a n : Nat) :
    heldBytes s a n = (List.range n).map fun i => ((lineData s ((a + i) / 256))[(a + i) % 256]?).getD 0 := by
  refine List.map_congr_left fun i _ => ?_
  rw [lineData, Nat.mul_comm 256]
  cases homeLine s ((a + i) / 256 * 256) <;> rfl

/-- A record all of whose lines were held gives the bytes of the range, whole and good. -/
theorem gives_held {e : EngRec} {s : State} {a n : Nat} (h : e.got = heldAnswers s (linesOf a n)) :
    e.gives a n = { bytes := heldBytes s a n, code := none, good := n } := by
  have hgood : ((linesOf a n).find? fun l => (e.got.find? fun g => g.1 == l).any fun g => g.2.2.isSome) = none := by
    rw [List.find?_eq_none]
    intro l hl
    rw [h, find?_heldAnswers hl]
    exact Bool.false_ne_true
  have hbytes : (List.range n).map (fun i => ((e.got.find? fun g => g.1 == (a + i) / 256).bind fun g => g.2.1[(a + i) % 256]?).getD 0) =
      heldBytes s a n := by
    rw [heldBytes_eq]
    refine List.map_congr_left fun i hi => ?_
    have hline : (a + i) / 256 ∈ linesOf a n := by
      have := List.mem_range.mp hi
      exact mem_linesOf.mpr ⟨by omega, by omega, by omega⟩
    rw [h, find?_heldAnswers hline]
    rfl
  simp only [EngRec.gives, hgood, hbytes, Option.bind_none, Option.elim_none]

/-! ### The access of a run, and the job that makes it -/

section
variable {s : State} {who : Who} {a n : Nat}

/-- The record of an access that answers the one the run makes next. -/
def answerTo (s : State) (r : EngRun) : Option EngRec := s.grn.recs.find? fun e => e.job == r.job && e.n == r.n && e.left.isEmpty

/-- The first read of a run that has no answer yet is the one that the run asks for. -/
theorem rd_asks {r : EngRun} (hrun : s.grn.run = some r) (hnone : answerTo s r = none) (hfirst : r.miss = none) :
    s.rd who a n = (s.modGrn fun g => { g with run := some { r with
      n := r.n + 1, miss := some { n := r.n, who := who, addr := a, len := n, bytes := none } } }, EngGot.none n) := by
  rw [answerTo] at hnone
  simp only [State.rd, State.access, hrun, hnone, hfirst]
  rfl

theorem rd_answered {r : EngRun} {e : EngRec} (hrun : s.grn.run = some r) (he : answerTo s r = some e) :
    s.rd who a n = (s.modGrn fun g => { g with run := some { r with n := r.n + 1 } }, e.gives a n) := by
  rw [answerTo] at he
  simp only [State.rd, State.access, hrun, he]

/-- An access of a job is noted, with the lines that are to answer it. -/
def accessNoted (s : State) (job : Nat) (acc : EngAcc) : State :=
  s.modGrn fun g => { g with recs := g.recs ++ [⟨job, acc.n, linesOf acc.addr acc.len, []⟩] }

/-- A read of a held range, made by an engine for the first time, is answered at once. -/
theorem makeAccess_held {acc : EngAcc} {job : Nat} (hread : acc.bytes = none) (htag : acc.who.deadline = none) {old : List EngRec}
    (hrecs : s.grn.recs = old) (hold : ∀ e ∈ old, ¬(e.job = job ∧ e.n = acc.n)) (hheld : rangeHeld s acc.addr acc.len = true) :
    ReadLines s (makeAccess s job acc) (linesOf acc.addr acc.len) ∧
      (makeAccess s job acc).grn.recs = old ++ [⟨job, acc.n, [], heldAnswers s (linesOf acc.addr acc.len)⟩] := by
  subst hrecs
  have hnew : ¬(s.grn.recs.any fun e => e.job == job && e.n == acc.n) = true := by
    simpa using hold
  rw [makeAccess, if_neg hnew]
  simp only [hread, Option.isSome_none, Bool.false_eq_true, ↓reduceIte]
  have hmade : ReadLines s (accessNoted s job acc) [] := ⟨rfl, rfl, fun _ _ _ => id, fun _ _ _ => rfl⟩
  obtain ⟨hreads, hall⟩ := serveReads_held (s := accessNoted s job acc) htag hold (nodup_linesOf _ _) (List.all_eq_true.mp hheld) rfl
  exact ⟨hmade.trans hreads, hall⟩
end

/-- The state in which a job is tried from its beginning. -/
def tried (s : State) (job : Nat) : State := s.modGrn fun g => { g with run := some { job := job, n := 0, miss := none } }

section
variable {s : State} {job k : Nat} {f : State → State}

theorem tryJob_ends (h : (f (tried s job)).grn.run.bind (·.miss) = none) : tryJob job f (k + 1) s = (f (tried s job)).jobOver job := by
  rw [tryJob]
  dsimp only
  rw [← tried, h]

theorem tryJob_goesOn {acc : EngAcc} (h : (f (tried s job)).grn.run.bind (·.miss) = some acc)
    (hanswered : answered (makeAccess s job acc) job acc.n = true) :
    tryJob job f (k + 1) s = tryJob job f k (makeAccess s job acc) := by
  rw [tryJob]
  dsimp only
  rw [← tried, h]
  dsimp only
  rw [if_pos hanswered]
end

/-! ## What the end of a step leaves of the run of a job

A job's run goes on over the operations it puts together, and a step that it refuses ends within it. -/

@[simp] theorem each_run {α : Type} {f : State → α → State} (h : ∀ s x, (f s x).grn.run = s.grn.run) (xs : List α) (s : State) :
    (s.each xs f).grn.run = s.grn.run := each_proj (·.grn.run) f h xs s

@[simp] theorem ite_run {c : Prop} [Decidable c] (x y : State) : (if c then x else y).grn.run = if c then x.grn.run else y.grn.run :=
  apply_ite (·.grn.run) c x y

section
variable (s : State)

@[simp] theorem tokenStatus_run (tile slot dst keep lanes first rest) :
    (s.tokenStatus tile slot dst keep lanes first rest).grn.run = s.grn.run := by
  unfold State.tokenStatus; split <;> rfl

@[simp] theorem serveToken_run (t) : (s.serveToken t).grn.run = s.grn.run := by
  unfold State.serveToken State.grantToken
  split
  · rfl
  · split
    · rfl
    · exact tokenStatus_run ..

@[simp] theorem forfeitTokens_run (tile slot) : (s.forfeitTokens tile slot).grn.run = s.grn.run := by simp [State.forfeitTokens]
@[simp] theorem dropGroup_run (tile slot) : (s.dropGroup tile slot).grn.run = s.grn.run := rfl
@[simp] theorem dropJobs_run (p) : (s.dropJobs p).grn.run = s.grn.run := rfl
@[simp] theorem dropWalks_run (p) : (s.dropWalks p).grn.run = s.grn.run := rfl
@[simp] theorem abandonUp_run (p) : (s.abandonUp p).grn.run = s.grn.run := rfl
@[simp] theorem issueUp_run (r) : (s.issueUp r).grn.run = s.grn.run := rfl
@[simp] theorem sendUp_run : s.sendUp.grn.run = s.grn.run := each_run issueUp_run ..
@[simp] theorem startFill_run (n p) : (s.startFill n p).grn.run = s.grn.run := sendUp_run _

@[simp] theorem tryPending_run (n) : (s.tryPending n).grn.run = s.grn.run := by
  unfold State.tryPending
  dsimp only
  split
  · rfl
  · simp [State.modTrlSlot]

@[simp] theorem unpin_run (step) : (s.unpin step).grn.run = s.grn.run := by simp [State.unpin]
@[simp] theorem clearStep_run (id) : (s.clearStep id).grn.run = s.grn.run := by simp [State.clearStep]
@[simp] theorem chargePart_run (p n) : (s.chargePart p n).grn.run = s.grn.run := rfl
@[simp] theorem signal_run (fn vec) : (s.signal fn vec).grn.run = s.grn.run :=
  signal_proj (·.grn.run) (fun _ _ => rfl) (fun _ _ => rfl) s fn vec
@[simp] theorem writeRecord_run (p irq r) : (s.writeRecord p irq r).grn.run = s.grn.run := by
  simp [State.writeRecord, State.modFn, State.modPart, State.partFrame]

@[simp] theorem completeStep_run (id) : (s.completeStep id).grn.run = s.grn.run := by
  unfold State.completeStep
  split
  · rfl
  · simp

@[simp] theorem refuseStep_run (id c) : (s.refuseStep id c).grn.run = s.grn.run := completeStep_run (s.faultStep id c) id
end

/-! ## The descriptor that becomes a step (R344, R351) -/

/-- For whom a queue's descriptor is read (R369). -/
def descWho (q : Nat) : Who := { master := 91, cls := q % 4, deadline := none, step := none }

/-- The address of the descriptor at the head of a queue. -/
def descAddr (s : State) (q : Nat) : Nat := (queueSt s q).base.toNat + 64 * (queueSt s q).head

/-- The read of the descriptor at the head of a queue. -/
def descAccess (s : State) (q : Nat) : EngAcc := { n := 0, who := descWho q, addr := descAddr s q, len := 64, bytes := none }

/-- A queue whose entry at the head is read and accepted: the HEAD moves on, and the step is the last of the package's (R351). -/
def descTaken (u : State) (q : Nat) (b : List Byte) : State :=
  ((u.fresh.modFree (· + 9)).modQueue q fun x => { x with head := (x.head + 1) % ringSize x.size }).modStp fun x =>
    { x with steps := x.steps ++ [descStep u (q / 4) (q % 4) b] }

section
variable {s u : State} {q : Nat}

theorem descBytes_read {a : Nat} {g : EngGot} (hrange : rangeCode s (q / 4) a 64 = none) (hrd : s.rd (descWho q) a 64 = (u, g))
    (hgood : g.code = none) : descBytes s q a = (u, .inr g.bytes) := by
  rw [descWho] at hrd
  simp only [descBytes, hrange, hrd, hgood]

/-- Whatever becomes of the descriptor, the run goes on as its read has left it. -/
theorem readDescriptor_run {b : Code ⊕ List Byte} (h : descBytes s q (descAddr s q) = (u, b)) :
    (readDescriptor s q).grn.run = u.grn.run := by
  rw [descAddr] at h
  simp only [readDescriptor, h]
  split
  · exact refuseStep_run ..
  · rfl

theorem readDescriptor_accepted {b : List Byte} (h : descBytes s q (descAddr s q) = (u, .inr b))
    (hchecks : descChecks u (q / 4) (q % 4) b = none) : readDescriptor s q = descTaken u q b := by
  rw [descAddr] at h
  simp only [readDescriptor, h, hchecks]
  rfl

/-- A run that has had its one answer. -/
def ranOnce (s : State) (job : Nat) : State := s.modGrn fun g => { g with run := some { job := job, n := 1, miss := none } }

section
variable {job : Nat} (hmay : mayReadDesc s q = true) (hrange : rangeCode s (q / 4) (descAddr s q) 64 = none)
include hmay hrange

/-- The first try of a descriptor's job asks for its bytes. -/
theorem descriptorIn_asks (hrecs : s.grn.recs = []) : (descriptorIn (tried s job) q).grn.run.bind (·.miss) = some (descAccess s q) := by
  have hnone : answerTo (tried s job) { job := job, n := 0, miss := none } = none := congrArg (List.find? _) hrecs
  have hread := descBytes_read (s := tried s job) hrange (rd_asks rfl hnone rfl) rfl
  rw [descriptorIn, if_pos (show mayReadDesc (tried s job) q = true from hmay), readDescriptor_run hread]
  rfl

/-- The try that has the bytes takes the descriptor. -/
theorem descriptorIn_takes {e : EngRec} (he : answerTo (tried s job) { job := job, n := 0, miss := none } = some e) {b : List Byte} {n : Nat}
    (hgives : e.gives (descAddr s q) 64 = { bytes := b, code := none, good := n }) (hchecks : descChecks s (q / 4) (q % 4) b = none) :
    descriptorIn (tried s job) q = descTaken (ranOnce s job) q b := by
  have hread := descBytes_read (s := tried s job) hrange (rd_answered rfl he) (congrArg EngGot.code hgives)
  rw [hgives] at hread
  rw [descriptorIn, if_pos (show mayReadDesc (tried s job) q = true from hmay)]
  exact readDescriptor_accepted hread hchecks
end
end

/-- What a read of lines leaves decides nothing else of a descriptor. -/
theorem ReadLines.descriptor {s t : State} {lines : List Nat} (h : ReadLines s t lines) (q : Nat) :
    mayReadDesc t q = mayReadDesc s q ∧ descAddr t q = descAddr s q ∧ rangeCode t = rangeCode s ∧ descChecks t = descChecks s ∧
      t.stp = s.stp := by
  rw [h.frame]
  exact ⟨rfl, rfl, rfl, rfl, rfl⟩

/-- A descriptor whose bytes are held is taken in one go, in a state with the same steps and queues. -/
theorem tryJob_descriptor {s : State} {q job k : Nat} (hmay : mayReadDesc s q = true)
    (hrange : rangeCode s (q / 4) (descAddr s q) 64 = none) (hrecs : s.grn.recs = []) (hheld : rangeHeld s (descAddr s q) 64 = true)
    (hchecks : descChecks s (q / 4) (q % 4) (heldBytes s (descAddr s q) 64) = none) : ∃ u : State, u.stp = s.stp ∧
      u.grn.jobs = s.grn.jobs ∧
      tryJob job (fun s => descriptorIn s q) (k + 2) s = (descTaken u q (heldBytes s (descAddr s q) 64)).jobOver job := by
  obtain ⟨hreads, hrec⟩ := makeAccess_held (job := job) (acc := descAccess s q) rfl rfl hrecs (by simp) hheld
  have hanswered : answered (makeAccess s job (descAccess s q)) job (descAccess s q).n = true := by
    simp [answered, hrec]
  have hfirst : tryJob job (fun s => descriptorIn s q) (k + 2) s =
      tryJob job (fun s => descriptorIn s q) (k + 1) (makeAccess s job (descAccess s q)) :=
    tryJob_goesOn (descriptorIn_asks hmay hrange hrecs) hanswered
  obtain ⟨hmay', haddr', hrange', hchecks', hstp⟩ := hreads.descriptor q
  rw [hfirst]
  generalize makeAccess s job (descAccess s q) = t at *
  have hanswer : answerTo (tried t job) { job := job, n := 0, miss := none } =
      some ⟨job, 0, [], heldAnswers s (linesOf (descAddr s q) 64)⟩ := by
    change t.grn.recs.find? _ = _
    simp [hrec, descAccess]
  have htakes := descriptorIn_takes (hmay'.trans hmay) (by rw [hrange', haddr']; exact hrange) hanswer
    (by rw [haddr']; exact gives_held rfl) (by rw [hchecks']; exact hchecks)
  have hends : (descriptorIn (tried t job) q).grn.run.bind (·.miss) = none := by
    rw [htakes]
    rfl
  exact ⟨ranOnce t job, hstp, hreads.jobs,
    (tryJob_ends (f := fun s => descriptorIn s q) hends).trans (congrArg (State.jobOver · job) htakes)⟩

/-- Where one job is under way and ends in its try, the engines go on with that alone. -/
theorem settle_one {s : State} {e : Nat × EngJob} (hdies : s.pwr.diesDown = false) (hjobs : s.grn.jobs = [e])
    (hends : (tryJob e.1 (runJob e.2) engFuel s).grn.jobs = []) : settle s = tryJob e.1 (runJob e.2) engFuel s := by
  have hon : jobOn s e = tryJob e.1 (runJob e.2) engFuel s := by
    simp [jobOn, hjobs]
  rw [settle, hdies, if_neg Bool.false_ne_true]
  simp only [State.each, hjobs, List.foldl_cons, List.foldl_nil, hon, hends]

theorem exec_descriptorRead_held {s : State} {q : Fin 32} (hidle : enginesIdle s = true) (hmay : mayReadDesc s q = true)
    (hrange : rangeCode s (q / 4) (descAddr s q) 64 = none) (hheld : rangeHeld s (descAddr s q) 64 = true)
    (hchecks : descChecks s (q / 4) (q % 4) (heldBytes s (descAddr s q) 64) = none) : ∃ u : State, u.stp = s.stp ∧
      exec (.descriptorRead q) s = .next ((descTaken u q (heldBytes s (descAddr s q) 64)).jobOver s.nextId) := by
  obtain ⟨⟨hjobs, hrecs⟩, hdies⟩ : (s.grn.jobs = [] ∧ s.grn.recs = []) ∧ s.pwr.diesDown = false := by
    simpa [enginesIdle] using hidle
  have hposted : s.postOnce (.descriptor q) = s.post (.descriptor q) := by
    simp [State.postOnce, hjobs]
  have hone : (s.post (.descriptor q)).grn.jobs = [(s.nextId, .descriptor q)] := by
    simp [State.post, State.fresh, hjobs]
  obtain ⟨u, hstp, hkept, htry⟩ :=
    tryJob_descriptor (s := s.post (.descriptor q)) (job := s.nextId) (k := 65534) hmay hrange hrecs hheld hchecks
  have hends : ((descTaken u q (heldBytes s (descAddr s q) 64)).jobOver s.nextId).grn.jobs = [] := by
    change u.grn.jobs.filter _ = []
    simp [hkept, hone]
  refine ⟨u, hstp, ?_⟩
  change settled _ = _
  rw [if_pos hmay, hposted, settled, settle_one (s := s.post (.descriptor q)) hdies hone ((congrArg (·.grn.jobs) htry).trans hends)]
  exact congrArg _ htry

/-- Settles O19: the queue may be read, so its job reads the held descriptor at once and takes it. -/
theorem descriptorBecomesStep : Obligations.DescriptorBecomesStep := by
  unfold Obligations.DescriptorBecomesStep
  rintro q a _ s hsome hfree hstage hwarm ha hrange hidle hheld rfl hchecks
  obtain rfl : a = descAddr s q := ha
  have hmay : mayReadDesc s q = true := by
    simp [mayReadDesc, hsome, hfree, hstage, hwarm]
  obtain ⟨u, hstp, hexec⟩ := exec_descriptorRead_held hidle hmay hrange hheld hchecks
  have hqueue : queueSt ((descTaken u q (heldBytes s (descAddr s q) 64)).jobOver s.nextId) q =
      { queueSt s q with head := ((queueSt s q).head + 1) % ringSize (queueSt s q).size } := by
    have hsame : queueSt u q = queueSt s q := by rw [queueSt, queueSt, hstp]
    rw [← hsame]
    exact queueSt_modQueue_same u q _
  have hsteps : ((descTaken u q (heldBytes s (descAddr s q) 64)).jobOver s.nextId).stp.steps =
      s.stp.steps ++ [descStep u (q / 4) (q % 4) (heldBytes s (descAddr s q) 64)] := by
    rw [← hstp]
    rfl
  exact ⟨_, _, hexec, (congrArg Queue.head hqueue :), (congrArg Queue.tail hqueue :), hsteps, rfl, rfl, rfl, rfl, rfl, rfl⟩

end Sys2Proof.Proofs

/-! SUPPORT. The statement on the slots of Trellis (11). First what reading a slot gives after a change of it, and what the end of a step and
an upstream read leave of Trellis; then owners, configurations, pushes, fills, complete buffers, snapshots and the admission of a step whose
snapshot ends it, each once its guards are decided; then the statement, settled from these. -/

namespace Sys2Proof.Proofs

open Sys2Proof Sys2Proof.Machine Sys2Proof.Laws

/-! ## Slots after a change -/

section
variable (s : State) (n : Fin 64) (f : TSlot → TSlot)

theorem trlSlot_get : trlSlot s n = s.trl.slot[n] := vat_get ..

theorem modTrlSlot_eq : s.modTrlSlot n f = { s with trl := { s.trl with slot := s.trl.slot.set n (f s.trl.slot[n]) } } := by
  rw [State.modTrlSlot, State.modTrl, vmodN_set]

theorem slot_modTrlSlot_same : (s.modTrlSlot n f).trl.slot[n] = f s.trl.slot[n] := by
  rw [← trlSlot_get]
  exact vat_vmodN_same ..
end

theorem trlDenied_eq (s : State) : trlDenied s = { s with trl := { s.trl with denied := true } } := rfl

/-! ## Owners and configurations (R407, R408) -/

section
variable {s : State} {fn : Fn} {n : Fin 64}

theorem exec_trlSlotOwnerWrite_open (hup : s.hif.linkUp = true) (hdec : decodes s fn = true) (v : W32) :
    exec (.trlSlotOwnerWrite fn n v) s = .next (trlSetOwner s fn n v) := congrArg Host.Outcome.next (hostAccess_open hup hdec _)

theorem exec_trlSlotCfgWrite_open (hup : s.hif.linkUp = true) (hdec : decodes s fn = true) (cfg : BitVec 128) :
    exec (.trlSlotCfgWrite fn n cfg) s = .next (trlConfigure s fn n cfg) := congrArg Host.Outcome.next (hostAccess_open hup hdec _)

theorem exec_trlPush_open (hup : s.hif.linkUp = true) (hdec : decodes s fn = true) (v : W32) :
    exec (.trlPush fn n v) s = .next (trlPushTo s fn n v.toNat) := congrArg Host.Outcome.next (hostAccess_open hup hdec _)

theorem trlSetOwner_of_pf (hfn : fn.val = 0) (v : W32) : trlSetOwner s fn n v = { s with trl := { s.trl with
    slot := s.trl.slot.set n { s.trl.slot[n].discard with ownerValid := v.getLsbD 31, owner := v.toNat % 8 } } } := by
  rw [trlSetOwner, if_pos hfn, modTrlSlot_eq]

theorem trlSetOwner_of_vf (hfn : fn.val ≠ 0) (v : W32) : trlSetOwner s fn n v = trlDenied s := by
  rw [trlSetOwner, if_neg hfn]

theorem trlConfigure_of_not_owner (hown : trlOwner s fn n = false) (cfg : BitVec 128) : trlConfigure s fn n cfg = trlDenied s := by
  rw [trlConfigure, hown, if_neg Bool.false_ne_true]

theorem trlPushTo_of_not_owner (hown : trlOwner s fn n = false) (len : Nat) : trlPushTo s fn n len = trlDenied s := by
  rw [trlPushTo, hown, if_neg Bool.false_ne_true]

/-- A configuration that R408 allows is taken, and discards what the slot held (Table 11-4). -/
theorem trlConfigure_of_cfgOk {cfg : BitVec 128} (hown : trlOwner s fn n = true)
    (hok : cfgOk s s.trl.slot[n].owner (bitsOf cfg.toNat 127 64) (bitsOf cfg.toNat 36 32) = true) :
    trlConfigure s fn n cfg = { s with trl := { s.trl with slot := s.trl.slot.set n { s.trl.slot[n].discard with
      base := bitsOf cfg.toNat 127 64, sizeLog2 := bitsOf cfg.toNat 36 32, configured := true, cfgWord := cfg, cfgStage := cfg,
      fresh := bitsOf cfg.toNat 31 0, code := .ok } } } := by
  rw [trlConfigure, if_pos hown]
  dsimp only
  rw [trlSlot_get, if_pos hok, modTrlSlot_eq]

theorem trlConfigure_of_not_cfgOk {cfg : BitVec 128} (hown : trlOwner s fn n = true)
    (hbad : cfgOk s s.trl.slot[n].owner (bitsOf cfg.toNat 127 64) (bitsOf cfg.toNat 36 32) = false) :
    trlConfigure s fn n cfg = { s with trl := { s.trl with
      slot := s.trl.slot.set n { s.trl.slot[n] with code := .trlSlotBad, cfgStage := cfg } } } := by
  rw [trlConfigure, if_pos hown]
  dsimp only
  rw [trlSlot_get, hbad, if_neg Bool.false_ne_true, modTrlSlot_eq]
end

/-! ## Upstream reads, and what they leave of Trellis (R567, R568) -/

section
variable (s : State)
@[simp] theorem each_trl {α : Type} {f : State → α → State} (h : ∀ s x, (f s x).trl = s.trl) (xs : List α) :
    (s.each xs f).trl = s.trl := each_proj State.trl f h xs s

@[simp] theorem issueUp_trl (r) : (s.issueUp r).trl = s.trl := rfl
@[simp] theorem sendUp_trl : s.sendUp.trl = s.trl := each_trl _ issueUp_trl _
@[simp] theorem upstream_trl (fn src addr len) : (s.upstream fn src addr len).trl = s.trl := sendUp_trl _
@[simp] theorem endUp_trl (p) : (s.endUp p).trl = s.trl := sendUp_trl _
@[simp] theorem sendUp_mem : s.sendUp.mem = s.mem := each_mem issueUp_mem ..
@[simp] theorem endUp_mem (p) : (s.endUp p).mem = s.mem := sendUp_mem _
@[simp] theorem sendUp_fab : s.sendUp.fab = s.fab := each_fab issueUp_fab ..
@[simp] theorem endUp_fab (p) : (s.endUp p).fab = s.fab := sendUp_fab _
@[simp] theorem issueUp_grn (r) : (s.issueUp r).grn = s.grn := rfl
@[simp] theorem sendUp_grn : s.sendUp.grn = s.grn := each_proj State.grn _ issueUp_grn ..
@[simp] theorem endUp_grn (p) : (s.endUp p).grn = s.grn := sendUp_grn _
end

/-- A read leaves at once where none waits before it and a tag is free. -/
theorem upstream_out {s : State} (hwait : s.hif.upWait = []) (htags : s.hif.upstream.length < tagLimit s.hif) (fn : Nat) (src : UpSrc)
    (addr len : Nat) : (s.upstream fn src addr len).out = s.out ++ [.upstreamRead fn s.nextId addr len] := by
  obtain ⟨k, hk⟩ : ∃ k, tagLimit s.hif - s.hif.upstream.length = k + 1 := ⟨_, (Nat.succ_pred_eq_of_pos (Nat.sub_pos_of_lt htags)).symm⟩
  have hfree : tagLimit { s.hif with upWait := s.hif.upWait ++ [{ fn := fn, src := src, addr := addr, len := len }] } -
      s.hif.upstream.length = k + 1 := hk
  simp only [State.upstream, State.sendUp, modHif_hif, hfree]
  simp [hwait, State.each, State.issueUp, State.fresh]

/-! ## Pushes (R409, R410) -/

/-- The slot once the fill of a push is under way: its target buffer is gone. -/
def filling (t : TSlot) (p : TPush) (now : Nat) : TSlot := { t.setBuf t.target none with fill := some (t.newFill p now) }

@[simp] theorem filling_code (t : TSlot) (p : TPush) (now : Nat) : (filling t p now).code = t.code := by
  unfold filling TSlot.setBuf; split <;> rfl
@[simp] theorem filling_newest (t : TSlot) (p : TPush) (now : Nat) : (filling t p now).newest = t.newest := by
  unfold filling TSlot.setBuf; split <;> rfl

/-- Where the fill of a push goes is the target's address. -/
theorem newFill_addr (t : TSlot) (p : TPush) (now : Nat) : (t.newFill p now).addr = bufAddr t (if t.target then 1 else 0) := by
  unfold TSlot.newFill bufAddr; split <;> simp

theorem startFill_slot (s : State) (n : Fin 64) (p : TPush) :
    (s.startFill n p).trl.slot[n] = filling s.trl.slot[n] p s.tmp.elapsed := by
  rw [State.startFill, upstream_trl, slot_modTrlSlot_same]
  rfl

/-- A fill reads the host memory through the function that serves the slot's owner. -/
theorem startFill_out {s : State} (n : Fin 64) (p : TPush) (hwait : s.hif.upWait = []) (htags : s.hif.upstream.length < tagLimit s.hif) :
    (s.startFill n p).out = s.out ++ [.upstreamRead (servingFn s s.trl.slot[n].owner) s.nextId p.addr p.len] := by
  rw [← trlSlot_get]
  exact upstream_out (s := s.modTrlSlot n fun t => filling t p s.tmp.elapsed) hwait htags ..

/-- The push that a slot's registers hold. -/
def pushOf (t : TSlot) (len : Nat) : TPush := { addr := t.pushAddr.toNat, stamp := t.pushStamp.toNat, len := len }

section
variable {s : State} {fn : Fn} {n : Fin 64} {len : Nat}

theorem trlPushTo_of_bad (hown : trlOwner s fn n = true)
    (hbad : len = 0 ∨ s.trl.slot[n].configured = false ∨ 2 ^ s.trl.slot[n].sizeLog2 < len) : trlPushTo s fn n len =
      { s with trl := { s.trl with slot := s.trl.slot.set n { s.trl.slot[n] with code := .trlPushBad } } } := by
  rw [trlPushTo, if_pos hown]
  dsimp only
  rw [trlSlot_get, if_pos hbad, modTrlSlot_eq]

/-- A push that fits starts its fill where no fill runs, no push is pending and the target has no pin. -/
theorem trlPushTo_starts (hown : trlOwner s fn n = true) (hlen : len ≠ 0) (hcfg : s.trl.slot[n].configured = true)
    (hfits : len ≤ 2 ^ s.trl.slot[n].sizeLog2) (hfill : s.trl.slot[n].fill = none) (hfree : s.trl.slot[n].free = true)
    (hpend : s.trl.slot[n].pending = none) :
    trlPushTo s fn n len = (s.modTrlSlot n fun t => { t with code := .ok }).startFill n (pushOf s.trl.slot[n] len) := by
  have hgood : ¬(len = 0 ∨ s.trl.slot[n].configured = false ∨ 2 ^ s.trl.slot[n].sizeLog2 < len) := by
    rw [hcfg]
    simpa [hlen] using hfits
  have hstarts : (s.trl.slot[n].fill.isNone && s.trl.slot[n].free && s.trl.slot[n].pending.isNone) = true := by
    rw [hfill, hfree, hpend]; rfl
  rw [trlPushTo, if_pos hown]
  dsimp only
  rw [trlSlot_get, if_neg hgood, if_pos hstarts]
  rfl
end

/-! ## Fills (R410) -/

section
variable (s : State) (r : MemReq)
theorem ingSend_trl : (s.ingSend r).trl = s.trl := by unfold State.ingSend; dsimp only; split <;> rfl
theorem ingSend_mem : (s.ingSend r).mem = s.mem := by unfold State.ingSend; dsimp only; split <;> rfl

/-- An ING flit is under way to its slice or waits for a credit. -/
theorem ingSend_length : (s.ingSend r).grn.reqs.length + (s.ingSend r).fab.ingWait.length =
    s.grn.reqs.length + s.fab.ingWait.length + 1 := by
  unfold State.ingSend
  dsimp only
  split
  · simp [Nat.add_right_comm]
  · simp [Nat.add_assoc]
end

theorem each_ingSend_length {α : Type} (r : α → MemReq) (xs : List α) (s : State) :
    (s.each xs fun s x => s.ingSend (r x)).grn.reqs.length + (s.each xs fun s x => s.ingSend (r x)).fab.ingWait.length =
      s.grn.reqs.length + s.fab.ingWait.length + xs.length := by
  induction xs generalizing s with
  | nil => rfl
  | cons x xs ih =>
    refine (ih (s.ingSend (r x))).trans ?_
    rw [ingSend_length, List.length_cons]
    omega

/-- A fill once it has taken some bytes, which leave as writes with these names. -/
def filled (f : TFill) (data : List Byte) (ids : List Nat) : TFill :=
  { f with got := f.got + data.length, unacked := f.unacked ++ ids }

/-- The names of the writes of some bytes of a fill. -/
def fillIds (s : State) (f : TFill) (data : List Byte) : List Nat :=
  (List.range (blocksOf (f.addr + f.got) data).length).map (s.nextId + ·)

/-- A fill that has taken some bytes, before their writes leave; its read is over with the last byte. -/
def fillTaken (s : State) (n : Nat) (f : TFill) (data : List Byte) : State :=
  let t := s.modTrlSlot n fun t => { t with fill := some (filled f data (fillIds s f data)) }
  (if f.len ≤ f.got + data.length then t.endUp fun u => u.src == .trellis n else t).modNextId
    (· + (blocksOf (f.addr + f.got) data).length)

section
variable {s : State} {n : Fin 64} {f : TFill} {data : List Byte}

theorem fillTaken_trl : (fillTaken s n f data).trl =
    (s.modTrlSlot n fun t => { t with fill := some (filled f data (fillIds s f data)) }).trl := by
  unfold fillTaken; dsimp only; split <;> simp
theorem fillTaken_mem : (fillTaken s n f data).mem = s.mem := by
  unfold fillTaken; dsimp only; split <;> simp [State.modTrlSlot]
theorem fillTaken_grn : (fillTaken s n f data).grn = s.grn := by
  unfold fillTaken; dsimp only; split <;> simp [State.modTrlSlot]
theorem fillTaken_fab : (fillTaken s n f data).fab = s.fab := by
  unfold fillTaken; dsimp only; split <;> simp [State.modTrlSlot]

/-- A fill whose read has left takes its next bytes and sends one ING flit for each block of them. -/
theorem fillData_eq (hfill : s.trl.slot[n].fill = some f) (hwait : upWaits s (.trellis n) = false) (hlen : data.length ≤ f.len - f.got) :
    fillData s n data = (fillTaken s n f data).each ((blocksOf (f.addr + f.got) data).zip (fillIds s f data)) fun s e =>
      s.ingSend (ingRequest e.2 e.1.1 e.1.2 f.part 89 false (.trellis n)) := by
  have hsome : ((trlSlot s n).fill.filter fun _ => !upWaits s (.trellis n)) = some f := by
    rw [trlSlot_get, hfill, hwait]; rfl
  rw [fillData, hsome]
  dsimp only
  rw [List.take_of_length_le hlen]
  rfl

theorem fillData_spec (hfill : s.trl.slot[n].fill = some f) (hwait : upWaits s (.trellis n) = false)
    (hlen : data.length ≤ f.len - f.got) :
    (fillData s n data).trl.slot[n].fill = some (filled f data (fillIds s f data)) ∧ (fillData s n data).mem = s.mem ∧
      (fillData s n data).grn.reqs.length + (fillData s n data).fab.ingWait.length =
        s.grn.reqs.length + s.fab.ingWait.length + (fillIds s f data).length := by
  rw [fillData_eq hfill hwait hlen]
  refine ⟨?_, ?_, ?_⟩
  · rw [each_trl _ fun s _ => ingSend_trl s _, fillTaken_trl, slot_modTrlSlot_same]
  · rw [each_mem fun s _ => ingSend_mem s _, fillTaken_mem]
  · rw [each_ingSend_length, fillTaken_grn, fillTaken_fab]
    simp [fillIds]
end

/-! ## Complete buffers (R410 to R412) -/

theorem tryPending_of_none {s : State} {n : Fin 64} (h : s.trl.slot[n].pending = none) : s.tryPending n = s := by
  rw [State.tryPending, trlSlot_get, h]

@[simp] theorem complete_pending (t : TSlot) (f : TFill) (beat : Nat) : (t.complete f beat).pending = t.pending := by
  unfold TSlot.complete TSlot.setBuf
  split
  · rfl
  · split <;> rfl

/-- A fill whose writes are all acknowledged ends at the beat boundary, where no snapshot of the beat is due. -/
theorem exec_bufferComplete {s : State} {n : Fin 64} {f : TFill} (hfill : s.trl.slot[n].fill = some f) (hgot : f.got = f.len)
    (hacked : f.unacked = []) (hpast : f.ackedAt < s.tmp.elapsed) (hpend : s.trl.slot[n].pending = none)
    (hdue : ∀ x ∈ s.stp.steps, x.part = s.trl.slot[n].owner → snapshotDue s x = false) :
    exec (.bufferComplete n) s =
      .next { s with trl := { s.trl with slot := s.trl.slot.set n (s.trl.slot[n].complete f s.tmp.beat) } } := by
  have hnone : (s.stp.steps.any fun t => t.part == s.trl.slot[n].owner && snapshotDue s t) = false := by
    rw [List.any_eq_false]
    intro x hx
    simpa using hdue x hx
  have hslot : (s.modTrlSlot n fun t => t.complete f s.beat).trl.slot[n].pending = none := by
    rw [slot_modTrlSlot_same, complete_pending, hpend]
  change execBufferComplete n s = _
  rw [execBufferComplete, trlSlot_get, hfill]
  dsimp only
  rw [hnone, if_pos ⟨hgot, hacked, hpast, rfl⟩, tryPending_of_none hslot, modTrlSlot_eq]
  rfl

/-! ## Snapshots (R413 to R419) -/

section
variable {s : State} {x : Step}

theorem exec_ingestSnapshot_due (hx : getStep s x.id = some x) (hdue : snapshotDue s x = true) :
    exec (.ingestSnapshot x.id) s = .next (settle (takeSnapshot s x)) := by
  change execIngestSnapshot x.id s = _
  rw [execIngestSnapshot, hx]
  dsimp only
  rw [if_pos hdue, settled]

theorem takeSnapshot_of_no_match (h : ingestChoice s x.part = none) : takeSnapshot s x = snapEnds s x .ingestNomatch := by
  rw [takeSnapshot, h]

/-- A snapshot with a variant pins the buffers, notes what it selects in the step and starts the job that writes the view. -/
theorem takeSnapshot_of_variant {e k d : Nat} {r : PlanRec} (hchoice : ingestChoice s x.part = some (e, k, d))
    (hrec : variantRec s x k = some r) : takeSnapshot s x =
      ((pinAll s x.id x.part).modStep x.id fun y => { y with runPlan := r.id, dstep := d, snap := some (snapOf s x.part) }).post
        (.view x.id (x.argAddr + 0x40) (ingestView s x.part k d e)) := by
  rw [takeSnapshot, hchoice]
  dsimp only
  rw [hrec]
end

section
variable (s : State) (step p : Nat)
theorem pinAll_proj {γ : Type} (g : State → γ) (h : ∀ s f, g (State.modTrl s f) = g s) : g (pinAll s step p) = g s := by
  unfold pinAll
  exact each_proj g _ (fun _ _ => h _ _) _ _

@[simp] theorem pinAll_stp : (pinAll s step p).stp = s.stp := pinAll_proj s step p State.stp fun _ _ => rfl
@[simp] theorem pinAll_mem : (pinAll s step p).mem = s.mem := pinAll_proj s step p State.mem fun _ _ => rfl
@[simp] theorem pinAll_grn : (pinAll s step p).grn = s.grn := pinAll_proj s step p State.grn fun _ _ => rfl
@[simp] theorem pinAll_nextId : (pinAll s step p).nextId = s.nextId := pinAll_proj s step p State.nextId fun _ _ => rfl
end

/-! ## A step that its snapshot ends (R418, R419)

The end of a step frees its place, and leaves the count of TRL_NOMATCH. -/

section
variable (s : State)
@[simp] theorem ite_trl {c : Prop} [Decidable c] (x y : State) : (if c then x else y).trl = if c then x.trl else y.trl :=
  apply_ite State.trl c x y

@[simp] theorem tokenStatus_trl (tile slot dst keep lanes first rest) : (s.tokenStatus tile slot dst keep lanes first rest).trl = s.trl := by
  unfold State.tokenStatus; split <;> rfl

@[simp] theorem serveToken_trl (t) : (s.serveToken t).trl = s.trl := by
  unfold State.serveToken State.grantToken
  split
  · rfl
  · split
    · rfl
    · exact tokenStatus_trl ..

@[simp] theorem forfeitTokens_trl (tile slot) : (s.forfeitTokens tile slot).trl = s.trl := by simp [State.forfeitTokens]
@[simp] theorem dropGroup_trl (tile slot) : (s.dropGroup tile slot).trl = s.trl := rfl
@[simp] theorem dropJobs_trl (p) : (s.dropJobs p).trl = s.trl := rfl
@[simp] theorem dropWalks_trl (p) : (s.dropWalks p).trl = s.trl := rfl
@[simp] theorem abandonUp_trl (p) : (s.abandonUp p).trl = s.trl := rfl
@[simp] theorem clearStep_trl (id) : (s.clearStep id).trl = s.trl := by simp [State.clearStep]
@[simp] theorem chargePart_trl (p n) : (s.chargePart p n).trl = s.trl := rfl
@[simp] theorem signal_trl (fn vec) : (s.signal fn vec).trl = s.trl := signal_proj State.trl (fun _ _ => rfl) (fun _ _ => rfl) s fn vec
@[simp] theorem writeRecord_trl (p irq r) : (s.writeRecord p irq r).trl = s.trl := by
  simp [State.writeRecord, State.modFn, State.modPart, State.partFrame]

@[simp] theorem each_noMatch {α : Type} {f : State → α → State} (h : ∀ s x, (f s x).trl.noMatch = s.trl.noMatch) (xs : List α) :
    (s.each xs f).trl.noMatch = s.trl.noMatch := each_proj (·.trl.noMatch) f h xs s

theorem startFill_noMatch (n p) : (s.startFill n p).trl.noMatch = s.trl.noMatch := by
  simp [State.startFill, State.modTrlSlot]

@[simp] theorem tryPending_noMatch (n) : (s.tryPending n).trl.noMatch = s.trl.noMatch := by
  unfold State.tryPending
  dsimp only
  split
  · rfl
  · split
    · exact startFill_noMatch _ _ _
    · rfl

@[simp] theorem unpin_noMatch (step) : (s.unpin step).trl.noMatch = s.trl.noMatch := by
  simp [State.unpin]

@[simp] theorem completeStep_noMatch (id) : (s.completeStep id).trl.noMatch = s.trl.noMatch := by
  unfold State.completeStep
  split
  · rfl
  · simp

theorem refuseStep_noMatch (id c) : (s.refuseStep id c).trl.noMatch = s.trl.noMatch := completeStep_noMatch _ _

@[simp] theorem signal_stp (fn vec) : (s.signal fn vec).stp = s.stp := signal_proj State.stp (fun _ _ => rfl) (fun _ _ => rfl) s fn vec

theorem writeRecord_steps (p irq r) : (s.writeRecord p irq r).stp.steps = s.stp.steps := by
  unfold State.writeRecord
  dsimp only
  split <;> split <;> simp [State.modPart, State.partFrame, State.modFn]

/-- A step that completes is gone. -/
theorem getStep_completeStep (id) : getStep (s.completeStep id) id = none := by
  unfold State.completeStep
  split
  · assumption
  · rw [getStep, writeRecord_steps]
    simp [List.find?_filter]
end

section
variable {s : State} {x : Step} {c : Code}

theorem getStep_refuseIngest : getStep (refuseIngest s x c) x.id = none := getStep_completeStep _ _

theorem refuseIngest_noMatch :
    (refuseIngest s x c).trl.noMatch = if c = .ingestNomatch then s.trl.noMatch + 1 else s.trl.noMatch := by
  rw [refuseIngest, refuseStep_noMatch, ite_trl]
  split <;> rfl

/-- A step that could start now completes with the code that its snapshot gave it. -/
theorem exec_stepAdmit_snapCode {r : PlanRec} {g : PlanGrade} (hx : getStep s x.id = some x) (hphase : x.phase = .placed)
    (hstart : x.start ≤ s.tmp.beat) (hfg : isFg s.tmp.beat = true) (hadm : admitting s = true) (htrip : partTripped s x.part = false)
    (hcoll : collectiveStep s x = false) (hsnap : x.snap.isSome = true) (hview : viewPending s x.id = false) (hcode : x.snapCode = some c)
    (hplan : stepPlan s x = some r) (hgrade : chooseGrade s r s.tmp.beat = some g) (htiles : g.tiles.any (tileHeld s) = false) :
    exec (.stepAdmit x.id) s = .next (refuseIngest s x c) := by
  have hfree : startCode s x = none := by simp [startCode, htrip, hcoll]
  have hready : (x.ingest && (x.snap.isNone || viewPending s x.id)) = false := by
    simp [hview, Option.isNone_eq_false_iff.mpr hsnap]
  have hgrade' : chooseGrade s r s.beat = some g := hgrade
  have hplaced : admitPlaced s x = refuseIngest s x c := by
    unfold admitPlaced
    rw [hfree]
    dsimp only
    rw [hcoll, Bool.false_and, if_neg Bool.false_ne_true, hready, if_neg Bool.false_ne_true, hplan]
    dsimp only
    rw [hgrade']
    dsimp only
    rw [htiles, if_neg Bool.false_ne_true, hcode]
  change execStepAdmit x.id s = _
  simp [execStepAdmit, hx, hphase, hadm, State.beat, hstart, hfg, hplaced]
end

/-! ## The statement on the slots of Trellis -/

/-- Settles O46: a write or a push acts by whose it is, a fill takes its bytes and ends, and a snapshot takes a variant or ends its step. -/
theorem trellisSlots : Obligations.TrellisSlots := by
  unfold Obligations.TrellisSlots
  intro fn n v cfg s
  refine ⟨fun hup hdec => ⟨fun hpf => ?_, fun hvf => ?_, fun hother => ?_, fun hown => ⟨fun hok => ?_, fun hbad => ?_, fun hbad => ?_,
    fun hlen hcfg hfits hfill hfree hpend hwait htags => ?_⟩⟩, fun f data hfill hwait hlen => ?_,
    fun f hfill hgot hacked hpast hpend hdue => ?_, fun x hx => ⟨fun hdue => ⟨fun hnone => ?_, fun e k d r hchoice hrec => ?_⟩,
      fun c r g hphase hstart hfg hadm htrip hcoll hsnap hview hcode hplan hgrade htiles => ?_⟩⟩
  · exact ⟨_, (exec_trlSlotOwnerWrite_open hup hdec v).trans (congrArg _ (trlSetOwner_of_pf hpf v)), rfl, rfl⟩
  · rw [exec_trlSlotOwnerWrite_open hup hdec, trlSetOwner_of_vf hvf, trlDenied_eq]
  · rw [exec_trlSlotCfgWrite_open hup hdec, trlConfigure_of_not_owner hother, exec_trlPush_open hup hdec, trlPushTo_of_not_owner hother]
    exact ⟨rfl, rfl⟩
  · exact ⟨_, (exec_trlSlotCfgWrite_open hup hdec cfg).trans (congrArg _ (trlConfigure_of_cfgOk hown hok)), rfl, rfl⟩
  · rw [exec_trlSlotCfgWrite_open hup hdec, trlConfigure_of_not_cfgOk hown hbad]
  · rw [exec_trlPush_open hup hdec, trlPushTo_of_bad hown hbad]
  · refine ⟨_, (exec_trlPush_open hup hdec v).trans (congrArg _ (trlPushTo_starts hown hlen hcfg hfits hfill hfree hpend)),
      startFill_mem _ _ _, ?_⟩
    rw [startFill_slot, slot_modTrlSlot_same, filling_code, filling_newest,
      startFill_out (s := s.modTrlSlot n fun t => { t with code := .ok }) n _ hwait htags, slot_modTrlSlot_same,
      ← newFill_addr s.trl.slot[n] (pushOf s.trl.slot[n] v.toNat) s.tmp.elapsed]
    exact ⟨rfl, rfl, rfl, rfl⟩
  · obtain ⟨hslot, hmem, hreqs⟩ := fillData_spec hfill hwait hlen
    refine ⟨_, _, rfl, hslot, rfl, rfl, rfl, rfl, hmem, hreqs.trans ?_⟩
    simp [filled]
  · rw [exec_bufferComplete hfill hgot hacked hpast hpend hdue, TSlot.complete]
    refine ⟨fun y hy hvoid => ?_, fun hvoid => ?_⟩
    · rw [hvoid, if_neg Bool.false_ne_true, hy]
    · rw [if_pos hvoid]
  · rw [exec_ingestSnapshot_due hx hdue, takeSnapshot_of_no_match hnone]
    refine ⟨_, rfl, rfl, ?_⟩
    exact getStep_modStep s x.id (fun y => { y with snap := some [], snapCode := some .ingestNomatch }) (fun _ => rfl) x hx
  · have hpinned : getStep (pinAll s x.id x.part) x.id = some x := by rw [getStep, pinAll_stp]; exact hx
    rw [exec_ingestSnapshot_due hx hdue, takeSnapshot_of_variant hchoice hrec]
    refine ⟨_, rfl, ?_, pinAll_mem s x.id x.part, ?_⟩
    · exact getStep_modStep _ x.id (fun y => { y with runPlan := r.id, dstep := d, snap := some (snapOf s x.part) }) (fun _ => rfl) x hpinned
    · simp [State.post, State.fresh, State.modStep]
  · exact ⟨_, exec_stepAdmit_snapCode hx hphase hstart hfg hadm htrip hcoll hsnap hview hcode hplan hgrade htiles, getStep_refuseIngest,
      refuseIngest_noMatch⟩

end Sys2Proof.Proofs

/-! SUPPORT. The statements on the ring (12). First what a change of a link group leaves of the others, and what the words and the reshape
events that it gives rise to leave of all of them, and training; then consensus and update words; last the flits that a collective takes, and
a state in which the clause on them fails. -/

namespace Sys2Proof.Proofs

open Sys2Proof Sys2Proof.Machine Sys2Proof.Laws

/-! ## Link groups after a change -/

section
variable (s : State)

theorem linkSt_get (l : Link) : linkSt s l = s.rhl.link[l] := vat_get ..

theorem modLink_eq (l : Link) (f : LinkSt → LinkSt) :
    s.modLink l f = { s with rhl := { s.rhl with link := s.rhl.link.set l (f s.rhl.link[l]) } } := by
  rw [State.modLink, State.modRhl, vmodN_set]

@[simp] theorem link_modLink_same (l : Link) (f : LinkSt → LinkSt) : (s.modLink l f).rhl.link[l] = f s.rhl.link[l] := by
  simp [modLink_eq]

theorem link_modLink_ne {l k : Link} (h : k ≠ l) (f : LinkSt → LinkSt) : (s.modLink l f).rhl.link[k] = s.rhl.link[k] := by
  rw [modLink_eq]
  exact Vector.getElem_set_ne l.isLt k.isLt fun e => h (Fin.ext e.symm)

/-! ### Words, and reshape events (R439, R449) -/

@[simp] theorem sendWord_rhl (bs p) : (s.sendWord bs p).rhl = s.rhl :=
  each_proj State.rhl _ (fun s l => by split <;> rfl) _ s

theorem floodReshape_link (l js ls) : (s.floodReshape l js ls).rhl.link = s.rhl.link := by simp [State.floodReshape, State.sendUpdate]

@[simp] theorem reshapeEvent_link (l js ls) : (s.reshapeEvent l js ls).rhl.link = s.rhl.link := by
  unfold State.reshapeEvent
  split
  · exact floodReshape_link ..
  · rfl

@[simp] theorem reshapeEvent_mem (l js ls) : (s.reshapeEvent l js ls).mem = s.mem := by
  unfold State.reshapeEvent
  split
  · exact floodReshape_mem ..
  · rfl

@[simp] theorem reshapeEvent_tmp (l js ls) : (s.reshapeEvent l js ls).tmp = s.tmp := by
  unfold State.reshapeEvent
  split
  · exact floodReshape_tmp ..
  · rfl

/-! ### A link group that leaves its state (R434, R449) -/

/-- A reshape event that a link group gives rise to leaves the link groups alone. -/
theorem moveLink_link (l : Nat) (next : LinkState) (f : LinkSt → LinkSt) :
    (s.moveLink l next f).rhl.link = (s.modLink l fun x => { f x with state := next }).rhl.link := by
  unfold State.moveLink
  dsimp only
  split
  · rfl
  · exact reshapeEvent_link ..

@[simp] theorem moveLink_mem (l : Nat) (next : LinkState) (f : LinkSt → LinkSt) : (s.moveLink l next f).mem = s.mem := by
  unfold State.moveLink
  dsimp only
  split
  · rfl
  · exact reshapeEvent_mem ..

@[simp] theorem moveLink_linkDelay (l : Nat) (next : LinkState) (f : LinkSt → LinkSt) :
    (s.moveLink l next f).tmp.linkDelay = s.tmp.linkDelay := by
  unfold State.moveLink
  dsimp only
  split
  · rfl
  · rw [reshapeEvent_tmp]; rfl

@[simp] theorem link_moveLink_same (l : Link) (next : LinkState) (f : LinkSt → LinkSt) :
    (s.moveLink l next f).rhl.link[l] = { f s.rhl.link[l] with state := next } := by
  rw [moveLink_link, link_modLink_same]

theorem link_moveLink_ne {l k : Link} (h : k ≠ l) (next : LinkState) (f : LinkSt → LinkSt) :
    (s.moveLink l next f).rhl.link[k] = s.rhl.link[k] := by
  rw [moveLink_link, link_modLink_ne s h]

@[simp] theorem linkDown_mem (l c) : (s.linkDown l c).mem = s.mem := moveLink_mem ..
@[simp] theorem linkDown_state (l : Link) (c) : (s.linkDown l c).rhl.link[l].state = .down := by rw [State.linkDown, link_moveLink_same]
@[simp] theorem linkDown_code (l : Link) (c) : (s.linkDown l c).rhl.link[l].code = c := by rw [State.linkDown, link_moveLink_same]
theorem link_linkDown_ne {l k : Link} (h : k ≠ l) (c) : (s.linkDown l c).rhl.link[k] = s.rhl.link[k] := link_moveLink_ne s h ..
end

/-! ## Training (R431, R434, R435, R448) -/

section
variable {s : State} {l : Link}

/-- A replay counts (R431). -/
def replayed (x : LinkSt) : LinkSt :=
  { x with replay := x.replay + 1, fecUncorr := x.fecUncorr + 1, replayFrame := x.replayFrame + 1 }

/-- A replay that a link group in service counts; the seventeenth of a frame takes it down. -/
theorem exec_linkReplay (h : linkLive s.rhl.link[l].state = true) : exec (.linkReplay l) s =
    .next (if s.rhl.link[l].replayFrame = 16 then (s.modLink l replayed).linkDown l .linkDown else s.modLink l replayed) := by
  have hlast : (linkSt (s.modLink l replayed) l).replayFrame = 17 ↔ s.rhl.link[l].replayFrame = 16 := by
    rw [linkSt_get, link_modLink_same]
    exact Nat.succ_inj
  change execLinkReplay l s = _
  unfold execLinkReplay
  rw [linkSt_get, if_pos h]
  exact congrArg _ (ite_congr (propext hlast) (fun _ => rfl) fun _ => rfl)

/-- A link group at the start of training, unless TRAIN_FAIL keeps it down. -/
def trainStarted (x : LinkSt) : LinkSt :=
  if x.code = .trainFail then x else { x with state := .loc, tries := 0, passed1 := false, code := .ok }

theorem exec_linkTrainStart (h : canTrain s = true) : exec .linkTrainStart s =
    .next (s.modRhl fun r => { r with readySince := false, link := r.link.map trainStarted }).refreshGood :=
  congrArg Host.Outcome.next (if_pos h)

/-! ### Step 2 (Table 12-2) -/

theorem mem_inTraining {k : Link} (h : s.rhl.link[k].state = .loc) :
    s.rhl.link[k] ∈ s.rhl.link.toList.filter fun x => x.state == .loc :=
  List.mem_filter.mpr ⟨Vector.mem_toList_iff.mpr (Vector.getElem_mem k.isLt), beq_iff_eq.mpr h⟩

/-- Step 2 waits for every link group in training. -/
theorem ringReady_of_waiting {k : Link} (hloc : s.rhl.link[k].state = .loc) (hwait : s.rhl.link[k].passed1 = false) : ringReady s = s := by
  refine if_neg fun h => ?_
  have hall := List.all_eq_true.mp (Bool.and_eq_true_iff.mp h).2 _ (mem_inTraining hloc)
  rw [hwait] at hall
  exact absurd hall Bool.false_ne_true

/-- A link group that step 2 takes on from training. -/
def readied (x : LinkSt) : LinkSt := if x.state = .loc then { x with state := .ready, tries := 0 } else x

theorem readied_state_ne (x : LinkSt) : (readied x).state ≠ .loc := by
  unfold readied
  split
  · exact nofun
  · assumption

theorem ringReady_link (s : State) : (ringReady s).rhl.link = s.rhl.link ∨ (ringReady s).rhl.link = s.rhl.link.map readied := by
  unfold ringReady
  dsimp only
  split
  · exact .inr rfl
  · exact .inl rfl

/-- Step 2 completes once every link group in training has passed step 1. -/
theorem ringReady_of_passed {k : Link} (hloc : s.rhl.link[k].state = .loc)
    (hall : ∀ k : Link, s.rhl.link[k].state = .loc → s.rhl.link[k].passed1 = true) :
    (ringReady s).rhl.link = s.rhl.link.map readied := by
  have hpassed : (s.rhl.link.toList.filter fun x => x.state == .loc).all (·.passed1) = true := by
    refine List.all_eq_true.mpr fun x hx => ?_
    obtain ⟨hin, hx⟩ := List.mem_filter.mp hx
    obtain ⟨i, hi, rfl⟩ := Vector.mem_iff_getElem.mp (Vector.mem_toList_iff.mp hin)
    exact hall ⟨i, hi⟩ (by simpa using hx)
  unfold ringReady
  rw [if_pos (by simp [hpassed, List.ne_nil_of_mem (mem_inTraining hloc)])]
  rfl

/-- Step 2 leaves a link group alone that is not at step 1. -/
theorem ringReady_link_of_ne_loc {k : Link} (h : s.rhl.link[k].state ≠ .loc) : (ringReady s).rhl.link[k] = s.rhl.link[k] := by
  obtain hlink | hlink := ringReady_link s
  · rw [hlink]
  · rw [hlink, Fin.getElem_fin, Vector.getElem_map]
    exact if_neg h

/-! ### The end of a step, and what it loses (R434, R448, R449) -/

/-- A link group that passes step 1. -/
def locPassed (x : LinkSt) : LinkSt := { x with passed1 := true, tries := 0 }

theorem exec_trainStepDone_loc (h : s.rhl.link[l].state = .loc) (ns : Nat) :
    exec (.trainStepDone l ns) s = .next (ringReady (s.modLink l locPassed)) := by
  change execTrainStepDone l ns s = _
  rw [execTrainStepDone, linkSt_get, h]
  rfl

theorem exec_trainStepDone_ident {w : CWord} (h : s.rhl.link[l].state = .ident) (hpeer : s.rhl.link[l].peer = some w) (ns : Nat) :
    exec (.trainStepDone l ns) s =
      .next ((setDelay s l ns).moveLink l (joinedState s l) fun x => { x with tries := 0 }) := by
  change execTrainStepDone l ns s = _
  rw [execTrainStepDone, linkSt_get, h, hpeer]
  rfl

/-- A link group in service measures its delay anew while a reshape is under way. -/
theorem exec_trainStepDone_service (h : s.rhl.link[l].state = .up ∨ s.rhl.link[l].state = .transit) (ns : Nat) :
    exec (.trainStepDone l ns) s = .next (if s.rhl.reshapes.isEmpty then s else setDelay s l ns) := by
  change execTrainStepDone l ns s = _
  rw [execTrainStepDone, linkSt_get]
  obtain h | h := h <;> rw [h]

theorem exec_trainStepTimeout (h : s.rhl.link[l].state = .loc ∨ s.rhl.link[l].state = .relock ∨ s.rhl.link[l].state = .ident) :
    exec (.trainStepTimeout l) s = .next (if s.rhl.link[l].tries = 0 then s.modLink l fun x => { x with tries := 1 }
      else ringReady (s.linkDown l .trainFail)) := by
  change execTrainStepTimeout l s = _
  unfold execTrainStepTimeout
  rw [linkSt_get]
  exact congrArg _ (if_pos (by simpa [or_assoc] using h))

/-- A link group that has lost its lock. -/
def lockLost (x : LinkSt) : LinkSt :=
  { x with tries := 0, silent := 0, peer := none, peerOk := false, bypassed := false, leases := [] }

theorem exec_linkLockLost (h : s.rhl.link[l].state = .ident ∨ s.rhl.link[l].state = .up ∨ s.rhl.link[l].state = .transit) :
    exec (.linkLockLost l) s = .next (s.moveLink l .relock lockLost) := by
  change execLinkLockLost l s = _
  unfold execLinkLockLost
  rw [linkSt_get]
  exact congrArg _ (if_pos (by simpa [or_assoc] using h))
end

/-- Settles O47: each command by the state of its link group; step 2 by whether a link group still waits at step 1. -/
theorem linkTraining : Obligations.LinkTraining := by
  unfold Obligations.LinkTraining
  intro l x ns s hx
  subst hx
  refine ⟨fun hlive hmore => ?_, fun hlive hlast => ?_, fun htrain => ?_, fun hloc hwait => ?_, fun hloc hpassed => ?_, fun hready hgood => ?_,
    fun hrelock => ?_, fun hident hpeer => ?_, fun hserv => ⟨fun hnone => ?_, fun hsome => ?_⟩,
    fun hstep => ⟨fun hfirst => ?_, fun hagain => ?_⟩, fun hlock => ?_⟩
  · rw [exec_linkReplay hlive, if_neg hmore, modLink_eq, replayed]
  · rw [exec_linkReplay hlive, if_pos hlast]
    exact ⟨_, rfl, linkDown_state .., linkDown_code .., fun k hk => (link_linkDown_ne _ hk _).trans (link_modLink_ne s hk _), linkDown_mem ..⟩
  · exact ⟨_, exec_linkTrainStart htrain, rfl, fun k => Vector.getElem_map ..⟩
  · obtain ⟨k, hk, hkloc, hkwait⟩ := hwait
    rw [exec_trainStepDone_loc hloc, ringReady_of_waiting (k := k), modLink_eq, locPassed]
    · rw [link_modLink_ne s hk]; exact hkloc
    · rw [link_modLink_ne s hk]; exact hkwait
  · have hlocs : (s.modLink l locPassed).rhl.link[l].state = .loc := by rw [link_modLink_same]; exact hloc
    have hlink := ringReady_of_passed hlocs fun k hk => by
      by_cases hkl : k = l
      · rw [hkl, link_modLink_same, locPassed]
      · rw [link_modLink_ne s hkl] at hk ⊢
        exact hpassed k hkl hk
    refine ⟨_, exec_trainStepDone_loc hloc ns, ?_, fun k => ?_⟩
    · rw [hlink, Fin.getElem_fin, Vector.getElem_map]
      exact congrArg LinkSt.state (if_pos hlocs)
    · rw [hlink, Fin.getElem_fin, Vector.getElem_map]
      exact readied_state_ne _
  · change execTrainStepDone l ns s = _
    rw [execTrainStepDone, linkSt_get, hready]
    simp only [hgood, if_true, modLink_eq]
  · change execTrainStepDone l ns s = _
    rw [execTrainStepDone, linkSt_get, hrelock]
    simp only [modLink_eq]
  · obtain ⟨w, hw⟩ := Option.ne_none_iff_exists'.mp hpeer
    refine ⟨_, exec_trainStepDone_ident hident hw ns, ?_, ?_, ?_, fun k hk => link_moveLink_ne _ hk ..⟩
    · rw [link_moveLink_same]
    · rw [moveLink_linkDelay]
      simp [setDelay, vmod]
    · rw [link_moveLink_same]; rfl
  · rw [exec_trainStepDone_service hserv, hnone, List.isEmpty_nil, if_pos rfl]
  · rw [exec_trainStepDone_service hserv, if_neg (by simpa using hsome)]
    rfl
  · rw [exec_trainStepTimeout hstep, if_pos hfirst, modLink_eq]
  · have hdown : (s.linkDown l .trainFail).rhl.link[l].state ≠ .loc := by rw [linkDown_state]; exact nofun
    refine ⟨_, (exec_trainStepTimeout hstep).trans (congrArg _ (if_neg hagain)), ?_, ?_⟩
    · rw [ringReady_link_of_ne_loc hdown, linkDown_state]
    · rw [ringReady_link_of_ne_loc hdown, linkDown_code]
  · refine ⟨_, exec_linkLockLost hlock, ?_, ?_, fun k hk => link_moveLink_ne s hk .., moveLink_mem ..⟩
    · rw [link_moveLink_same]
    · rw [link_moveLink_same]; rfl

/-! ## Consensus words (R438, R442, R444 to R447)

What a consensus word brings after its link group has noted it leaves what the link groups know of their peers. -/

/-- What a link group knows of its peer. -/
def peerView (x : LinkSt) : Option CWord × Bool × Nat × Bool × Code := (x.peer, x.heard, x.silent, x.peerOk, x.code)

/-- What the link groups know of their peers, and device memory. -/
def heardPart (s : State) : Vector (Option CWord × Bool × Nat × Bool × Code) 8 × Memory := (s.rhl.link.map peerView, s.mem)

section
variable {s t : State}
theorem mem_of_heardPart (h : heardPart t = heardPart s) : t.mem = s.mem := congrArg (·.2) h

theorem peerView_of_heardPart (h : heardPart t = heardPart s) (l : Link) : peerView t.rhl.link[l] = peerView s.rhl.link[l] := by
  have hl := congrArg (fun p => p.1[l]) h
  simpa [heardPart] using hl
end

section
variable (s : State)

@[simp] theorem floodReshape_heardPart (l js ls) : heardPart (s.floodReshape l js ls) = heardPart s := by
  rw [heardPart, floodReshape_link, floodReshape_mem, heardPart]

theorem moveLink_heardPart (l : Nat) (next : LinkState) {f : LinkSt → LinkSt} (hf : ∀ x, peerView (f x) = peerView x) :
    heardPart (s.moveLink l next f) = heardPart s := by
  have hlink : (s.moveLink l next f).rhl.link.map peerView = s.rhl.link.map peerView := by
    rw [moveLink_link]
    exact vmodN_map (f := fun x => { f x with state := next }) (fun x => hf x) ..
  rw [heardPart, hlink, moveLink_mem, heardPart]

@[simp] theorem endColls_heardPart (mask c) : heardPart (s.endColls mask c) = heardPart s := by
  have hlink : (s.endColls mask c).rhl.link.map noLease = s.rhl.link.map noLease := congrArg Ring.link (ring_of_fixed (endColls_fixed s mask c))
  have hview := congrArg (Vector.map peerView) hlink
  have hmem : (s.endColls mask c).mem = s.mem := each_mem (fun u i => endStep_mem u i c) ..
  rw [Vector.map_map, Vector.map_map] at hview
  exact Prod.ext hview hmem

@[simp] theorem learnPending_heardPart (w) : heardPart (learnPending s w) = heardPart s := by
  unfold learnPending
  dsimp only
  split <;> rfl

@[simp] theorem beatApart_heardPart (l w) : heardPart (beatApart s l w) = heardPart s := by unfold beatApart; split <;> simp
@[simp] theorem tryJoin_heardPart : heardPart (tryJoin s) = heardPart s := by unfold tryJoin; dsimp only; split <;> simp
@[simp] theorem tryMerge_heardPart (l w) : heardPart (tryMerge s l w) = heardPart s := by unfold tryMerge; split <;> simp

@[simp] theorem acceptedWord_heardPart (l w) : heardPart (acceptedWord s l w) = heardPart s := by
  have learned (c : Bool) : heardPart (if c then learnPending s w else s) = heardPart s := by split <;> simp
  have moved (c : Bool) (u : State) : heardPart (if c then u.moveLink l (joinedState u l) fun x => x else u) = heardPart u := by
    split
    · exact moveLink_heardPart _ _ _ fun _ => rfl
    · rfl
  simp only [acceptedWord, tryMerge_heardPart, tryJoin_heardPart, beatApart_heardPart, moved, learned]

@[simp] theorem refusedJoiner_heardPart (l w o) : heardPart (refusedJoiner s l w o) = heardPart s := by
  have toTransit (x : LinkSt) : peerView (if x.state = .up then { x with state := .transit } else x) = peerView x := by split <;> rfl
  unfold refusedJoiner
  split
  · split
    · exact Prod.ext (by simp [heardPart, State.realignLink, Function.comp_def, toTransit]) rfl
    · split
      · exact moveLink_heardPart _ _ _ fun _ => rfl
      · rfl
    · rfl
  · rfl

theorem peerChanged_mem (l w) : (peerChanged s l w).mem = s.mem := by
  unfold peerChanged
  split
  · split
    · exact reshapeEvent_mem ..
    · rfl
  · rfl

/-- A link group that has noted a word with the outcome of its checks. -/
def wordHeard (w : CWord) (bytes : List Byte) (o : PeerOutcome) (x : LinkSt) : LinkSt :=
  { x with peer := some w, peerBytes := bytes, heard := true, silent := 0, peerOk := o == .accept,
           bypassed := o == .bypass || (o == .duplicate && w.state == 0), code := peerCode o }

/-- The link group notes the word; what follows leaves that. -/
theorem consensusWord_heardPart (l : Nat) (w : CWord) (bytes : List Byte) :
    heardPart (consensusWord s l w bytes) = heardPart ((peerChanged s l w).modLink l (wordHeard w bytes (checkPeer s w))) := by
  unfold consensusWord
  dsimp only
  split
  · rw [acceptedWord_heardPart, refusedJoiner_heardPart]; rfl
  · rw [refusedJoiner_heardPart]; rfl
end

/-! ## Update words (R440, R449, R462) -/

section
variable (s : State)

theorem eq_of_outless {s t : State} (h : { t with out := [] } = { s with out := [] }) : t = { s with out := t.out } :=
  congrArg (fun u : State => { u with out := t.out }) h

/-- Words that leave on the link groups are all that `sendWord` adds. -/
theorem sendWord_eq (bs p) : ∃ o, s.sendWord bs p = { s with out := o } :=
  ⟨_, eq_of_outless (each_proj (fun u => { u with out := [] }) _ (fun u l => by split <;> rfl) _ s)⟩

/-- An update word not seen before, noted and sent on. -/
def wordNoted (l : Nat) (w : CWord) (bytes : List Byte) : State :=
  forwardWord (s.modRhl fun r => { r with seen := (w.kind, w.rank, w.beat) :: r.seen.filter fun e => decide (s.beat ≤ e.2.2 + 4096) }) l bytes

variable (l : Nat) (w : CWord) (bytes : List Byte)

/-- An update word that is noted and sent on changes what has been seen, and nothing else that its application reads. -/
theorem wordNoted_eq : ∃ o rest, wordNoted s l w bytes =
    { s with out := o, rhl := { s.rhl with seen := (w.kind, w.rank, w.beat) :: rest } } := by
  unfold wordNoted forwardWord
  obtain ⟨o, ho⟩ := sendWord_eq (s.modRhl fun r => { r with
    seen := (w.kind, w.rank, w.beat) :: r.seen.filter fun e => decide (s.beat ≤ e.2.2 + 4096) }) bytes _
  exact ⟨o, _, ho⟩

theorem wordNoted_tmp : (wordNoted s l w bytes).tmp = s.tmp := by
  obtain ⟨o, rest, ho⟩ := wordNoted_eq s l w bytes
  rw [ho]

theorem fellowMember_wordNoted : fellowMember (wordNoted s l w bytes) w = fellowMember s w := by
  obtain ⟨o, rest, ho⟩ := wordNoted_eq s l w bytes
  rw [ho]
  rfl

theorem ownMaster_wordNoted : ownMaster (wordNoted s l w bytes) = ownMaster s := by
  obtain ⟨o, rest, ho⟩ := wordNoted_eq s l w bytes
  rw [ho]
  rfl
end

section
variable {s : State} {l : Link} {w : CWord} {bytes : List Byte}

theorem wordArrives_bad (hlive : linkLive s.rhl.link[l].state = true) (hparse : parseWord bytes = none) :
    wordArrives s l bytes = { s with rhl := { s.rhl with wordBad := s.rhl.wordBad + 1 } } := by
  rw [wordArrives, linkSt_get, if_pos hlive, hparse]
  rfl

theorem wordArrives_consensus (hlive : linkLive s.rhl.link[l].state = true) (hparse : parseWord bytes = some w) (hkind : w.kind = 0) :
    wordArrives s l bytes = consensusWord s l w bytes := by
  rw [wordArrives, linkSt_get, if_pos hlive, hparse]
  exact if_pos hkind

theorem wordArrives_update (hlive : linkLive s.rhl.link[l].state = true) (hparse : parseWord bytes = some w) (hkind : w.kind ≠ 0) :
    wordArrives s l bytes = updateWord s l w bytes := by
  rw [wordArrives, linkSt_get, if_pos hlive, hparse]
  exact if_neg hkind

/-- An update word is applied once. -/
theorem updateWord_of_seen (hseen : s.rhl.seen.contains (w.kind, w.rank, w.beat) = true) : updateWord s l w bytes = s := if_pos hseen

theorem updateWord_of_new (hseen : s.rhl.seen.contains (w.kind, w.rank, w.beat) = false) :
    updateWord s l w bytes = applyUpdate (wordNoted s l w bytes) w bytes := if_neg (Bool.eq_false_iff.mp hseen)

theorem exec_updateWordReceive_new (hlive : linkLive s.rhl.link[l].state = true) (hparse : parseWord bytes = some w) (hkind : w.kind ≠ 0)
    (hseen : s.rhl.seen.contains (w.kind, w.rank, w.beat) = false) :
    exec (.updateWordReceive l bytes) s = .next (applyUpdate (wordNoted s l w bytes) w bytes) :=
  congrArg Host.Outcome.next ((wordArrives_update hlive hparse hkind).trans (updateWord_of_new hseen))

/-! ### GRADE words (R67, R68) -/

/-- Of the grades, a member that is admitted touches the standing ones only. -/
theorem addMember_eq (s : State) (r : Nat) : ∃ st, s.addMember r =
    { s with rhl := { s.rhl with members := insertRank r s.rhl.members }, grade := { s.grade with standing := st } } := by
  unfold State.addMember
  dsimp only
  split
  · exact ⟨s.grade.standing, rfl⟩
  · exact ⟨_, rfl⟩

theorem frameOfLow_of_tmp {s t : State} (h : t.tmp = s.tmp) (low : Nat) : frameOfLow t low = frameOfLow s low := by
  have hbeat : t.beat = s.beat := congrArg Tempo.beat h
  rw [frameOfLow, hbeat, frameOfLow]

/-- A member of the own domain, admitted and heard in the roll (R666). -/
def memberHeard (s : State) (w : CWord) : State := (s.addMember w.rank).modRhl fun r => { r with roll := r.roll.map fun e => (e.1, w.rank :: e.2) }

/-- A GRADE word of a member of the own domain, its announcement in time. -/
theorem gradeWord_of_member (hfellow : fellowMember s w = true) (hmaster : w.master = ownMaster s) (hpending : w.pendingValid = true)
    (htime : frameOf w.beat + 2 ≤ frameOfLow s w.effFrame) : gradeWord s w = (memberHeard s w).modGrade fun g =>
      { g with announced := g.announced ++ [{ rank := w.rank, own := false, grade := w.pendingGrade, eff := frameOfLow s w.effFrame }] } := by
  have hlow := frameOfLow_of_tmp (s := s) (t := memberHeard s w) (addMember_tmp s w.rank) w.effFrame
  rw [← hlow] at htime ⊢
  unfold gradeWord
  rw [if_pos (by simp [hfellow, hmaster])]
  exact if_pos (Bool.and_eq_true_iff.mpr ⟨hpending, decide_eq_true htime⟩)

/-- A GRADE word from outside the own domain is not applied. -/
theorem gradeWord_of_stranger (h : fellowMember s w = false ∨ w.master ≠ ownMaster s) : gradeWord s w = s := by
  refine if_neg fun hin => ?_
  obtain ⟨hfellow, hmaster⟩ := Bool.and_eq_true_iff.mp hin
  obtain h | h := h
  · exact absurd (h.symm.trans hfellow) Bool.false_ne_true
  · exact h (beq_iff_eq.mp hmaster)

/-- A RESHAPE word of a package that is no MEMBER brings in no domain. -/
theorem reshapeWord_of_not_member (h : w.state ≠ 1) : reshapeWord s w = s.modRhl fun r => { r with reshapes := r.reshapes ++
    [{ d := w.beat, rank := w.rank, link := none, joins := if w.state = 0 then [w.rank] else []
       leaves := if w.state = 2 ∨ w.state = 3 then [w.rank] else [], aborted := false }] } := by
  have hmerge : (fellowMember s w && w.master != ownMaster s) = false := by simp [fellowMember, h]
  unfold reshapeWord
  rw [hmerge]
  rfl

/-! ## Silence, and a package without a peer (R438, R445) -/

theorem exec_consensusWordTimeout (hlive : linkLive s.rhl.link[l].state = true) (hsilent : s.rhl.link[l].heard = false) :
    exec (.consensusWordTimeout l) s = .next (if s.rhl.link[l].silent = 2 then s.linkDown l .linkDown
      else s.modLink l fun x => { x with silent := x.silent + 1 }) := by
  change execConsensusWordTimeout l s = _
  unfold execConsensusWordTimeout
  rw [linkSt_get]
  exact congrArg _ (if_pos (by rw [hlive, hsilent]; rfl))

/-- A package alone in its domain. -/
def aloneIn (s : State) : State :=
  ((s.modGrade fun g => { g with standing := [], ownStanding := g.now, ownAnnounced := none }).modRhl fun r =>
    { r with state := .member, members := [], joinBeats := 0 }).addMember (ownRank s)

theorem aloneIn_eq (s : State) : ∃ g, aloneIn s =
    { s with rhl := { s.rhl with state := .member, members := [ownRank s], joinBeats := 0 }, grade := g } := by
  unfold aloneIn
  obtain ⟨st, hst⟩ := addMember_eq ((s.modGrade fun g => { g with standing := [], ownStanding := g.now, ownAnnounced := none }).modRhl fun r =>
    { r with state := .member, members := [], joinBeats := 0 }) (ownRank s)
  exact ⟨_, hst⟩

theorem exec_domainOfOne (hrank : s.rhl.rank ≠ none) (hjoining : ownState s = .joining) (hbeats : 2 ≤ s.rhl.joinBeats)
    (hframe : s.tmp.beat % 1024 = 0) : exec .domainOfOne s = .next (aloneIn s).remasterDue := by
  refine congrArg Host.Outcome.next (if_pos ?_)
  simp [Option.isSome_iff_ne_none, hrank, hjoining, hbeats, bInF, State.beat, hframe]

/-- The ring unit with its members counted, the lowest rank of them the beat master (R42). -/
def mastered (r : Ring) : Ring :=
  { r with counted := r.members, master := match r.members with
      | [] => none
      | m :: ms => some (ms.foldl min m) }

/-- Besides the master and the members counted, a new master changes the tempo unit only. -/
theorem remaster_proj {γ : Type} (g : State → γ) (hg : ∀ u f, g (State.modTmp u f) = g u) (s : State) :
    g s.remaster = g (s.modRhl mastered) := by
  have own (u : State) : g (if ownMaster u = ownRank u then u.modTmp fun t => { t with realign := .none } else u) = g u := by
    split
    · exact hg _ _
    · rfl
  exact (own _).trans (hg _ _)
end

/-- Settles O48: each word by its kind and by whether it has been seen; silence by its count. -/
theorem consensusAndUpdateWords : Obligations.ConsensusAndUpdateWords := by
  unfold Obligations.ConsensusAndUpdateWords
  intro l bytes s
  refine ⟨fun hlive => ⟨fun hbad => ?_, fun w hw => rfl, fun w hw hkind => ?_, fun w hw hkind hseen => ?_,
    fun w hw hnew => ⟨fun hkind hfellow hmaster hpending htime => ?_, fun hkind hstranger => ?_, fun hkind hstate => ?_, fun hkind => ?_⟩⟩,
    fun hlive hsilent => ⟨fun hmore => ?_, fun hthird => ?_⟩, fun hrank hjoining hbeats hframe hcounted => ?_⟩
  · exact ⟨congrArg Host.Outcome.next (wordArrives_bad hlive hbad), congrArg Host.Outcome.next (wordArrives_bad hlive hbad)⟩
  · have hview := peerView_of_heardPart (consensusWord_heardPart s l w bytes) l
    rw [link_modLink_same] at hview
    simp only [peerView, wordHeard, Prod.mk.injEq] at hview
    obtain ⟨hpeer, hheard, hsilent, hok, hcode⟩ := hview
    exact ⟨_, congrArg Host.Outcome.next (wordArrives_consensus hlive hw hkind), hpeer, hheard, hsilent, hok, hcode,
      (mem_of_heardPart (consensusWord_heardPart s l w bytes)).trans (peerChanged_mem s l w)⟩
  · exact congrArg Host.Outcome.next ((wordArrives_update hlive hw hkind).trans (updateWord_of_seen hseen))
  · refine ⟨_, exec_updateWordReceive_new hlive hw (by simp [hkind]) hnew, ?_⟩
    have hlow := frameOfLow_of_tmp (wordNoted_tmp s l w bytes) w.effFrame
    have happlied := gradeWord_of_member ((fellowMember_wordNoted s l w bytes).trans hfellow)
      (hmaster.trans (ownMaster_wordNoted s l w bytes).symm) hpending (Nat.le_trans htime (Nat.le_of_eq hlow.symm))
    obtain ⟨o, rest, ho⟩ := wordNoted_eq s l w bytes
    obtain ⟨st, hst⟩ := addMember_eq (wordNoted s l w bytes) w.rank
    rw [applyUpdate, if_pos hkind, happlied, hlow, memberHeard, hst]
    rw [ho]
    exact ⟨rfl, rfl, List.elem_cons_self, rfl⟩
  · refine ⟨_, exec_updateWordReceive_new hlive hw (by simp [hkind]) hnew, ?_⟩
    rw [applyUpdate, if_pos hkind, gradeWord_of_stranger (by rwa [fellowMember_wordNoted, ownMaster_wordNoted])]
    obtain ⟨o, rest, ho⟩ := wordNoted_eq s l w bytes
    rw [ho]
    exact ⟨rfl, rfl, List.elem_cons_self, rfl⟩
  · refine ⟨_, exec_updateWordReceive_new hlive hw (by simp [hkind]) hnew, ?_⟩
    rw [applyUpdate, if_neg (by simp [hkind]), if_pos hkind, reshapeWord_of_not_member hstate]
    obtain ⟨o, rest, ho⟩ := wordNoted_eq s l w bytes
    rw [ho]
    exact ⟨rfl, List.elem_cons_self, rfl⟩
  · refine ⟨_, exec_updateWordReceive_new hlive hw (by simp [hkind]) hnew, ?_⟩
    rw [applyUpdate, if_neg (by simp [hkind]), if_neg (by simp [hkind]), if_pos hkind]
    obtain ⟨o, rest, ho⟩ := wordNoted_eq s l w bytes
    rw [ho]
    exact ⟨rfl, List.elem_cons_self, rfl⟩
  · rw [exec_consensusWordTimeout hlive hsilent, if_neg hmore, modLink_eq]
  · exact ⟨_, (exec_consensusWordTimeout hlive hsilent).trans (congrArg _ (if_pos hthird)), linkDown_state .., linkDown_code ..⟩
  · obtain ⟨g, hg⟩ := aloneIn_eq s
    have hdue : (aloneIn s).remasterDue = (aloneIn s).remaster := by
      refine if_neg ?_
      rw [hg, hcounted]
      exact Bool.false_ne_true
    refine ⟨_, exec_domainOfOne hrank hjoining hbeats hframe, ?_⟩
    rw [hdue, remaster_proj State.rhl fun _ _ => rfl, remaster_proj State.mem fun _ _ => rfl, hg]
    exact ⟨rfl, rfl, rfl, rfl, rfl⟩

/-! ## Flits that a collective takes (R454, R457 to R460)

A flit that is kept is written into local memory after what the matrix engine of the tile has on its way (Table 4-2). -/

/-- Local memory once the writes of a tile's matrix engine are done. -/
def settledLocal (s : State) (tile : Nat) : NMap Byte := mxeDone s.tile.localMem (s.tile.mxeOut.filter fun w => w.tile == tile)

/-- The bytes of words, least significant first. -/
def wordBytes (ws : List W32) : List Byte := ws.flatMap fun w => leBytes 4 w.toNat

section
variable (s : State)

theorem collPut_localMem (c : Coll) (e : Nat) (ws : List W32) : (s.collPut c e ws).tile.localMem =
    msetN 0 (settledLocal s c.tile) (localKey c.tile (c.laddr + 4 * e)) (wordBytes ws) := rfl

theorem collSend_tile (step y f) : (s.collSend step y f).tile = s.tile := by
  unfold State.collSend
  split
  · split <;> rfl
  · rfl

/-- A collective whose phase under way needs more stays in it. -/
theorem advanceColl_of_left {step : Nat} {c : Coll} (hc : getColl s step = some c) (hleft : c.left ≠ 0) (k : Nat) :
    s.advanceColl step k = s := by
  cases k with
  | zero => rfl
  | succ k => rw [State.advanceColl, hc]; exact if_pos hleft

theorem getColl_modColl {step : Nat} {c : Coll} (hc : getColl s step = some c) {f : Coll → Coll} (hf : ∀ x, (f x).step = x.step) :
    getColl (s.modColl step f) step = some (f c) := by
  have hstep : c.step = step := by simpa using List.find?_some hc
  have hmap := find?_map_invariant (fun x : Coll => x.step == step) (fun x => if x.step = step then f x else x)
    (fun x => by split <;> simp [hf]) s.rhl.colls
  rw [getColl] at hc ⊢
  exact hmap.trans (by rw [hc, Option.map_some, if_pos hstep])

/-- What waits for a credit is all that sending a flit changes of the collectives. -/
theorem getColl_collSend {step : Nat} {c : Coll} (hc : getColl s step = some c) (y f) :
    ∃ ws, getColl (s.collSend step y f) step = some { c with waiting := ws } := by
  unfold State.collSend
  split
  · split
    · exact ⟨c.waiting, hc⟩
    · exact ⟨_, getColl_modColl s hc fun _ => rfl⟩
  · exact ⟨c.waiting, hc⟩
end

section
variable {s : State} {c : Coll} {ph : CollPhase} {f : RingFlit} {rest : List CollPhase}

/-- A flit of a gather or a broadcast is kept, and passed on to the next position or not. -/
theorem collFlit_kept (hkind : ph.kind ≠ .reduce) (hgood : f.poison = false) : ∃ last : Bool, s.collFlit c ph f =
    (let u := s.collPut c ((chunkRange ph f.chunk).1 + 16 * f.index) f.vals
     (if last then u else u.collSend c.step ph.y f).modColl c.step fun x => { x with left := x.left - f.vals.length }) := by
  unfold State.collFlit
  simp only [hkind, if_false, if_true]
  rw [if_neg (Bool.eq_false_iff.mp hgood)]
  exact ⟨_, rfl⟩

/-- A flit that leaves its phase in need of more is taken, and no more. -/
theorem takeRingFlit_kept {y : Bool} (hc : getColl s c.step = some c) (hphases : c.phases = ph :: rest) (hkind : ph.kind ≠ .reduce)
    (hin : inPhase ph y f = true) (hmore : f.vals.length < c.left) (hgood : f.poison = false) :
    takeRingFlit s c y f = s.collFlit c ph f := by
  have hstay : (s.collFlit c ph f).advanceColl c.step (c.phases.length + 1) = s.collFlit c ph f := by
    obtain ⟨last, hkept⟩ := collFlit_kept (s := s) (c := c) hkind hgood
    have hput : getColl (s.collPut c ((chunkRange ph f.chunk).1 + 16 * f.index) f.vals) c.step = some c := hc
    have hsent : ∃ ws, getColl (s.collFlit c ph f) c.step = some { c with waiting := ws, left := c.left - f.vals.length } := by
      rw [hkept]
      cases last with
      | true => exact ⟨c.waiting, getColl_modColl _ hput fun _ => rfl⟩
      | false =>
        obtain ⟨ws, hws⟩ := getColl_collSend _ hput ph.y f
        exact ⟨ws, getColl_modColl _ hws fun _ => rfl⟩
    obtain ⟨ws, hws⟩ := hsent
    exact advanceColl_of_left _ hws (Nat.sub_ne_zero_of_lt hmore) _
  have htaken : (inPhase ph y f && decide (f.vals.length ≤ c.left)) = true := by simp [hin, Nat.le_of_lt hmore]
  unfold takeRingFlit
  rw [hphases] at hstay ⊢
  exact (if_pos htaken).trans hstay

/-- A flit of an UP link group for a collective in flight. -/
theorem exec_ringFlitReceive_up {l : Link} (hup : s.rhl.link[l].state = .up)
    (hfind : (s.rhl.colls.find? fun c => c.part == f.part.val && c.planId == f.planId && c.start == f.start) = some c) :
    exec (.ringFlitReceive l f) s = .next (takeRingFlit s c (decide (4 ≤ l.val)) f) := by
  change execRingFlitReceive l f s = _
  rw [execRingFlitReceive, linkSt_get, hup]
  dsimp only
  rw [hfind]

/-- The elements of a flit that is kept go into local memory over what the tile's matrix engine has on its way. -/
theorem collFlit_localMem (hkind : ph.kind ≠ .reduce) (hgood : f.poison = false) : (s.collFlit c ph f).tile.localMem =
    msetN 0 (settledLocal s c.tile) (localKey c.tile (c.laddr + 4 * ((chunkRange ph f.chunk).1 + 16 * f.index))) (wordBytes f.vals) := by
  obtain ⟨last, hkept⟩ := collFlit_kept (s := s) (c := c) hkind hgood
  rw [hkept, ← collPut_localMem]
  cases last with
  | true => rfl
  | false => exact congrArg Tiles.localMem (collSend_tile _ _ _ _)
end

/-! ### A matrix engine that still writes -/

/-- A gather of 40 elements along X at position 0 of 2. -/
def gatherX : CollPhase := { kind := .gather, y := false, pos := 0, size := 2, base := 0, count := 40, rootPos := 0 }

/-- A collective of tile 5 that gathers at local address 64. -/
def gathering : Coll where
  step := 1
  part := 0
  planId := 2
  start := 5000
  int32 := false
  tile := 5
  laddr := 64
  phases := [gatherX]
  left := 20
  poisoned := false
  waiting := []
  early := []

/-- An element of the other position's chunk. -/
def gatheredFlit : RingFlit :=
  { red := false, part := 0, planId := 2, start := 5000, chunk := 1, index := 0, poison := false, vals := [7] }

/-- The collective in flight and its link group UP, with a byte that MXE.ST of the same tile
has on its way to local address 4,096, as it has for 8 cycles (Table 4-2). -/
def gatherDuringMxe : State := { State.reset with
  tile := { State.reset.tile with mxeOut := [{ tile := 5, addr := 4096, bytes := [1], at_ := 8 }] }
  rhl := { State.reset.rhl with link := State.reset.rhl.link.set 0 { state := .up }, colls := [gathering] } }

/-- The byte that the matrix engine had on its way stands in local memory after the flit. -/
theorem localMem_gatherDuringMxe {t : State} (h : exec (.ringFlitReceive 0 gatheredFlit) gatherDuringMxe = .next t) :
    mget 0 t.tile.localMem (localKey 5 4096) = 1 := by
  have htaken : takeRingFlit gatherDuringMxe gathering false gatheredFlit = gatherDuringMxe.collFlit gathering gatherX gatheredFlit :=
    takeRingFlit_kept rfl rfl (by decide) rfl (by decide) rfl
  have ht : t = gatherDuringMxe.collFlit gathering gatherX gatheredFlit :=
    (Host.Outcome.next.inj (h.symm.trans (exec_ringFlitReceive_up (l := 0) (c := gathering) rfl rfl))).trans htaken
  rw [ht, collFlit_localMem (by decide) rfl]
  decide

/-- Refutes O49: its clause on a flit that is taken leaves out that the write into local memory comes after what the tile's matrix engine has
on its way (Table 4-2), so with such a write outstanding local memory gains more than the elements of the flit. -/
theorem not_collectivesOnTheRing : ¬ Obligations.CollectivesOnTheRing := by
  unfold Obligations.CollectivesOnTheRing
  intro h
  obtain ⟨-, -, -, -, htake⟩ := h 0 gatheredFlit gatherDuringMxe
  obtain ⟨t, ht, hlocal, -⟩ := htake gathering gatherX [] rfl rfl rfl rfl (by decide) rfl (by decide) rfl
  have hbyte := localMem_gatherDuringMxe ht
  rw [hlocal] at hbyte
  exact absurd hbyte (by decide)

end Sys2Proof.Proofs

/-! SUPPORT. The statements on power, thermal and authority (13). First what the stages of the power state leave of the orders, and the
orders of the four sources; then what powering the dies down leaves of them, the issue limiter, and the samples of the tiles. -/

namespace Sys2Proof.Proofs

open Sys2Proof Sys2Proof.Machine Sys2Proof.Laws

/-! ## What leaves the orders alone

### Signals, steps, rails and hub steps -/

theorem pwr_of_fixed {s t : State} (h : fixed t = fixed s) : t.pwr = s.pwr := congrArg Fixed.pwr h

section
variable (s : State)

@[simp] theorem powerEvent_orders (b) : (s.powerEvent b).pwr.orders = s.pwr.orders := rfl
@[simp] theorem refreshGood_pwr : s.refreshGood.pwr = s.pwr := rfl

@[simp] theorem signalPower_pwr : s.signalPower.pwr = s.pwr := by
  refine pwr_of_fixed ((each_fixed _ (fun u n => ?_) _).trans (signal_fixed s 0 8))
  split
  · exact signal_fixed ..
  · rfl

@[simp] theorem capChange_orders (f : State → State) : (s.capChange f).pwr.orders = (f s).pwr.orders := by
  unfold State.capChange
  dsimp only
  split <;> rfl

@[simp] theorem dropSteps_pwr : (dropSteps s).pwr = s.pwr :=
  pwr_of_fixed ((modStp_fixed ..).trans (each_fixed s (fun _ _ => (unpin_fixed ..).trans (clearStep_fixed ..)) _))

@[simp] theorem railsLost_orders : (railsLost s false).pwr.orders = s.pwr.orders := rfl

@[simp] theorem stageOneFail_orders : (stageOneFail s).pwr.orders = s.pwr.orders := by
  unfold stageOneFail
  dsimp only
  split <;> split <;> rfl

@[simp] theorem hubStep_orders (k) : (hubStep s k).pwr.orders = s.pwr.orders := by
  unfold hubStep
  dsimp only
  split
  · exact stageOneFail_orders _
  · rfl

@[simp] theorem seqOp_pwr (n o) : (seqOp s n o).pwr = s.pwr := by
  unfold seqOp
  repeat' split
  all_goals rfl

@[simp] theorem seqUpAll_pwr (n) : (seqUpAll s n).pwr = s.pwr :=
  each_proj State.pwr _ (fun u o => seqOp_pwr u n o) (upList s) s

/-! ### The stages of the power state (R489 to R493) -/

@[simp] theorem enterOff_orders : (enterOff s).pwr.orders = s.pwr.orders := by
  show (dropSteps (writeWear s)).pwr.orders = _
  rw [dropSteps_pwr]
  rfl

@[simp] theorem enterStandby_orders : (enterStandby s).pwr.orders = s.pwr.orders := rfl

@[simp] theorem leaveStandby_orders : (leaveStandby s).pwr.orders = s.pwr.orders := hubStep_orders _ _

@[simp] theorem leavePark_orders : (leavePark s).pwr.orders = s.pwr.orders := by
  have hup (xs : List Nat) (u : State) : (u.each xs seqUpAll).pwr = u.pwr := each_proj State.pwr seqUpAll seqUpAll_pwr xs u
  simp [leavePark, hup]

@[simp] theorem settlePower_orders : (settlePower s).pwr.orders = s.pwr.orders := by
  unfold settlePower
  dsimp only
  split
  · rfl
  · rw [refreshGood_pwr]
    split
    · split <;> simp
    · split <;> simp
    · split
      · split <;> rfl
      all_goals simp
    · split <;> simp

/-- The stage follows the orders and leaves them as they were changed. -/
@[simp] theorem order_orders (f : Orders → Orders) : (s.order f).pwr.orders = f s.pwr.orders := by
  unfold State.order
  dsimp only
  rw [settlePower_orders]
  split <;> simp
end

/-! ## OFF becomes effective (R483, R489) -/

theorem effState_of_rackOff {s : State} (hrack : s.pwr.orders.rack = .off) (hgrace : s.pwr.orders.offLeft = none) : effState s = .off := by
  have plower_off (b : PState) : plower .off b = .off := by cases b <;> rfl
  simp [effState, effStateOf, rackEffective, hrack, hgrace, plower_off]

theorem settlePower_off {s : State} (hlive : powerLive s = true) (heff : effState s = .off) : (settlePower s).pwr.stage = .off := by
  simp only [settlePower, hlive, heff, Bool.not_true, Bool.false_eq_true, ↓reduceIte, refreshGood_pwr]
  split
  · assumption
  · rfl

/-- A change of the orders that makes OFF effective brings the package there. -/
theorem order_off {s : State} {f : Orders → Orders} (hlive : powerLive s = true) (hrack : (f s.pwr.orders).rack = .off)
    (hgrace : (f s.pwr.orders).offLeft = none) : (s.order f).pwr.stage = .off := by
  have horders : (s.capChange fun s => s.modPwr fun p => { p with orders := f p.orders }).pwr.orders = f s.pwr.orders := by simp
  have hrst : (s.capChange fun s => s.modPwr fun p => { p with orders := f p.orders }).rst = s.rst := by
    unfold State.capChange
    dsimp only
    split <;> rfl
  unfold State.order
  dsimp only
  split <;>
    exact settlePower_off (by simpa [powerLive, State.powerEvent, hrst] using hlive)
      (effState_of_rackOff (by simp [hrack]) (by simp [hgrace]))

/-! ## Orders of the host (R474, R476, R477, R484) -/

section
variable {s : State} {w : Nat} {p : PState}

theorem hostCap_refused (h : capOk s w = false) : hostCap s w = (s, .capRange) := by simp [hostCap, h]

theorem hostCap_taken (h : capOk s w = true) (hrack : ∀ r, s.pwr.orders.capRack = some r → w ≤ r) :
    hostCap s w = (s.order fun o => { o with capHost := w }, .ok) := by
  simp only [hostCap, h, Bool.not_true, Bool.false_eq_true, ↓reduceIte]
  split
  · next r hr => rw [if_neg (Nat.not_lt.mpr (hrack r hr))]
  · rfl

theorem hostCap_held {r : Nat} (h : capOk s w = true) (hrack : s.pwr.orders.capRack = some r) (hlt : r < w) :
    hostCap s w = (s.rackHold false r w, .rackHold) := by
  simp [hostCap, h, hrack, hlt]

theorem hostState_taken (h : pnum s.pwr.orders.rack ≤ pnum p) : hostState s p = (s.order fun o => { o with host := p }, .ok) :=
  if_neg (Nat.not_lt.mpr h)

/-- A host order that the rack holds off is recorded, and changes power's record of it alone (Table 13-6). -/
theorem rackHold_spec (s : State) (kind : Bool) (rack host : Nat) :
    (s.rackHold kind rack host).pwr.holdCount = s.pwr.holdCount + 1 ∧ (s.rackHold kind rack host).pwr.orders = s.pwr.orders ∧
      s.rackHold kind rack host = { s with pwr := (s.rackHold kind rack host).pwr } ∧ (s.rackHold kind rack host).pwr.holdLast =
        { beat := BitVec.ofNat 24 s.tmp.beat, kind := kind, rack := BitVec.ofNat 16 rack, host := BitVec.ofNat 16 host } :=
  ⟨rfl, rfl, rfl, rfl⟩

theorem hostState_held (h : pnum p < pnum s.pwr.orders.rack) :
    hostState s p = (s.rackHold true (pnum s.pwr.orders.rack) (pnum p), .rackHold) := if_pos h

/-! ### Writes of the host's registers -/

variable {fn : Fn} (hup : s.hif.linkUp = true) (hdec : decodes s fn = true) (v : W32)
include hup hdec

theorem exec_pwrCapHostWrite_vf (hfn : fn.val ≠ 0) : exec (.pwrCapHostWrite fn v) s = .next s :=
  congrArg Host.Outcome.next ((hostAccess_open hup hdec _).trans (if_neg hfn))

theorem exec_pwrStateHostWrite_vf (hfn : fn.val ≠ 0) : exec (.pwrStateHostWrite fn v) s = .next s :=
  congrArg Host.Outcome.next ((hostAccess_open hup hdec _).trans (if_neg hfn))

theorem exec_pwrCapHostWrite_pf (hfn : fn.val = 0) : exec (.pwrCapHostWrite fn v) s = .next (hostCap s (v.toNat % 65536)).1 :=
  congrArg Host.Outcome.next ((hostAccess_open hup hdec _).trans (if_pos hfn))

theorem exec_pwrStateHostWrite_pf (hfn : fn.val = 0) : exec (.pwrStateHostWrite fn v) s = .next (hostState s (pstateOf v.toNat)).1 :=
  congrArg Host.Outcome.next ((hostAccess_open hup hdec _).trans (if_pos hfn))
end

/-! ## Orders over the side-band (R478, R485 to R488, R592) -/

section
variable {s : State} (haon : s.rst.aon = true)
include haon

theorem sideOrder_eq {f : State → State × Code} {u : State} {c : Code} (h : f s = (u, c)) : sideOrder s f = u.emit (.sideband c) := by
  simp [sideOrder, haon, h]

/-- An order that is taken changes the orders as it says and is answered. -/
theorem sideOrder_taken (f : State → State × Code) {u : State} {g : Orders → Orders} {o : Orders} {c : Code} (h : f s = (u.order g, c))
    (ho : g u.pwr.orders = o) : (sideOrder s f).pwr.orders = o ∧ (sideOrder s f).out.getLast? = some (.sideband c) := by
  rw [sideOrder_eq haon h, ← ho]
  exact ⟨order_orders u g, List.getLast?_concat⟩
end

section
variable {s : State} {w : Nat}

theorem rackCap_taken (h : capOk s w = true) : rackCap s (some w) = (s.order fun o => { o with capRack := some w }, .ok) := if_pos h
theorem rackCap_refused (h : capOk s w = false) : rackCap s (some w) = (s, .capRange) := if_neg (by simp [h])
theorem boardCap_taken (h : capOk s w = true) : boardCap s w = (s.order fun o => { o with capBoard := w }, .ok) := if_pos h
theorem boardCap_refused (h : capOk s w = false) : boardCap s w = (s, .capRange) := if_neg (by simp [h])

/-- A rack state order starts the count of OFF anew. -/
def rackOrdered (s : State) : State := s.modPwr fun p => { p with offBeats := 0 }

/-- A rack OFF order with a grace time, announced to the host (R487). -/
def offAnnounced (s : State) : State := ((rackOrdered s).powerEvent evRackOff).signalPower

theorem rackState_off (grace : Option Nat) :
    rackState s .off grace false = ((offAnnounced s).order fun o => o.rackOff (grace.getD 10), .ok) := rfl

theorem rackState_plain {p : PState} {force : Bool} (h : p ≠ .off ∨ force = true) (grace : Option Nat) :
    rackState s p grace force = ((rackOrdered s).order fun o => o.rackPlain p, .ok) :=
  if_neg fun e => h.elim (· e.1) fun hf => Bool.noConfusion (hf.symm.trans e.2)

theorem offAnnounced_orders : (offAnnounced s).pwr.orders = s.pwr.orders := by
  rw [offAnnounced, signalPower_pwr]
  rfl

theorem exec_rackOffGraceExpiry_over {n : Nat} (hleft : s.pwr.orders.offLeft = some n) (hover : n = 0 ∨ s.tmp.counting = false) :
    exec .rackOffGraceExpiry s = .next (s.order fun o => { o with offLeft := none, rackBefore := .run }) := by
  show execRackOffGraceExpiry s = _
  simp only [execRackOffGraceExpiry, hleft, hover, ↓reduceIte]
end

/-- Settles O50: each source's order is decided by its range and by the rack's, and a taken order passes the stages unchanged. The expiry is
taken at any count while no beat counts: the manual does not say who counts then, and the model's choice is AON itself (log 78). -/
theorem powerOrders : Obligations.PowerOrders := by
  unfold Obligations.PowerOrders
  intro fn v w p s
  refine ⟨fun hup hdec => ⟨fun hfn => ?_, fun hfn hw hp => ?_⟩, fun haon => ?_, fun n hleft hover => ?_⟩
  · exact ⟨exec_pwrCapHostWrite_vf hup hdec v hfn, exec_pwrStateHostWrite_vf hup hdec v hfn⟩
  · rw [exec_pwrCapHostWrite_pf hup hdec v hfn, exec_pwrStateHostWrite_pf hup hdec v hfn, ← hw, ← hp]
    refine ⟨fun hbad => ?_, fun hok hrack => ?_, fun r hok hrack hlt => ?_, fun hle => ?_, fun hlt => ?_⟩
    · rw [hostCap_refused hbad]
    · rw [hostCap_taken hok hrack]
      exact ⟨_, rfl, by simp only [order_orders]⟩
    · rw [hostCap_held hok hrack hlt]
      exact ⟨_, rfl, rackHold_spec s false r w⟩
    · rw [hostState_taken hle]
      exact ⟨_, rfl, by simp only [order_orders]⟩
    · rw [hostState_held hlt]
      obtain ⟨hcount, horders, honly, -⟩ := rackHold_spec s true (pnum s.pwr.orders.rack) (pnum p)
      exact ⟨_, rfl, hcount, horders, honly⟩
  · refine ⟨fun hok hrack => ?_, fun hle => ?_, fun hok => ⟨?_, ?_⟩, fun hbad => ⟨?_, ?_⟩, ?_, ?_, fun grace => ?_, fun grace force h => ?_⟩
    · exact ⟨_, rfl, sideOrder_taken haon (hostCap · w) (hostCap_taken hok hrack) rfl⟩
    · exact ⟨_, rfl, sideOrder_taken haon (hostState · p) (hostState_taken hle) rfl⟩
    · exact ⟨_, rfl, sideOrder_taken haon (rackCap · (some w)) (rackCap_taken hok) rfl⟩
    · exact ⟨_, rfl, sideOrder_taken haon (boardCap · w) (boardCap_taken hok) rfl⟩
    · exact congrArg Host.Outcome.next (sideOrder_eq haon (rackCap_refused hbad))
    · exact congrArg Host.Outcome.next (sideOrder_eq haon (boardCap_refused hbad))
    · exact ⟨_, rfl, (sideOrder_taken haon (rackCap · none) rfl rfl).1⟩
    · exact ⟨_, rfl, sideOrder_taken haon (fun s => (s.order fun o => { o with board := p }, .ok)) rfl rfl⟩
    · exact ⟨_, rfl, (sideOrder_taken haon (rackState · .off grace false) (rackState_off grace)
        (congrArg (·.rackOff (grace.getD 10)) offAnnounced_orders)).symm⟩
    · exact ⟨_, rfl, sideOrder_taken haon (rackState · p grace force) (rackState_plain h grace) rfl⟩
  · exact ⟨_, exec_rackOffGraceExpiry_over hleft hover, by simp only [order_orders], fun hlive hrack => order_off hlive hrack rfl⟩

/-! ## What powering the dies down leaves alone (R490, R491) -/

theorem rst_of_fixed {s t : State} (h : fixed t = fixed s) : t.rst = s.rst := congrArg Fixed.rst h

section
variable (s : State)

@[simp] theorem sendWord_rst (bs p) : (s.sendWord bs p).rst = s.rst := rst_of_fixed (sendWord_fixed s bs p)
@[simp] theorem sendWord_grn (bs p) : (s.sendWord bs p).grn = s.grn :=
  each_proj State.grn _ (fun s l => by split <;> rfl) _ s

@[simp] theorem reshapeEvent_rst (l js ls) : (s.reshapeEvent l js ls).rst = s.rst := by
  unfold State.reshapeEvent
  split
  · simp [State.floodReshape, State.sendUpdate]
  · rfl

@[simp] theorem reshapeEvent_grn (l js ls) : (s.reshapeEvent l js ls).grn = s.grn := by
  unfold State.reshapeEvent
  split
  · simp [State.floodReshape, State.sendUpdate]
  · rfl

@[simp] theorem clearTiles_grn (p) : (s.clearTiles p).grn = s.grn := rfl

@[simp] theorem seqOp_grn (n o) : (seqOp s n o).grn = s.grn := by
  unfold seqOp
  repeat' split
  all_goals rfl

@[simp] theorem seqDown_grn (n) : (seqDown s n).grn = s.grn :=
  each_proj State.grn _ (fun u o => seqOp_grn u n o) (downList s) s

/-- Which dies are powered. -/
def poweredDies (s : State) : Vector Bool 4 := s.rst.die.map (·.powered)

/-- The clamps and the clocks of a die leave its power alone. -/
theorem modDie_powered {f : DieWake → DieWake} (h : ∀ d, (f d).powered = d.powered) (n : Nat) :
    poweredDies (s.modDie n f) = poweredDies s := vmodN_map h s.rst.die n

theorem seqOp_powered (n o) : poweredDies (seqOp s n o) = poweredDies s := by
  unfold seqOp
  split
  · rfl
  split
  · rfl
  iterate 4 (split; · exact modDie_powered s (by exact fun _ => rfl) n)
  rfl

theorem seqDown_powered (n) : poweredDies (seqDown s n) = poweredDies s :=
  each_proj poweredDies _ (fun u o => seqOp_powered u n o) (downList s) s

/-! ## PARK (R490 to R492) -/

theorem enterPark_stage : (enterPark s).pwr.stage = .parked := rfl
theorem enterPark_diesDown : (enterPark s).pwr.diesDown = true := rfl
theorem enterPark_state : (enterPark s).rhl.state = .leaving := rfl

theorem enterPark_lines : (enterPark s).grn.lines = [] := by
  have hdown (xs : List Nat) (u : State) : (u.each xs seqDown).grn = u.grn := each_proj State.grn seqDown seqDown_grn xs u
  simp only [enterPark, modPwr_grn, modRhl_grn, reshapeEvent_grn, hdown, modRst_grn, clearTiles_grn, modMem_grn, modTrl_grn,
    lines_of_slices (settlePosted_slices _), modHif_grn, modFab_grn, modGrn_grn]

theorem enterPark_powered : poweredDies (enterPark s) = Vector.replicate 4 false := by
  have hdown (xs : List Nat) (u : State) : poweredDies (u.each xs seqDown) = poweredDies u :=
    each_proj poweredDies seqDown seqDown_powered xs u
  have hrst {t u : State} (h : t.rst = u.rst) : poweredDies t = poweredDies u := by rw [poweredDies, poweredDies, h]
  unfold enterPark
  dsimp only
  rw [hrst (modPwr_rst ..), hrst (modRhl_rst ..), hrst (reshapeEvent_rst ..), hdown]
  ext i hi
  simp [poweredDies]

theorem powered_of_poweredDies {t : State} (h : poweredDies t = Vector.replicate 4 false) (n : Die) : t.rst.die[n].powered = false := by
  have hn := congrArg (fun v => v[n]) h
  simpa [poweredDies] using hn

@[simp] theorem refreshGood_grn : s.refreshGood.grn = s.grn := rfl
@[simp] theorem refreshGood_rhl : s.refreshGood.rhl = s.rhl := rfl
theorem refreshGood_powered : poweredDies s.refreshGood = poweredDies s := rfl

/-- A package that has entered PARK, its PKG_GOOD refreshed. -/
theorem parked_spec (n : Die) : (enterPark s).refreshGood.pwr.stage = .parked ∧ (enterPark s).refreshGood.pwr.diesDown = true ∧
    (enterPark s).refreshGood.rst.die[n].powered = false ∧ (enterPark s).refreshGood.grn.lines = [] ∧
    (enterPark s).refreshGood.rhl.state = .leaving := by
  refine ⟨?_, ?_, powered_of_poweredDies ((refreshGood_powered _).trans (enterPark_powered s)) n, ?_, ?_⟩
  · rw [refreshGood_pwr, enterPark_stage]
  · rw [refreshGood_pwr, enterPark_diesDown]
  · rw [refreshGood_grn, enterPark_lines]
  · rw [refreshGood_rhl, enterPark_state]
end

section
variable {s : State}

theorem exec_parkDrainDone_drained (hstage : s.pwr.stage = .draining) (hdone : s.stp.steps.all (fun x => x.phase != .live) = true) :
    exec .parkDrainDone s = .next (enterPark s).refreshGood :=
  congrArg Host.Outcome.next (if_pos ⟨hstage, hdone⟩)

/-- The package that runs again after PARK, and joins the ring it has left (R492). -/
def parkLeft (s : State) : State := (s.modPwr fun p => { p with stage := .run, exitBeats := 0 }).modRhl fun r =>
  { r with state := if r.state = .leaving then .joining else r.state }

theorem exec_parkExitResume_due (hstage : s.pwr.stage = .exiting) (hbeats : 50000 ≤ s.pwr.exitBeats) (hframe : s.tmp.beat % 1024 = 0) :
    exec .parkExitResume s = .next (placeAll (settlePower (parkLeft s))) :=
  congrArg Host.Outcome.next (if_pos ⟨hstage, hbeats, hframe⟩)

/-- A package that runs as ordered stays as it is, but that PKG_GOOD follows its conditions. -/
theorem settlePower_running (hstage : s.pwr.stage = .run) (heff : effState s = .run) :
    settlePower s = s ∨ settlePower s = s.refreshGood := by
  unfold settlePower
  split
  · exact .inl rfl
  · exact .inr (by simp only [heff, hstage])

theorem placeAll_parkLeft (heff : effState s = .run) :
    (placeAll (settlePower (parkLeft s))).pwr = (parkLeft s).pwr ∧ (placeAll (settlePower (parkLeft s))).rhl.state = (parkLeft s).rhl.state := by
  have hplace := placeAll_fixed (settlePower (parkLeft s))
  have hring : (placeAll (settlePower (parkLeft s))).rhl.state = (settlePower (parkLeft s)).rhl.state :=
    congrArg (·.state) (ring_of_fixed hplace)
  rw [pwr_of_fixed hplace, hring]
  rcases settlePower_running (s := parkLeft s) rfl heff with h | h <;> rw [h]
  · exact ⟨rfl, rfl⟩
  · exact ⟨rfl, rfl⟩
end

/-! ## The issue limiter (R494, R495, R497) -/

section
variable (s : State) (n : Die)

theorem diePwr_get : diePwr s n = s.pwr.die[n] := vat_get ..

theorem modDiePwr_eq (f : DiePwr → DiePwr) :
    s.modDiePwr n f = { s with pwr := { s.pwr with die := s.pwr.die.set n (f s.pwr.die[n]) } } := by
  rw [State.modDiePwr, State.modPwr, vmodN_set]

@[simp] theorem die_modDiePwr_same (f : DiePwr → DiePwr) : (s.modDiePwr n f).pwr.die[n] = f s.pwr.die[n] := by
  simp [modDiePwr_eq]

theorem die_modDiePwr_ne {k : Nat} (h : k ≠ n) (f : DiePwr → DiePwr) : (s.modDiePwr k f).pwr.die[n] = s.pwr.die[n] := by
  rw [← diePwr_get, ← diePwr_get]
  exact vat_vmodN_ne _ _ _ _ _ h

@[simp] theorem modDiePwr_die (k f) : (s.modDiePwr k f).pwr.die = vmodN s.pwr.die k f := rfl
@[simp] theorem event_pwr (c) : (s.event c).pwr = s.pwr := rfl
@[simp] theorem event_mem (c) : (s.event c).mem = s.mem := rfl
@[simp] theorem powerEvent_die (b) : (s.powerEvent b).pwr.die = s.pwr.die := rfl
@[simp] theorem powerEvent_mem (b) : (s.powerEvent b).mem = s.mem := rfl
@[simp] theorem modDiePwr_tileSampledAt (k f) : (s.modDiePwr k f).pwr.tileSampledAt = s.pwr.tileSampledAt := rfl
@[simp] theorem powerEvent_tileSampledAt (b) : (s.powerEvent b).pwr.tileSampledAt = s.pwr.tileSampledAt := rfl
@[simp] theorem modDiePwr_mem (k f) : (s.modDiePwr k f).mem = s.mem := rfl
@[simp] theorem markLimited_mem : (markLimited s).mem = s.mem := rfl

/-- A limiter at a step or higher. -/
def limitedTo (step : Nat) (d : DiePwr) : DiePwr := { d with limiter := max d.limiter step }

theorem engage_die (k step) : (engage s k step).pwr.die = vmodN s.pwr.die k (limitedTo step) := by
  unfold engage
  dsimp only
  split <;> rfl

theorem engage_limitCount (step) : (engage s n step).pwr.limitCount =
    if s.pwr.die[n].limiter = 0 then s.pwr.limitCount + 1 else s.pwr.limitCount := by
  unfold engage
  dsimp only
  rw [diePwr_get]
  split <;> rfl

@[simp] theorem engage_tileSampledAt (k step) : (engage s k step).pwr.tileSampledAt = s.pwr.tileSampledAt := by
  unfold engage
  dsimp only
  split <;> rfl

@[simp] theorem engage_mem (k step) : (engage s k step).mem = s.mem := by
  unfold engage
  dsimp only
  split <;> simp
end

section
variable {s : State} {n : Die}

/-- A die whose overcurrent is sensed (R494). -/
def overcurrentSensed (s : State) (n : Die) : State :=
  (engage s n 4).modDiePwr n fun d => { d with sensing := true, clearBeats := 0 }

theorem exec_overcurrentSense_powered (h : diePowered s n = true) : exec (.overcurrentSense n) s = .next (overcurrentSensed s n) :=
  congrArg Host.Outcome.next (if_pos h)

theorem exec_limiterStepUp_sensing (hsense : s.pwr.die[n].sensing = true) (hlow : 0 < s.pwr.die[n].limiter)
    (hhigh : s.pwr.die[n].limiter < 16) :
    exec (.limiterStepUp n) s = .next (s.modDiePwr n fun d => { d with limiter := d.limiter + 1 }) := by
  show execLimiterStepUp n s = _
  simp only [execLimiterStepUp, diePwr_get, hsense, hlow, hhigh, and_self, ↓reduceIte]

theorem exec_limiterStepDown_clear (hsense : s.pwr.die[n].sensing = false) (hclear : 64 ≤ s.pwr.die[n].clearBeats)
    (hlow : (if s.pwr.die[n].crit then 8 else 0) < s.pwr.die[n].limiter) :
    exec (.limiterStepDown n) s = .next (s.modDiePwr n fun d => { d with limiter := d.limiter - 1, clearBeats := 48 }) := by
  show execLimiterStepDown n s = _
  simp only [execLimiterStepDown, diePwr_get, hsense, hclear, hlow, Bool.not_false, and_self, ↓reduceIte]

theorem overcurrentSensed_spec (s : State) (n : Die) :
    (∀ k : Die, k ≠ n → (overcurrentSensed s n).pwr.die[k] = s.pwr.die[k]) ∧
    (overcurrentSensed s n).pwr.die[n] =
      { s.pwr.die[n] with limiter := max s.pwr.die[n].limiter 4, sensing := true, clearBeats := 0 } ∧
    (overcurrentSensed s n).pwr.limitCount = (if s.pwr.die[n].limiter = 0 then s.pwr.limitCount + 1 else s.pwr.limitCount) ∧
    (overcurrentSensed s n).mem = s.mem := by
  refine ⟨fun k hk => ?_, ?_, engage_limitCount s n 4, engage_mem s n 4⟩
  · have hne : n.val ≠ k.val := fun e => hk (Fin.ext e.symm)
    rw [overcurrentSensed, die_modDiePwr_ne _ _ hne, ← diePwr_get, ← diePwr_get, diePwr, engage_die, vat_vmodN_ne _ _ _ _ _ hne, ← diePwr]
  · rw [overcurrentSensed, die_modDiePwr_same, engage_die, vmodN_set, Fin.getElem_fin, Vector.getElem_set_self]
    rfl
end

/-! ## Samples of the tiles (R499 to R501) -/

/-- A die after a sample with this hottest tile. -/
def sampled (t : Int) (d : DiePwr) : DiePwr :=
  { d with temp := t, tempMax := max d.tempMax t, warn := d.warn || decide (100 ≤ t),
           crit := decide (110 ≤ t) || (d.crit && decide (105 ≤ t)),
           limiter := if 110 ≤ t ∧ d.crit = false then max d.limiter 8 else d.limiter }

/-- Two changes of one entry are one change. -/
theorem vmodN_vmodN {α : Type} {m : Nat} (v : Vector α m) (i : Nat) (f g : α → α) : vmodN (vmodN v i f) i g = vmodN v i fun x => g (f x) := by
  unfold vmodN
  split <;> simp

/-- What a change gives for other entries than its own does not matter. -/
theorem vmodN_congr {α : Type} {m : Nat} {v : Vector α m} {i : Nat} {f g : α → α} (d : α) (h : f (vat v i d) = g (vat v i d)) :
    vmodN v i f = vmodN v i g := by
  unfold vmodN
  split
  · next hi => rw [vat, dif_pos hi] at h; rw [h]
  · rfl

section
variable (s : State)

/-- A sample of a die changes its own entry of the dies alone. -/
theorem sampleDie_die (k t) : (sampleDie s k t).pwr.die = vmodN s.pwr.die k (sampled t) := by
  unfold sampleDie
  dsimp only
  split
  · next hcrit =>
    rw [engage_die, powerEvent_die, event_pwr, apply_ite State.pwr, apply_ite Power.die, powerEvent_die, event_pwr, ite_self]
    refine (vmodN_vmodN ..).trans (vmodN_congr ({} : DiePwr) ?_)
    rw [diePwr] at hcrit
    rw [sampled, if_pos hcrit]
    rfl
  · next hcrit =>
    rw [apply_ite State.pwr, apply_ite Power.die, powerEvent_die, event_pwr, ite_self, modDiePwr_die]
    refine vmodN_congr ({} : DiePwr) ?_
    rw [diePwr] at hcrit
    rw [sampled, if_neg hcrit]

theorem sampleDie_die_same (n : Die) (t : Int) : (sampleDie s n t).pwr.die[n] = sampled t s.pwr.die[n] := by
  rw [sampleDie_die, vmodN_set]
  exact Vector.getElem_set_self n.isLt

theorem sampleDie_die_ne {n : Die} {k : Nat} (h : k ≠ n) (t : Int) : (sampleDie s k t).pwr.die[n] = s.pwr.die[n] := by
  rw [← diePwr_get, ← diePwr_get, diePwr, sampleDie_die]
  exact vat_vmodN_ne _ _ _ _ _ h

theorem sampleDie_tileSampledAt (k t) : (sampleDie s k t).pwr.tileSampledAt = s.pwr.tileSampledAt := by
  unfold sampleDie
  dsimp only
  split <;> split <;> simp

theorem sampleDie_mem (k t) : (sampleDie s k t).mem = s.mem := by
  unfold sampleDie
  dsimp only
  split <;> split <;> simp
end

/-- Samples of several dies, each of them once, leave each die as its own sample does. -/
theorem each_sampleDie_die {n : Die} {x : Int} {live : List (Int × Nat)} (hnodup : live.Pairwise fun a b => a.2 ≠ b.2)
    (hmem : (x, n.val) ∈ live) (s : State) :
    (s.each live fun s e => sampleDie s e.2 e.1).pwr.die[n] = sampled x s.pwr.die[n] := by
  have hrest {es : List (Int × Nat)} (hes : ∀ e ∈ es, e.2 ≠ n.val) (u : State) :
      (u.each es fun s e => sampleDie s e.2 e.1).pwr.die[n] = u.pwr.die[n] :=
    List.foldlRecOn (motive := fun t : State => t.pwr.die[n] = u.pwr.die[n]) es _ rfl fun t ht e he =>
      (sampleDie_die_ne t (hes e he) e.1).trans ht
  induction live generalizing s with
  | nil => cases hmem
  | cons e es ih =>
    obtain ⟨hfirst, hothers⟩ := List.pairwise_cons.mp hnodup
    rcases List.mem_cons.mp hmem with rfl | hlater
    · exact (hrest (fun e he => (hfirst e he).symm) _).trans (sampleDie_die_same s n x)
    · refine (ih hothers hlater _).trans (congrArg (sampled x) (sampleDie_die_ne s ?_ e.1))
      exact hfirst _ hlater

/-- The hottest tile of each powered die, with its number (R499). -/
def liveSamples (s : State) (ts : List (List Int)) : List (Int × Nat) :=
  (ts.zipIdx.filterMap fun e => (hottestTile e.1).map fun t => (t, e.2)).filter fun e => diePowered s e.2

theorem mem_liveSamples {s : State} {ts : List (List Int)} {n : Nat} {v : Int} {vs : List Int} (hpow : diePowered s n = true)
    (h : ts[n]? = some (v :: vs)) : (vs.foldl max v, n) ∈ liveSamples s ts :=
  List.mem_filter.mpr ⟨List.mem_filterMap.mpr ⟨(v :: vs, n), List.mk_mem_zipIdx_iff_getElem?.mpr h, rfl⟩, hpow⟩

theorem liveSamples_nodup (s : State) (ts : List (List Int)) : (liveSamples s ts).Pairwise fun a b => a.2 ≠ b.2 := by
  refine List.Pairwise.filter _ (List.pairwise_filterMap.mpr ?_)
  refine (List.pairwise_map.mp (List.nodup_zipIdx_map_snd ts)).imp fun {a b} hne x hx y hy => ?_
  obtain ⟨u, -, rfl⟩ := Option.map_eq_some_iff.mp hx
  obtain ⟨w, -, rfl⟩ := Option.map_eq_some_iff.mp hy
  exact hne

theorem le_foldl_max {x t : Int} {rest : List Int} (h : x ∈ t :: rest) : x ≤ rest.foldl max t := List.le_max_of_mem h

/-! ### The package's reasons (Table 13-4) -/

section
variable (p : Power) (hot : Int) (f slower : Nat)

theorem tileReasons_die : (tileReasons p hot f slower).die = p.die := by
  unfold tileReasons
  dsimp only
  split <;> rfl

theorem tileReasons_tileSampledAt : (tileReasons p hot f slower).tileSampledAt = p.tileSampledAt := by
  unfold tileReasons
  dsimp only
  split <;> rfl

theorem tileReasons_tileGrade (h : 100 ≤ hot) : (tileReasons p hot f slower).tileGrade ≠ none := by
  unfold tileReasons
  dsimp only
  split
  · exact Option.some_ne_none slower
  · next hwarm => exact fun hnone => hwarm ⟨h, Option.isNone_iff_eq_none.mpr hnone⟩
end

theorem capChange_pwr (s : State) (f : State → State) : ∃ e, (s.capChange f).pwr = { (f s).pwr with event := e } := by
  unfold State.capChange
  dsimp only
  split <;> exact ⟨_, rfl⟩

/-- The dies' samples, then the reasons that the hottest tile gives. -/
def tilesSampled (s : State) (ts : List (List Int)) (hot : Int) : State :=
  (s.each (liveSamples s ts) fun s e => sampleDie s e.2 e.1).modPwr fun p =>
    let u := s.each (liveSamples s ts) fun s e => sampleDie s e.2 e.1
    tileReasons p hot u.tmp.frames (oneSlower u u.grade.now)

section
variable {s : State} {ts : List (List Int)}

theorem sampleTiles_eq {x : Int} {n : Nat} (h : (x, n) ∈ liveSamples s ts) :
    ∃ hot, x ≤ hot ∧ sampleTiles s ts = s.capChange fun _ => tilesSampled s ts hot := by
  have hx : x ∈ (liveSamples s ts).map (·.1) := List.mem_map_of_mem h
  unfold sampleTiles
  dsimp only
  rw [← liveSamples]
  split
  · next hnil => rw [hnil] at hx; cases hx
  · next t rest hcons =>
    rw [hcons] at hx
    exact ⟨_, le_foldl_max hx, rfl⟩

/-- A sample sets each powered die from its hottest tile, and the package's reason where that is warm. -/
theorem sampleTiles_spec {n : Die} {v : Int} {vs : List Int} (hpow : diePowered s n = true) (h : ts[n.val]? = some (v :: vs)) :
    (sampleTiles s ts).pwr.die[n] = sampled (vs.foldl max v) s.pwr.die[n] ∧
      (sampleTiles s ts).pwr.tileSampledAt = s.pwr.tileSampledAt ∧
      (100 ≤ vs.foldl max v → (sampleTiles s ts).pwr.tileGrade ≠ none) ∧ (sampleTiles s ts).mem = s.mem := by
  have hlive := mem_liveSamples hpow h
  obtain ⟨hot, hle, heq⟩ := sampleTiles_eq hlive
  obtain ⟨e, hpwr⟩ := capChange_pwr s fun _ => tilesSampled s ts hot
  rw [heq, hpwr, capChange_mem]
  refine ⟨?_, ?_, fun hwarm => tileReasons_tileGrade _ _ _ _ (hwarm.trans hle), ?_⟩
  · refine .trans ?_ (each_sampleDie_die (liveSamples_nodup s ts) hlive s)
    exact congrArg (·[n]) (tileReasons_die ..)
  · exact (tileReasons_tileSampledAt ..).trans (each_proj (·.pwr.tileSampledAt) _ (fun u (e : Int × Nat) => sampleDie_tileSampledAt u e.2 e.1) _ s)
  · exact each_proj State.mem _ (fun u (e : Int × Nat) => sampleDie_mem u e.2 e.1) _ s
end

section
variable {s : State} {t0 t1 t2 t3 : List Int}

theorem exec_tileTempSample_notDue (h : tilesDue s = false) : exec (.tileTempSample t0 t1 t2 t3) s = .next s :=
  congrArg Host.Outcome.next (if_neg (by simp [h]))

theorem exec_tileTempSample_due (h : tilesDue s = true) : exec (.tileTempSample t0 t1 t2 t3) s =
    .next (sampleTiles (s.modPwr fun p => { p with tileSampledAt := some s.tmp.elapsed }) [t0, t1, t2, t3]) :=
  congrArg Host.Outcome.next (if_pos h)
end

/-! ## THERMTRIP (R502, R503) -/

section
variable {s : State}

/-- The trip latched as the cause of what follows (R502). -/
def tripLatched (s : State) : State := s.modRst fun r => { r with thermtrip := true, cause := { r.cause with code := .thermtrip } }

theorem exec_thermtrip_trips {n : Die} (haon : s.rst.aon = true) (hfirst : s.rst.thermtrip = false) (hpow : diePowered s n = true) :
    exec .thermtrip s = .next (railsLost (tripLatched s) false).refreshGood := by
  have hany : ((List.range 4).any fun n => diePowered s n) = true := List.any_eq_true.mpr ⟨n, List.mem_range.mpr n.isLt, hpow⟩
  exact congrArg Host.Outcome.next (if_neg (by simp [haon, hfirst, hany]))

/-- PKG_GOOD is low while THERMTRIP is latched (R520). -/
theorem refreshGood_tripped (h : s.rst.thermtrip = true) : s.refreshGood.rst.pkgGood = false := by
  show goodNow s = false
  simp [goodNow, h]
end

/-- Settles O51: the dies' entries change one at a time, and what PARK and THERMTRIP take follows from what powering down leaves alone. That a
package that has left its ring joins again, the beats between the steps of the limiter and the pace of the samples are the model's choices
(log 75, 77, 137). -/
theorem parkLimiterThermal : Obligations.ParkLimiterThermal := by
  unfold Obligations.ParkLimiterThermal
  intro n s
  refine ⟨fun hstage hdone => ?_, fun hstage hbeats hframe heff => ?_, fun hpow => ?_, fun hsense hlow hhigh => ?_,
    fun hsense hclear hlow => ?_, fun t0 t1 t2 t3 => exec_tileTempSample_notDue, fun t0 t1 t2 t3 vs v x hdue hpow hts hx => ?_,
    fun haon hfirst hpow => ?_⟩
  · exact ⟨_, exec_parkDrainDone_drained hstage hdone, parked_spec s n⟩
  · obtain ⟨hpwr, hring⟩ := placeAll_parkLeft heff
    refine ⟨_, exec_parkExitResume_due hstage hbeats hframe, ?_, ?_, hring⟩ <;> rw [hpwr] <;> rfl
  · exact ⟨_, exec_overcurrentSense_powered hpow, overcurrentSensed_spec s n⟩
  · rw [exec_limiterStepUp_sensing hsense hlow hhigh, modDiePwr_eq]
  · rw [exec_limiterStepDown_clear hsense hclear hlow, modDiePwr_eq]
  · subst hx
    obtain ⟨hdie, hat, hgrade, hmem⟩ := sampleTiles_spec
      (s := s.modPwr fun p => { p with tileSampledAt := some s.tmp.elapsed }) (ts := [t0, t1, t2, t3]) hpow hts
    refine ⟨_, exec_tileTempSample_due hdue, hat, ?_, ?_, ?_, ?_, fun hcrit hnew => ?_, hgrade, hmem⟩ <;> rw [hdie]
    iterate 4 rfl
    show 8 ≤ if _ then _ else _
    rw [if_pos ⟨hcrit, hnew⟩]
    exact Nat.le_max_right ..
  · exact ⟨_, exec_thermtrip_trips haon hfirst hpow, rfl, rfl, rfl, refreshGood_tripped rfl, rfl, rfl, rfl⟩

end Sys2Proof.Proofs

/-! SUPPORT. The statements on the queue and on every step, on the invariants at reset, and on the cooling outputs (17): what a step amounts
to, and what each command leaves of the queue and of the cooling outputs. -/

namespace Sys2Proof.Proofs

open Sys2Proof Sys2Proof.Machine Sys2Proof.Laws

/-! ## A step, and the queue (log 15) -/

theorem step_of_empty {s : State} (h : s.pending = []) : step s = .next s := by simp [step, h]

theorem step_of_front {s : State} {c : Instr} {rest : List Instr} (h : s.pending = c :: rest) :
    step s = exec c { s with pending := rest } := by simp [step, h]

/-- Settles O1. -/
theorem stepRunsFrontCommand : Obligations.StepRunsFrontCommand := by
  unfold Obligations.StepRunsFrontCommand
  intro c rest s h
  exact step_of_front h

/-- Every meaning answers a next state. -/
theorem exec_next (c : Instr) (s : State) : ∃ t, exec c s = .next t := by
  cases c <;> exact ⟨_, rfl⟩

/-- Settles O3: an empty queue leaves the state, and every meaning answers a next state. -/
theorem stepAlwaysAnswersNext : Obligations.StepAlwaysAnswersNext := by
  unfold Obligations.StepAlwaysAnswersNext
  intro s
  cases h : s.pending with
  | nil => exact ⟨s, step_of_empty h⟩
  | cons c rest =>
    rw [step_of_front h]
    exact exec_next c _

/-! ## Cooling updates (R602) -/

/-- The readings that Larkspur takes of the other packages at a cooling update. -/
def readingsTaken (s : State) (temps : List (Option Int)) : State :=
  s.each slots fun s k => if isPkg s k then s else s.modSlot k fun x => { x with temp := if x.powered then (temps[k]?).getD none else none }

theorem readingsTaken_ok (s : State) (temps : List (Option Int)) : Ok s (readingsTaken s temps) :=
  each_ok (fun s k h => ok_ite h (modSlot_ok s k _ h)) (ok_refl s)

theorem readingsTaken_wdHold (s : State) (temps : List (Option Int)) : (readingsTaken s temps).tray.wdHold = s.tray.wdHold :=
  congrArg (·.1) (readingsTaken_ok s temps).cooling

/-- The watchdog's full cooling is not changed (R606). -/
theorem coolingUpdate_held {s : State} (h : s.tray.wdHold = true) (temps : List (Option Int)) :
    coolingUpdate s temps = readingsTaken s temps :=
  if_pos ((readingsTaken_wdHold s temps).trans h)

theorem coolingUpdate_free {s : State} (h : s.tray.wdHold = false) (temps : List (Option Int)) :
    coolingUpdate s temps = (readingsTaken s temps).modTray fun t => { t with
      cool0 := coolOf s temps [0, 1, 2, 3], cool1 := coolOf s temps [4, 5, 6, 7],
      fans := max (coolOf s temps [0, 1, 2, 3]) (coolOf s temps [4, 5, 6, 7]) } :=
  if_neg (ne_true_of_eq_false ((readingsTaken_wdHold s temps).trans h))

/-! ## What a command leaves of the queue -/

theorem larkspur_pending {f : State → State} (h : ∀ s, (f s).pending = s.pending) (s : State) : (larkspur s f).pending = s.pending := by
  unfold larkspur
  split
  · exact h s
  · rfl

theorem coolingUpdate_pending (s : State) (temps : List (Option Int)) : (coolingUpdate s temps).pending = s.pending := by
  cases h : s.tray.wdHold
  · rw [coolingUpdate_free h]
    exact (readingsTaken_ok s temps).pending
  · rw [coolingUpdate_held h]
    exact (readingsTaken_ok s temps).pending

theorem sourceRead_pending (s : State) (good : Bool) (data : List Byte) : (sourceRead s good data).pending = s.pending := by
  obtain hok | ⟨f, nonce, d, -, hok⟩ := sourceRead_ok s good data
  · exact hok.pending
  · exact hok.pending

/-- No command adds to the queue or drops from it. -/
theorem exec_pending {c : Instr} {s t : State} (h : exec c s = .next t) : t.pending = s.pending := by
  obtain hok | ⟨good, data, rfl⟩ | ⟨temps, rfl⟩ | ⟨ms, rfl⟩ | ⟨b1, b2, us, i, x, y, ms, rfl⟩ := exec_ok_or_special c h
  · exact hok.pending
  all_goals cases h
  · exact sourceRead_pending s good data
  · exact larkspur_pending (fun s => coolingUpdate_pending s temps) s
  · rfl
  · exact larkspur_pending (fun s => by split <;> rfl) s

/-- Settles O2: the front command runs on the state with the queue's rest, and leaves that. -/
theorem stepTakesOneCommand : Obligations.StepTakesOneCommand := by
  unfold Obligations.StepTakesOneCommand
  intro s t h
  cases hq : s.pending with
  | nil =>
    rw [step_of_empty hq] at h
    cases h
    exact hq
  | cons c rest =>
    rw [step_of_front hq] at h
    exact exec_pending h

/-! ## The cooling outputs under any command (R602, R605, R606) -/

theorem coolingHeld_of_cooling {t u : Tray} (h : cooling u = cooling t) : coolingHeld u = coolingHeld t := by
  simp only [cooling, Prod.mk.injEq] at h
  obtain ⟨hhold, h0, h1, hfans⟩ := h
  rw [coolingHeld, coolingHeld, hhold, h0, h1, hfans]

theorem coolingHeld_of_free {t : Tray} (h : t.wdHold = false) : coolingHeld t = true := by simp [coolingHeld, h]

theorem larkspur_coolingHeld {f : State → State} {s : State} (hf : coolingHeld (f s).tray = true) (h : coolingHeld s.tray = true) :
    coolingHeld (larkspur s f).tray = true := by
  unfold larkspur
  split
  · exact hf
  · exact h

theorem coolingUpdate_coolingHeld {s : State} (h : coolingHeld s.tray = true) (temps : List (Option Int)) :
    coolingHeld (coolingUpdate s temps).tray = true := by
  cases hhold : s.tray.wdHold
  · rw [coolingUpdate_free hhold]
    exact coolingHeld_of_free ((readingsTaken_wdHold s temps).trans hhold)
  · rw [coolingUpdate_held hhold, coolingHeld_of_cooling (readingsTaken_ok s temps).cooling]
    exact h

theorem sourceRead_cooling (s : State) (good : Bool) (data : List Byte) : cooling (sourceRead s good data).tray = cooling s.tray := by
  obtain hok | ⟨f, nonce, d, -, hok⟩ := sourceRead_ok s good data
  · exact hok.cooling
  · exact hok.cooling

theorem exec_coolingHeld {c : Instr} {s t : State} (h : coolingHeld s.tray = true) (hexec : exec c s = .next t) :
    coolingHeld t.tray = true := by
  obtain hok | ⟨good, data, rfl⟩ | ⟨temps, rfl⟩ | ⟨ms, rfl⟩ | ⟨b1, b2, us, i, x, y, ms, rfl⟩ := exec_ok_or_special c hexec
  · rwa [coolingHeld_of_cooling hok.cooling]
  all_goals cases hexec
  · rwa [coolingHeld_of_cooling (sourceRead_cooling s good data)]
  · exact larkspur_coolingHeld (coolingUpdate_coolingHeld h temps) h
  · -- the expiry sets the hold and the full outputs together
    rfl
  · refine larkspur_coolingHeld ?_ h
    split
    · exact coolingHeld_of_free rfl
    · exact h

/-- Settles O5: a step executes one command or none, and a command that changes the hold or the outputs leaves them full or free. -/
theorem stepKeepsCoolingFull : Obligations.StepKeepsCoolingFull := by
  unfold Obligations.StepKeepsCoolingFull
  intro s t h hstep
  cases hq : s.pending with
  | nil =>
    rw [step_of_empty hq] at hstep
    cases hstep
    exact h
  | cons c rest =>
    rw [step_of_front hq] at hstep
    refine exec_coolingHeld ?_ hstep
    exact h

/-- Settles O6. -/
theorem resetInvariants : Obligations.ResetInvariants := by
  unfold Obligations.ResetInvariants
  exact ⟨rfl, rfl, rfl⟩

/-- Settles O8: of the commands that `Ok` leaves out, the data of a loader read touches no cooling output. -/
theorem coolingChangesOnlyByCoolingCommands : Obligations.CoolingChangesOnlyByCoolingCommands := by
  unfold Obligations.CoolingChangesOnlyByCoolingCommands
  intro c s t h hne
  obtain hok | ⟨good, data, rfl⟩ | hspecial := exec_ok_or_special c h
  · exact absurd hok.cooling hne
  · cases h
    exact absurd (sourceRead_cooling s good data) hne
  · exact hspecial

end Sys2Proof.Proofs


/-! SUPPORT. The statements on reset, wake and recovery (14, 18): COLD and PKG resets and the release of the pins; the steps of the wake, their
failures and the faults of rails; what a fence and the ends of steps leave of stacks, partitions and steps, and with it WARM, DIE and
function-level resets. -/

namespace Sys2Proof.Proofs

open Sys2Proof Sys2Proof.Machine Sys2Proof.Laws

/-! ## COLD and PKG resets (R507, R634, R648) -/

section
variable {s : State}

/-- What every rail takes, AON included: the package as COLD reset and the loss of AON leave it (column COLD of Table 14-4). -/
theorem railsLost_allLost (s : State) (on : Bool) : allLost on s ((railsLost s true).modRst fun _ => aonReset s.rst on) :=
  ⟨rfl, rfl, rfl, rfl, rfl, rfl, rfl, rfl⟩

theorem coldReset_of_off (h : s.rst.aon = false) : coldReset s = (railsLost s true).modRst fun _ => aonReset s.rst true :=
  if_neg (by simp [h])

theorem aonLoss_of_on (h : s.rst.aon = true) : aonLoss s = (railsLost s true).modRst fun _ => aonReset s.rst false := if_pos h

theorem pkgReset_short (perst : Bool) {lowNs : Nat} (h : lowNs < 500) : pkgReset s perst lowNs = s :=
  if_pos (by simp [h])

theorem pkgReset_long {perst : Bool} {lowNs : Nat} (hlive : pinsLive s = true) (hpin : (if perst then s.rst.perst else s.rst.resetN) = true)
    (hlow : 10000 ≤ lowNs) : pkgReset s perst lowNs = pkgResetNow s perst := by
  have hlong : ¬lowNs < 500 := by omega
  simp only [pkgReset, hlive, hpin, hlong, decide_false, Bool.not_true, Bool.or_false, Bool.false_eq_true, if_false, if_pos hlow]
end

/-! ## The start of the wake (R515, R633, R637, R650) -/

theorem pgEarly_zero (s : State) : pgEarly s 0 = false := by simp [pgEarly]

theorem hubStep_raises {s : State} {k : Nat} (h : pgEarly s (hubRails k) = false) :
    hubStep s k = (s.modRst fun r => { r with step := k }).railsOn (hubRails k) :=
  if_neg (ne_true_of_eq_false h)

/-- The steps of the wake that raise no rail of the hub (Table 14-3) fail on no power-good. -/
theorem hubStep_railless {s : State} {k : Nat} (h : hubRails k = 0) : hubStep s k = (s.modRst fun r => { r with step := k }).railsOn 0 := by
  rw [hubStep_raises (by rw [h]; exact pgEarly_zero s), h]

theorem beginWake_first (s : State) (kind : WakeKind) : (beginWake s kind 1).rst.wake = some kind ∧ (beginWake s kind 1).rst.step = 1 ∧
    (beginWake s kind 1).rst.done = false ∧ (beginWake s kind 1).rst.resetN = s.rst.resetN ∧
    (beginWake s kind 1).rst.perst = s.rst.perst ∧ (beginWake s kind 1).rst.faultN = s.rst.faultN := by
  rw [beginWake, hubStep_railless rfl]
  exact ⟨rfl, rfl, rfl, rfl, rfl, rfl⟩

/-- The release of both pins, with PKG_FAULT_N as Table 18-5 has it; a COLD reset draws the nonce of the part. -/
def released (s : State) : State :=
  (if s.rst.next = .cold then (s.modSld fun l => { l with nonce := freeVal s }).drawn else s).modRst fun r =>
    { r with resetN := true, perst := true, faultN := true, wdtExpired := false, railFault := false }

theorem releaseReset_begins {s : State} (hlive : pinsLive s = true) (hpin : (s.rst.resetN && s.rst.perst) = false) :
    releaseReset s = beginWake (released s) s.rst.next 1 := by
  have hrst : (if s.rst.next = .cold then (s.modSld fun l => { l with nonce := freeVal s }).drawn else s).rst = s.rst := by
    split <;> rfl
  simp only [releaseReset, released, hlive, hpin, hrst, modRst_rst, Bool.not_true, Bool.or_self, Bool.false_eq_true, if_false]

/-- Settles O52: column COLD of Table 14-4 is `railsLost`, and the release of the pins begins the wake at step 1. A reset needs its pin to have
been high, and a release raises both pins: the model's choices (log 80). -/
theorem resetsAndPins : Obligations.ResetsAndPins := by
  unfold Obligations.ResetsAndPins
  intro perst lowNs s
  refine ⟨fun haon => ⟨_, congrArg Host.Outcome.next (coldReset_of_off haon), railsLost_allLost s true⟩,
    fun haon => ⟨_, congrArg Host.Outcome.next (aonLoss_of_on haon), railsLost_allLost s false⟩,
    fun hlow => congrArg Host.Outcome.next (pkgReset_short perst hlow),
    fun hlive hpin hlow => ⟨_, congrArg Host.Outcome.next (pkgReset_long hlive hpin hlow), rfl, rfl, rfl, rfl, rfl, rfl, rfl, rfl, rfl⟩,
    fun hlive hpin => ⟨_, congrArg Host.Outcome.next (releaseReset_begins hlive hpin), ?_⟩⟩
  obtain ⟨hwake, hstep, hdone, hresetN, hperst, hfault⟩ := beginWake_first (released s) s.rst.next
  exact ⟨hresetN, hperst, hfault, hwake, hstep, hdone⟩

end Sys2Proof.Proofs


namespace Sys2Proof.Proofs

open Sys2Proof Sys2Proof.Machine Sys2Proof.Laws

/-! ## What a fence leaves of partitions, steps, stacks and dies

The registers of the partitions, the names and partitions of the steps, the marks of failed stacks and the state of wake and reset but for the
report of a fence: a fence, and a slice that leaves service, change none of them. -/

/-- The state of wake and reset without what a fence reports (R525). -/
def unfenced (r : Reset) : Reset := { r with lease := {}, fenceCount := 0 }

/-- The registers of the partitions, the names and partitions of the steps in order, the failed marks of the stacks, wake and reset. -/
def marks (s : State) : Vector PartSt 8 × List (Nat × Nat) × Vector Bool 8 × Reset :=
  (s.stp.part, s.stp.steps.map fun t => (t.id, t.part), s.mem.stack.map (·.failed), unfenced s.rst)

section
variable {s t : State} (h : marks t = marks s)
include h
theorem part_of_marks : t.stp.part = s.stp.part := congrArg (·.1) h
theorem names_of_marks : (t.stp.steps.map fun x => (x.id, x.part)) = s.stp.steps.map fun x => (x.id, x.part) := congrArg (·.2.1) h
theorem failed_of_marks : t.mem.stack.map (·.failed) = s.mem.stack.map (·.failed) := congrArg (·.2.2.1) h
theorem rst_of_marks : unfenced t.rst = unfenced s.rst := congrArg (·.2.2.2) h
theorem dies_of_marks : t.rst.die = s.rst.die := congrArg (·.2.2.2.die) h
end

section
variable (s : State)

@[simp] theorem modNextId_marks (f) : marks (s.modNextId f) = marks s := rfl
@[simp] theorem modTile_marks (f) : marks (s.modTile f) = marks s := rfl
@[simp] theorem modGrn_marks (f) : marks (s.modGrn f) = marks s := rfl
@[simp] theorem modFab_marks (f) : marks (s.modFab f) = marks s := rfl
@[simp] theorem modBwr_marks (f) : marks (s.modBwr f) = marks s := rfl
@[simp] theorem modSrv_marks (f) : marks (s.modSrv f) = marks s := rfl
@[simp] theorem modTrl_marks (f) : marks (s.modTrl f) = marks s := rfl
@[simp] theorem modRhl_marks (f) : marks (s.modRhl f) = marks s := rfl
@[simp] theorem modGln_marks (f) : marks (s.modGln f) = marks s := rfl
@[simp] theorem modTel_marks (f) : marks (s.modTel f) = marks s := rfl
@[simp] theorem modHif_marks (f) : marks (s.modHif f) = marks s := rfl

/-- A change of a step that keeps its name and its partition. -/
theorem modStep_marks {f : Step → Step} (h : ∀ t, (f t).id = t.id ∧ (f t).part = t.part) (id : Nat) : marks (s.modStep id f) = marks s := by
  have hname (x : Step) : ((if x.id = id then f x else x).id, (if x.id = id then f x else x).part) = (x.id, x.part) := by
    split
    · rw [(h x).1, (h x).2]
    · rfl
  simp only [marks, State.modStep, modStp_stp, modStp_mem, modStp_rst, List.map_map, Function.comp_def, hname]

/-- A change of a stack that keeps its failed mark. -/
theorem modStack_marks {f : Stack → Stack} (h : ∀ k, (f k).failed = k.failed) (n : Nat) : marks (s.modStack n f) = marks s := by
  simp only [marks, State.modStack, modMem_stp, modMem_mem, modMem_rst, vmodN_map h]

/-- A change of memory outside the registers of the stacks. -/
theorem modMem_marks {f : Memory → Memory} (h : ∀ m, (f m).stack = m.stack) : marks (s.modMem f) = marks s := by
  simp only [marks, modMem_stp, modMem_mem, modMem_rst, h]

@[simp] theorem ite_marks {c : Prop} [Decidable c] (x y : State) : marks (if c then x else y) = if c then marks x else marks y :=
  apply_ite marks c x y

@[simp] theorem each_marks {α : Type} {f : State → α → State} (h : ∀ s x, marks (f s x) = marks s) (xs : List α) :
    marks (s.each xs f) = marks s := each_proj marks f h xs s

@[simp] theorem when_marks {f : State → State} (h : ∀ s, marks (f s) = marks s) (c : Bool) : marks (s.when c f) = marks s := by
  unfold State.when; split <;> simp [h]

/-! ### Steps and reports -/

@[simp] theorem faultStepAt_marks (id c key) : marks (s.faultStepAt id c key) = marks s :=
  modStep_marks s (fun _ => by split <;> exact ⟨rfl, rfl⟩) id
@[simp] theorem faultStep_marks (id c) : marks (s.faultStep id c) = marks s := faultStepAt_marks ..
@[simp] theorem event_marks (c) : marks (s.event c) = marks s := rfl
@[simp] theorem partFrame_marks (p f) : marks (s.partFrame p f) = marks s := by simp [State.partFrame]
@[simp] theorem partEvent_marks (p c) : marks (s.partEvent p c) = marks s := rfl
@[simp] theorem fresh_marks : marks s.fresh = marks s := rfl
@[simp] theorem signal_marks (fn vec) : marks (s.signal fn vec) = marks s := signal_proj marks (fun _ _ => rfl) (fun _ _ => rfl) s fn vec
@[simp] theorem recordErr_marks (line cause) : marks (recordErr s line cause) = marks s :=
  modStack_marks s (fun _ => by split <;> rfl) _

/-! ### Budgets (Machine/BwrOps.lean) -/

@[simp] theorem violate_marks (m u) : marks (s.violate m u) = marks s := by simp [State.violate]
@[simp] theorem charge_marks (m g u c0 k) : marks (s.charge m g u c0 k) = marks s := by simp [State.charge, State.hold, State.take]
@[simp] theorem untagged_marks (r) : marks (untagged s r) = marks s := by unfold untagged; split <;> rfl

@[simp] theorem demote_marks (r) : marks (demote s r).1 = marks s := by
  unfold demote
  split
  · split <;> simp
  · rfl

@[simp] theorem dlMissed_marks (d master group step) : marks (dlMissed s d master group step) = marks s := by
  unfold dlMissed
  dsimp only
  split
  · rw [partFrame_marks]
    exact modStep_marks _ (f := fun x => { x with dlMiss := true }) (fun _ => ⟨rfl, rfl⟩) _
  · rfl

/-! ### Groups and tokens (Machine/TileOps.lean) -/

@[simp] theorem modGroup_marks (tile slot f) : marks (s.modGroup tile slot f) = marks s := rfl
@[simp] theorem dropGroup_marks (tile slot) : marks (s.dropGroup tile slot) = marks s := rfl
@[simp] theorem writeLocal_marks (tile a bs) : marks (s.writeLocal tile a bs) = marks s := by
  simp [State.writeLocal, State.pokeLocal, State.settleMxe]

@[simp] theorem tokenStatus_marks (tile slot dst keep lanes first rest) :
    marks (s.tokenStatus tile slot dst keep lanes first rest) = marks s := by
  unfold State.tokenStatus; split <;> rfl

@[simp] theorem serveToken_marks (t) : marks (s.serveToken t) = marks s := by
  unfold State.serveToken State.grantToken
  split
  · rfl
  · split
    · rfl
    · exact tokenStatus_marks ..

@[simp] theorem forfeitTokens_marks (tile slot) : marks (s.forfeitTokens tile slot) = marks s := by simp [State.forfeitTokens]

@[simp] theorem groupFault_marks (tile slot c pc cycle) : marks (s.groupFault tile slot c pc cycle) = marks s := by
  unfold State.groupFault; split <;> simp

/-! ### The Granary (Machine/GranaryOps.lean) -/

@[simp] theorem queueWrite_marks (w charges) : marks (s.queueWrite w charges) = marks s := by
  rw [← fresh_marks s, ← each_marks s.fresh (fun u (c : Nat × Nat) => charge_marks u c.1 (w.x / 8) c.2 false (.write s.nextId)) charges]
  rfl

@[simp] theorem countTie_marks (a part) : marks (countTie s a part) = marks s := by simp [countTie, State.modSlice]
@[simp] theorem trackHit_marks (a part) : marks (trackHit s a part) = marks s := by simp [trackHit, State.modSlice]
@[simp] theorem trackMiss_marks (a part) : marks (trackMiss s a part) = marks s := rfl
@[simp] theorem recordKill_marks (line part) : marks (recordKill s line part) = marks s := by simp [recordKill, State.modSlice]
@[simp] theorem deadHint_marks (line part) : marks (deadHint s line part) = marks s := by unfold deadHint; split <;> rfl
@[simp] theorem countGr_marks (e) : marks (countGr s e) = marks s := rfl
@[simp] theorem lineError_marks (l) : marks (lineError s l) = marks s := by simp [lineError, State.dropLine]
@[simp] theorem channelFault_marks (line step) : marks (channelFault s line step) = marks s := by simp [channelFault]
@[simp] theorem lateTag_marks (r) : marks (lateTag s r) = marks s := by unfold lateTag; split <;> simp
@[simp] theorem engineAnswer_marks (job n line data code) : marks (engineAnswer s job n line data code) = marks s := rfl

@[simp] theorem answerRead_marks (r data poison) : marks (answerRead s r data poison) = marks s := by
  unfold answerRead; split <;> simp

@[simp] theorem ackStore_marks (r lost) : marks (ackStore s r lost) = marks s := by
  unfold ackStore; split <;> simp

theorem deadReadFault_marks {s t : State} {r : MemReq} (e : deadReadFault s r = some t) : marks t = marks s := by
  unfold deadReadFault at e
  split at e
  · split at e
    · split at e
      · cases e; exact groupFault_marks ..
      · cases e
    · cases e; exact faultStep_marks ..
    · split at e
      · cases e; rfl
      · cases e
    · cases e
  · cases e

@[simp] theorem holdPool_marks (r) : marks (holdPool s r) = marks s := rfl
@[simp] theorem joinMiss_marks (m r) : marks (joinMiss s m r) = marks s := by simp [joinMiss, State.modSlice, State.modMiss]

@[simp] theorem takeMiss_marks (r) : marks (takeMiss s r) = marks s := by
  unfold takeMiss
  split
  · simp only [charge_marks, modGrn_marks]
    split <;> simp
  · rfl

@[simp] theorem readMiss_marks (r) : marks (readMiss s r) = marks s := by unfold readMiss; split <;> simp
@[simp] theorem readHit_marks (l r ecc) : marks (readHit s l r ecc) = marks s := by simp [readHit, State.touch, State.modLine]
@[simp] theorem readDirect_marks (r) : marks (readDirect s r) = marks s := by simp [readDirect]
@[simp] theorem serveLookup_marks (r ecc) : marks (serveLookup s r ecc) = marks s := by unfold serveLookup; split <;> simp

@[simp] theorem serveRead_marks (r ecc) : marks (serveRead s r ecc) = marks s := by
  unfold serveRead
  dsimp only
  split
  · simp
  · split
    · next e =>
      split at e
      · exact (deadReadFault_marks e).trans (demote_marks s r)
      · cases e
    · rw [serveLookup_marks]
      split <;> exact demote_marks ..

@[simp] theorem retryPool_marks (n k) : marks (retryPool s n k) = marks s := by
  induction k generalizing s with
  | zero => rfl
  | succ k ih => unfold retryPool; split <;> simp [ih]

/-! ### The fence (R523 to R525) -/

@[simp] theorem dropJobs_marks (p) : marks (s.dropJobs p) = marks s := rfl
@[simp] theorem dropWalks_marks (p) : marks (s.dropWalks p) = marks s := rfl
@[simp] theorem abandonUp_marks (p) : marks (s.abandonUp p) = marks s := rfl
@[simp] theorem endDma_marks (e c done) : marks (s.endDma e c done) = marks s := by simp [State.endDma]
@[simp] theorem abortDma_marks (p) : marks (s.abortDma p) = marks s := by simp [State.abortDma]
@[simp] theorem modRed_marks (id f) : marks (s.modRed id f) = marks s := by simp [State.modRed]

@[simp] theorem fencePorts_marks (k) : marks (fencePorts s k) = marks s := by
  cases k <;> simp [fencePorts]

@[simp] theorem fenceAnswers_marks (k) : marks (fenceAnswers s k) = marks s := by simp [fenceAnswers]

@[simp] theorem fenceRevoke_marks (k) : marks (fenceRevoke s k) = marks s := by cases k <;> simp [fenceRevoke]

@[simp] theorem fence_marks (k) : marks (fence s k) = marks s := by
  have hrevoke : marks (fenceRevoke (fenceAnswers (fencePorts s k) k) k) = marks s := by simp
  have hlease : marks ((fenceRevoke (fenceAnswers (fencePorts s k) k) k).modRst fun r =>
      { r with lease := leaseOf s k, fenceCount := r.fenceCount + 1 }) = marks s := hrevoke
  unfold fence
  cases k with
  | part p =>
    dsimp only
    split
    · exact hlease
    · exact (partEvent_marks ..).trans hlease
  | die n =>
    rw [signal_marks]
    split
    · exact hlease
    · exact (event_marks ..).trans hlease

/-! ### Stores and writes of the stacks (Machine/GranaryOps.lean, Machine/MemOps.lean) -/

@[simp] theorem modMiss_marks (line part f) : marks (s.modMiss line part f) = marks s := rfl
@[simp] theorem unkill_marks (line part) : marks (unkill s line part) = marks s := rfl
@[simp] theorem evict_marks (v m a) : marks (s.evict v m a) = marks s := queueWrite_marks ..
@[simp] theorem forward_marks (r m) : marks (s.forward r m) = marks s := queueWrite_marks ..
@[simp] theorem poisonedStore_marks (r) : marks (poisonedStore s r) = marks s := forward_marks ..
@[simp] theorem storeHit_marks (r) : marks (storeHit s r) = marks s := rfl

@[simp] theorem storeMiss_marks (r) : marks (storeMiss s r) = marks s := by
  unfold storeMiss
  dsimp only
  split
  · simp
  · split
    · simp
    · rw [ackStore_marks]; exact countTie_marks ..
    · split
      · rw [ackStore_marks]; exact countTie_marks ..
      · simp

@[simp] theorem serveStore_marks (r) : marks (serveStore s r) = marks s := by
  unfold serveStore
  dsimp only
  split
  · simp
  · split
    · simp
    · split
      · simp
      · split
        · simp
        · split
          · rw [ackStore_marks, modMiss_marks, unkill_marks, demote_marks]
          · simp

theorem remapStart_marks (x bank row) : marks (remapStart s x bank row) = marks s := by
  have hfull : marks ((s.event .memRemapFull).modStack (x / 64) fun t => { t with remapFull := t.remapFull + 1 }) = marks s :=
    (modStack_marks (f := fun t => { t with remapFull := t.remapFull + 1 }) _ (fun _ => rfl) _).trans (event_marks ..)
  unfold remapStart
  split
  · rfl
  · split
    · split
      · exact modMem_marks _ fun _ => rfl
      · exact hfull
    · exact hfull

theorem countCe_marks (x bank row) : marks (countCe s x bank row) = marks s := by
  unfold countCe
  dsimp only
  split
  · split
    · exact (remapStart_marks ..).trans (modMem_marks _ fun _ => rfl)
    · exact modMem_marks _ fun _ => rfl
  · exact modMem_marks _ fun _ => rfl

theorem eccOn_marks (line read found) : marks (eccOn s line read found) = marks s := by
  refine each_marks s (fun u b => ?_) _
  split
  · rw [remapStart_marks, recordErr_marks]
    exact modStack_marks (f := fun t => { t with ue := t.ue + 1 }) _ (fun _ => rfl) _
  · split
    · rw [countCe_marks]
      exact modStack_marks (f := fun t => { t with ce := t.ce + 1 }) _ (fun _ => rfl) _
    · rfl

theorem writeBurst_stack (m : Memory) (k b : Nat) (mask : BitVec 256) (data : List Byte) (poisoned bad : Bool) :
    (writeBurst m k b mask data poisoned bad).stack = m.stack := by
  unfold writeBurst
  split <;> rfl

theorem writeLine_marks (line mask data poisoned bad) : marks (writeLine s line mask data poisoned bad) = marks s := by
  unfold writeLine
  split
  · rfl
  · exact modMem_marks _ fun m => List.foldlRecOn (motive := fun (x : Memory) => x.stack = m.stack) _ _ rfl fun _ hx _ _ =>
      List.foldlRecOn (motive := fun (x : Memory) => x.stack = m.stack) _ _ hx fun _ hx _ _ => (writeBurst_stack ..).trans hx

@[simp] theorem mergeLine_marks (line mask data poisoned found) : marks (mergeLine s line mask data poisoned found) = marks s := by
  unfold mergeLine
  dsimp only
  rw [writeLine_marks]
  split
  · rfl
  · exact eccOn_marks ..

@[simp] theorem flush_marks (line mask data poisoned) : marks (s.flush line mask data poisoned) = marks s := by
  unfold State.flush
  split
  · rfl
  · split
    · exact modMem_marks _ fun _ => rfl
    · exact mergeLine_marks ..

/-! ### A slice that leaves service, and a die that goes down (R231, R232, R509, R510) -/

@[simp] theorem flushLine_marks (l) : marks (flushLine s l) = marks s := flush_marks ..

@[simp] theorem flushMiss_marks (m) : marks (flushMiss s m) = marks s := by
  unfold flushMiss flushWaiters
  rw [flush_marks]
  split
  · split <;> simp [poisonWaiters, answerWaiters]
  · rfl

theorem sliceLeaves_marks (n) : marks (sliceLeaves s n) = marks s := by
  simp [sliceLeaves, modMem_marks]

/-- What leaves a state's wake states and memory alone: `rst.die` and `mem`. -/
theorem setPartState_faulted (p) : (s.setPartState p .faulted).rst.die = s.rst.die ∧ (s.setPartState p .faulted).mem = s.mem := by
  unfold State.setPartState
  split
  · exact ⟨rfl, rfl⟩
  · exact ⟨congrArg Reset.die (signal_proj State.rst (fun _ _ => rfl) (fun _ _ => rfl) _ _ _), signal_mem ..⟩

/-- Once its ports are fenced, a die that goes down changes no wake state and no memory. -/
theorem dieDown_frame (n c) : (dieDown s n c).rst.die = s.rst.die ∧ (dieDown s n c).mem = (fence s (.die n)).mem := by
  constructor
  · rw [← dies_of_marks (fence_marks s (.die n)),
      ← each_proj (fun u => u.rst.die) _ (fun u (i : Nat) => congrArg Reset.die (rst_of_fixed (endStep_fixed u i c))) _ (fence s (.die n))]
    exact each_proj (fun u => u.rst.die) _ (fun u p => (setPartState_faulted u p).1) _ _
  · rw [← each_proj State.mem _ (fun u (i : Nat) => endStep_mem u i c) _ (fence s (.die n))]
    exact each_proj State.mem _ (fun u p => (setPartState_faulted u p).2) _ _

theorem dieDown_failed (n c) : (dieDown s n c).mem.stack.map (·.failed) = s.mem.stack.map (·.failed) := by
  rw [(dieDown_frame s n c).2]
  exact failed_of_marks (fence_marks s _)
end

end Sys2Proof.Proofs


namespace Sys2Proof.Proofs

open Sys2Proof Sys2Proof.Machine Sys2Proof.Laws

/-! ## The steps of stage 1 (R515, R516, R519) -/

section
variable {s : State} {n : Nat}

theorem wakeDone_hub (hwake : s.rst.wake ≠ none) (hretry : s.rst.retryWait = false) (hstep : s.rst.step ≤ 8) (info : WakeInfo) :
    wakeDone s n info = hubStepDone s info := by
  obtain ⟨k, hk⟩ := Option.ne_none_iff_exists'.mp hwake
  simp only [wakeDone, hk, hretry, if_pos hstep, Bool.false_eq_true, if_false]

theorem wakeTimeout_hub (hwake : s.rst.wake ≠ none) (hretry : s.rst.retryWait = false) (hstep : s.rst.step ≤ 8) :
    wakeTimeout s n = stageOneFail s := by
  obtain ⟨k, hk⟩ := Option.ne_none_iff_exists'.mp hwake
  simp only [wakeTimeout, hk, hretry, if_pos hstep, Bool.false_eq_true, if_false]

theorem wakeRetry_hub (hwake : s.rst.wake ≠ none) (hretry : s.rst.retryWait = true) :
    wakeRetry s n = s.modRst fun r => { r with retryWait := false, step := 1 } := by
  rw [wakeRetry, if_neg (by simpa using hwake), if_pos hretry]

/-- A step of stage 1 but the firmware's waits for its condition alone. -/
theorem hubStepDone_next (hstep : s.rst.step < 8) (hfw : s.rst.step ≠ 6) (info : WakeInfo) :
    hubStepDone s info = hubStep (s.powerGood (hubRails s.rst.step)) (s.rst.step + 1) := by
  have hlast : ¬s.rst.step + 1 = 9 := by omega
  have hnext : hubStepDone s info = if s.rst.step + 1 = 9 then startStage2 (s.powerGood (hubRails s.rst.step))
      else hubStep (s.powerGood (hubRails s.rst.step)) (s.rst.step + 1) := by
    unfold hubStepDone
    split
    · exact absurd ‹s.rst.step = 6› hfw
    · exact absurd ‹s.rst.step = 6› hfw
    · rfl
  rw [hnext, if_neg hlast]

/-- Power-goods that come to raised rails make none of a rail to raise early. -/
theorem pgEarly_powerGood (h m : BitVec 64) (k : Nat) :
    pgEarly ((s.powerGood h).modRst fun r => { r with step := k }) m = pgEarly s m := by
  have hbits : m &&& ~~~s.rst.vrEn &&& (s.rst.vrPg ||| (h &&& s.rst.vrEn)) = m &&& ~~~s.rst.vrEn &&& s.rst.vrPg := by
    ext i
    simp only [BitVec.getElem_and, BitVec.getElem_or, BitVec.getElem_not]
    cases m[i] <;> cases s.rst.vrEn[i] <;> simp
  exact congrArg (· != 0) hbits

theorem hubStep_late (h : BitVec 64) {k : Nat} (hpg : pgEarly s (hubRails k) = false) :
    hubStep (s.powerGood h) k = ((s.powerGood h).modRst fun r => { r with step := k }).railsOn (hubRails k) :=
  if_neg (ne_true_of_eq_false ((pgEarly_powerGood h _ k).trans hpg))

theorem hubStep_early (h : BitVec 64) {k : Nat} (hpg : pgEarly s (hubRails k) = true) :
    hubStep (s.powerGood h) k = stageOneFail ((s.powerGood h).modRst fun r => { r with step := k }) :=
  if_pos ((pgEarly_powerGood h _ k).trans hpg)

/-- The firmware's step leads to step 7, which raises no rail. -/
theorem hubStepDone_firmware (hstep : s.rst.step = 6) (b : Bool) :
    hubStepDone s (.firmware b) = (((loadWear (s.modRst fun r => { r with fwBank := b })).powerGood (hubRails 6)).modRst fun r =>
      { r with step := 7 }).railsOn 0 := by
  have hlead : hubStepDone s (.firmware b) = hubStep ((loadWear (s.modRst fun r => { r with fwBank := b })).powerGood (hubRails 6)) 7 := by
    simp only [hubStepDone, hstep]
    rw [show (loadWear (s.modRst fun r => { r with fwBank := b })).rst.step = 6 from hstep]
    rfl
  rw [hlead, hubStep_railless rfl]

/-- The record of a failure in stage 1, by the step that was on (Table 14-8). -/
theorem stageOneFail_retries (htries : s.rst.stage1Tries < 3) :
    (stageOneFail s).rst.retryWait = true ∧ (stageOneFail s).rst.vrEn = 0 ∧ (stageOneFail s).rst.failedStep = s.rst.step ∧
      (stageOneFail s).rst.stage1Tries = s.rst.stage1Tries + 1 ∧ (stageOneFail s).rst.lockout = s.rst.lockout := by
  have hlast : ¬4 ≤ s.rst.stage1Tries + 1 := by omega
  unfold stageOneFail
  simp only [if_neg hlast]
  split <;> exact ⟨rfl, rfl, rfl, rfl, rfl⟩

theorem stageOneFail_locks (htries : 3 ≤ s.rst.stage1Tries) : (stageOneFail s).rst.lockout = true ∧
    (stageOneFail s).rst.faultN = false ∧ (stageOneFail s).rst.vrEn = 0 := by
  have hlast : 4 ≤ s.rst.stage1Tries + 1 := by omega
  unfold stageOneFail
  simp only [if_pos hlast]
  exact ⟨rfl, rfl, rfl⟩
end

/-! ## Faults of rails (R637 to R642) -/

section
variable (s : State)

/-- A power list changes of a die's wake state only its clamp and its clock. -/
theorem seqDown_dies {α : Type} (g : DieWake → α) (hclamp : ∀ d b, g { d with clamped := b } = g d)
    (hclock : ∀ d b, g { d with clocked := b } = g d) (n : Nat) : (seqDown s n).rst.die.map g = s.rst.die.map g := by
  refine each_proj (fun u => u.rst.die.map g) _ (fun u o => ?_) (downList s) s
  unfold seqOp
  split
  · rfl
  split
  · rfl
  split
  · exact vmodN_map (fun d => hclamp d false) _ _
  split
  · exact vmodN_map (fun d => hclamp d true) _ _
  split
  · exact vmodN_map (fun d => hclock d true) _ _
  split
  · exact vmodN_map (fun d => hclock d false) _ _
  rfl

theorem seqDown_mem (n : Nat) : (seqDown s n).mem = s.mem := by
  refine each_proj State.mem _ (fun u o => ?_) (downList s) s
  unfold seqOp
  iterate 6 (split; · rfl)
  rfl

theorem enBits_getLsbD (ds : List Nat) {k : Nat} (hk : k < 64) : (enBits ds).getLsbD k = ds.contains k := by
  have hfold (xs : List Nat) (m : BitVec 64) :
      (xs.foldl (fun (m : BitVec 64) d => m ||| BitVec.ofNat 64 (2 ^ d)) m).getLsbD k = (m.getLsbD k || xs.contains k) := by
    induction xs generalizing m with
    | nil => simp
    | cons d xs ih =>
      rw [List.foldl_cons, ih, BitVec.getLsbD_or, BitVec.getLsbD_ofNat, Nat.testBit_two_pow, List.contains_cons, Bool.or_assoc]
      simp [hk, eq_comm, Bool.beq_eq_decide_eq]
  rw [enBits, hfold ds 0]
  simp

theorem railsOff_getLsbD (m : BitVec 64) (k : Nat) : (s.railsOff m).rst.vrEn.getLsbD k = (s.rst.vrEn.getLsbD k && !m.getLsbD k) := by
  by_cases hk : k < 64
  · simp [State.railsOff, hk]
  · simp [State.railsOff, BitVec.getLsbD_of_ge _ k (Nat.not_lt.mp hk)]

/-- The rails of a die, as Table 18-3 numbers them. -/
theorem dieRail_mem {d n : Nat} (hd : d < 64) (hdie : railDie d = some n) :
    (coreRails n).getLsbD d = true ∨ (stackRails n).getLsbD d = true := by
  unfold railDie at hdie
  split at hdie
  · left
    rw [coreRails, enBits_getLsbD _ hd, List.contains_eq_mem, decide_eq_true_eq, List.mem_map]
    exact ⟨d % 8, List.mem_range.mpr (Nat.mod_lt _ (by omega)), by have := Option.some.inj hdie; omega⟩
  · split at hdie
    · right
      rw [stackRails, enBits_getLsbD _ hd, List.contains_eq_mem, decide_eq_true_eq]
      have := Option.some.inj hdie
      simp only [List.mem_cons, List.not_mem_nil, or_false]
      omega
    · cases hdie

/-- The rails of a die have gone, once it is no longer powered (R642). -/
def railsGone (n : Nat) : State := (dieRailsOff (s.modDie n fun d => { d with powered := false }) n).railsOff (stackRails n)

theorem railsGone_vrEn {d n : Nat} (hd : d < 64) (hdie : railDie d = some n) : (railsGone s n).rst.vrEn.getLsbD d = false := by
  rw [railsGone, railsOff_getLsbD, dieRailsOff, railsOff_getLsbD]
  obtain hcore | hstack := dieRail_mem hd hdie
  · simp [hcore]
  · simp [hstack]

theorem railsGone_mem (n : Nat) : (railsGone s n).mem = s.mem := seqDown_mem (s.modDie n fun d => { d with powered := false }) n

/-- What a map of two vectors shows alike, their entries have alike. -/
theorem get_of_map {α β : Type} {m : Nat} {v w : Vector α m} {g : α → β} (h : v.map g = w.map g) (i : Fin m) : g v[i] = g w[i] := by
  simpa using congrArg (fun x => x[i]) h

theorem railsGone_die {α : Type} (g : DieWake → α) (hclamp : ∀ d b, g { d with clamped := b } = g d)
    (hclock : ∀ d b, g { d with clocked := b } = g d) (n : Die) : g (railsGone s n).rst.die[n] = g { s.rst.die[n] with powered := false } := by
  have hmap := get_of_map (seqDown_dies (s.modDie n fun d => { d with powered := false }) g hclamp hclock n) n
  refine hmap.trans (congrArg g ?_)
  rw [State.modDie, modRst_rst, vmodN_set]
  simp

theorem dieRailFault_failed {n : Die} (hfail : s.rst.die[n].failed = true) : dieRailFault s n = railsGone s n :=
  if_pos (by rw [dieWake, vat_get]; exact hfail)

/-- A die as a fault of its rails finds it, once it counts as failed with both its stacks (R642). -/
def dieLost (n : Nat) : State := failStacks (s.modDie n fun d => { d with failed := true, powered := false }) n

theorem dieRailFault_live {n : Die} (hlive : s.rst.die[n].failed = false) :
    dieRailFault s n = railsGone ((dieDown (sliceLeaves (dieLost s n) n) n .railFault).event .railFault) n :=
  if_neg (by rw [dieWake, vat_get, hlive]; exact Bool.false_ne_true)

theorem dieRailFault_fails {n : Die} (hlive : s.rst.die[n].failed = false) : (dieRailFault s n).rst.die[n].failed = true ∧
    (dieRailFault s n).mem.stack.map (·.failed) = (dieLost s n).mem.stack.map (·.failed) := by
  have hleaves := sliceLeaves_marks (dieLost s n) n
  rw [dieRailFault_live s hlive]
  constructor
  · rw [railsGone_die _ (·.failed) (fun _ _ => rfl) (fun _ _ => rfl)]
    show (dieDown _ _ _).rst.die[n].failed = true
    rw [(dieDown_frame _ _ _).1, dies_of_marks hleaves]
    simp [dieLost, failStacks, State.modDie, State.modStack, vmodN_set]
  · rw [railsGone_mem]
    exact (dieDown_failed _ _ _).trans (failed_of_marks hleaves)

/-- Both stacks of a die that is lost are failed (R279). -/
theorem dieLost_stacks (n : Die) (t : State) (h : t.mem.stack.map (·.failed) = (dieLost s n).mem.stack.map (·.failed)) :
    (stackSt t (2 * n.val)).failed = true ∧ (stackSt t (2 * n.val + 1)).failed = true := by
  have hat (k : Fin 8) : (stackSt t k).failed = (stackSt (dieLost s n) k).failed := by
    rw [stackSt, stackSt, vat_get, vat_get]
    exact get_of_map h k
  have h0 : 2 * n.val < 8 := by omega
  have h1 : 2 * n.val + 1 < 8 := by omega
  constructor
  · rw [hat ⟨_, h0⟩]
    simp [dieLost, failStacks, stackSt, State.modStack, vat_vmodN, h0]
  · rw [hat ⟨_, h1⟩]
    simp [dieLost, failStacks, stackSt, State.modStack, vat_vmodN, h1]

theorem railFault_short {d lowNs : Nat} (h : lowNs < 1800 ∨ inService s d = false) : railFault s d lowNs = s := by
  refine if_pos ?_
  obtain h | h := h <;> simp [h]

theorem railFault_long {d lowNs : Nat} (hin : inService s d = true) (hlow : 2200 ≤ lowNs) : railFault s d lowNs = railFaultNow s d := by
  have hlong : ¬lowNs < 1800 := by omega
  rw [railFault, if_neg (by simp [hin, hlong]), if_pos hlow]

theorem railFaultNow_die {d n : Nat} (hdone : s.rst.done = true) (hdie : railDie d = some n) : railFaultNow s d = dieRailFault s n := by
  simp only [railFaultNow, hdone, hdie, if_true]

theorem railFaultNow_hub {d : Nat} (hdone : s.rst.done = true) (hhub : railDie d = none) : railFaultNow s d = hubRailFault s d := by
  simp only [railFaultNow, hdone, hhub, if_true]

/-- A regulator's power-good, high or low, while its rail is off. -/
theorem pgLevel_off {d : Nat} (hrail : railExists d = true) (hoff : s.rst.vrEn.getLsbD d = false) (high : Bool) :
    pgLevel s d high = s.modRst fun r => { r with vrPg := if high then r.vrPg ||| enBits [d] else r.vrPg &&& ~~~enBits [d] } :=
  if_neg (by simp [hrail, hoff])

theorem pgBits (m : BitVec 64) (d : Nat) (high : Bool) {k : Nat} (hk : k < 64) :
    (if high then m ||| enBits [d] else m &&& ~~~enBits [d]).getLsbD k = if k = d then high else m.getLsbD k := by
  have hbit : (enBits [d]).getLsbD k = decide (k = d) := by simp [enBits_getLsbD [d] hk]
  cases high with
  | true =>
    rw [if_pos rfl, BitVec.getLsbD_or, hbit]
    by_cases hd : k = d <;> simp [hd]
  | false =>
    rw [if_neg Bool.false_ne_true, BitVec.getLsbD_and, BitVec.getLsbD_not, hbit]
    by_cases hd : k = d <;> simp [hd, hk]
end

/-- Settles O54. A high level of an off rail sets its VR_PG: the model's choice (log 116). -/
theorem wakeAndRails : Obligations.WakeAndRails := by
  unfold Obligations.WakeAndRails
  intro n info d lowNs high s
  refine ⟨fun hwake hretry => ⟨fun hstep hfw => ⟨fun hpg => ?_, fun hpg htries => ?_⟩, fun b hstep hinfo => ?_,
      fun hstep htries => ?_, fun hstep htries => ?_⟩,
    fun hwake hretry => congrArg Host.Outcome.next (wakeRetry_hub hwake hretry),
    fun hshort => congrArg Host.Outcome.next (railFault_short s hshort),
    fun hin hlow hdone => ⟨fun hdie => ?_, fun hdie => ?_⟩,
    fun hrail hoff => ⟨_, congrArg Host.Outcome.next (pgLevel_off s hrail hoff high), rfl, fun k hk => pgBits _ _ _ hk⟩⟩
  · exact congrArg Host.Outcome.next ((wakeDone_hub hwake hretry (by omega) info).trans
      ((hubStepDone_next hstep hfw info).trans (hubStep_late _ hpg)))
  · refine ⟨_, congrArg Host.Outcome.next ((wakeDone_hub hwake hretry (by omega) info).trans
      ((hubStepDone_next hstep hfw info).trans (hubStep_early _ hpg))), ?_⟩
    obtain ⟨hwait, hen, hstepped, -, -⟩ := stageOneFail_retries
      (s := (s.powerGood (hubRails s.rst.step)).modRst fun r => { r with step := s.rst.step + 1 }) htries
    exact ⟨hwait, hen, hstepped⟩
  · subst hinfo
    refine ⟨_, congrArg Host.Outcome.next ((wakeDone_hub hwake hretry (by omega) _).trans (hubStepDone_firmware hstep b)), rfl, rfl, rfl, ?_⟩
    simp only [State.railsOn, State.powerGood, loadWear, modRst_mem, modGln_mem]
  · obtain ⟨hwait, hen, hstepped, hcount, hlock⟩ := stageOneFail_retries htries
    exact ⟨_, congrArg Host.Outcome.next (wakeTimeout_hub hwake hretry hstep), hwait, hen, hcount, hstepped, hlock⟩
  · exact ⟨_, congrArg Host.Outcome.next (wakeTimeout_hub hwake hretry hstep), stageOneFail_locks htries⟩
  · refine ⟨_, congrArg Host.Outcome.next ((railFault_long s hin hlow).trans (railFaultNow_die s hdone hdie)), ?_⟩
    cases hfail : s.rst.die[n].failed with
    | true =>
      simp only [dieRailFault_failed s hfail]
      exact ⟨railsGone_vrEn s d.isLt hdie, railsGone_die s (·.powered) (fun _ _ => rfl) (fun _ _ => rfl) n, nofun⟩
    | false =>
      obtain ⟨hfails, hstacks⟩ := dieRailFault_fails s hfail
      refine ⟨?_, ?_, fun _ => ⟨hfails, dieLost_stacks s n _ hstacks⟩⟩
      · simp only [dieRailFault_live s hfail]
        exact railsGone_vrEn _ d.isLt hdie
      · simp only [dieRailFault_live s hfail]
        exact railsGone_die _ (·.powered) (fun _ _ => rfl) (fun _ _ => rfl) n
  · exact ⟨_, congrArg Host.Outcome.next ((railFault_long s hin hlow).trans (railFaultNow_hub s hdone hdie)), rfl, rfl, rfl, rfl, rfl, rfl⟩

end Sys2Proof.Proofs


namespace Sys2Proof.Proofs

open Sys2Proof Sys2Proof.Machine Sys2Proof.Laws

/-! SUPPORT. The host port (16): the statements on upstream completions and on Hot Reset, each with the state that refutes it. -/

/-! ## A page for a tile whose matrix engine still writes (R567, Table 4-2) -/

/-- The read of a page that a gather asks for the local memory of tile 5, at address 64. -/
def pageRead : Upstream := { tag := 9, fn := 0, src := .kv 1 (some 5) 64 none, abandoned := false }

/-- The read is under way, with a byte that MXE.ST of the same tile has on its way to local address 4,096; no dies are powered. -/
def pageDuringMxe : State := { State.reset with
  pwr := { State.reset.pwr with diesDown := true }
  tile := { State.reset.tile with mxeOut := [{ tile := 5, addr := 4096, bytes := [1], at_ := 8 }] }
  hif := { State.reset.hif with upstream := [pageRead] } }

theorem settle_diesDown {s : State} (h : s.pwr.diesDown = true) : settle s = s := if_pos h

/-- The byte that the matrix engine had on its way stands in local memory after the completion. -/
theorem localMem_pageDuringMxe {t : State} (h : exec (.upstreamCompletion 9 []) pageDuringMxe = .next (settle t)) :
    mget 0 t.tile.localMem (localKey 5 4096) = 1 := by
  have ht : settle t = (pageDuringMxe.dropUp 9).writeLocal 5 64 [] :=
    (Host.Outcome.next.inj h).symm.trans (settle_diesDown rfl)
  have hdown : t.pwr.diesDown = true := by
    have hpwr : (settle t).pwr = t.pwr := congrArg Fixed.pwr (settle_fixed t)
    rw [← hpwr, ht]
    rfl
  rw [← settle_diesDown hdown, ht]
  decide

/-- Refutes O56: its clause on a page that comes for a tile leaves out that the write into local memory comes after what the tile's matrix
engine has on its way (Table 4-2), so with such a write outstanding local memory gains more than the page's bytes. -/
theorem not_dmaAndUpstream : ¬ Obligations.DmaAndUpstream := by
  unfold Obligations.DmaAndUpstream
  intro h
  obtain ⟨-, -, hup⟩ := h 0 0 0 _ pageDuringMxe rfl
  obtain ⟨-, hpage, -⟩ := hup pageRead rfl
  obtain ⟨t, ht, hlocal, -⟩ := hpage [] 1 5 64 none rfl rfl rfl
  have hbyte := localMem_pageDuringMxe ht
  rw [hlocal] at hbyte
  exact absurd hbyte (by decide)

/-! ## Two steps of one name at a Hot Reset (R513, R578) -/

/-- A partition of VF 1. -/
def vfPart : PartDesc where
  part := 1
  enabled := true
  deadreadFault := false
  ring := false
  c0 := false
  vf := 1
  grWays := 0
  share := 0
  ctxBase := 0
  ctxCount := 0
  dmaMask := 0
  sheafMask := 0
  channelMask := 0

/-- A structure with that partition alone. -/
def vfStructure : Structure where
  hash := 0
  compatClass := 0
  minor := 0
  c0Period := 0
  parts := [vfPart]
  windows := []
  degrade := none
  trees := []
  compat := []
  budgets := []
  mcasts := []
  plans := []
  codes := []
  seq := none
  refresh := none
  optable := none
  dieShare := []

/-- Step 9 of a partition, placed and not begun. -/
def stepNine (part : Nat) : Step where
  id := 9
  part := part
  cls := 1
  planId := 2
  runPlan := 2
  irq := false
  ordered := false
  ingest := false
  ctxFirst := 0
  ctxCount := 0
  argAddr := 0
  tag := 0
  notBefore := 0
  readBeat := 0
  phase := .placed
  start := 0
  grade := 0
  begun := []
  running := []
  delays := []
  overrun := 0
  charge := 0
  fault := none
  faultAt := none
  dlMiss := false
  tokenHeld := false
  slip := false
  snap := none
  snapCode := none
  dstep := 0

/-- A link that is up, with VF 1 enabled, and two steps named 9: one of partition 0, which no structure describes and the PF serves, and one
of the partition of VF 1. -/
def twoNines : State := { State.reset with
  str := some vfStructure
  hif := { State.reset.hif with linkUp := true, vfEnable := true, numVfs := 1 }
  stp := { State.reset.stp with
    part := State.reset.stp.part.set 1 { state := .active }
    steps := [stepNine 0, stepNine 1] } }

/-- The reset of VF 1 ends the step of partition 0 by its name, and the record that is lost counts at the PF, which was reset before. -/
theorem hotReset_twoNines : (hotReset twoNines).hif.fn[(0 : Fn)].errCount = 1 := by decide +kernel

/-- Refutes O57: its clause on the registers of the PF after a Hot Reset has no hypothesis that the steps in flight have names of their own.
A step of the PF's that shares its name with one of a VF ends with that VF's partition, and its record, lost while the link is down (R352),
counts in HIF_ERR of the PF after the PF has been reset. -/
theorem not_hostPortLink : ¬ Obligations.HostPortLink := by
  unfold Obligations.HostPortLink
  intro h
  obtain ⟨-, hreset, -⟩ := h twoNines
  obtain ⟨t, ht, -, -, -, hregs, -⟩ := hreset rfl
  have hcount : t.hif.fn[(0 : Fn)].errCount = 1 := by
    rw [← Host.Outcome.next.inj ht]
    exact hotReset_twoNines
  rw [hregs] at hcount
  exact absurd hcount (by decide)

end Sys2Proof.Proofs


namespace Sys2Proof.Proofs

open Sys2Proof Sys2Proof.Machine Sys2Proof.Laws

/-! ## What the ends of steps leave of partitions and steps -/

section
variable (s : State)

@[simp] theorem modTrlSlot_marks (n f) : marks (s.modTrlSlot n f) = marks s := rfl
@[simp] theorem sendUp_marks : marks s.sendUp = marks s := each_marks _ (f := State.issueUp) (fun _ _ => rfl) _

@[simp] theorem tryPending_marks (n) : marks (s.tryPending n) = marks s := by
  unfold State.tryPending
  dsimp only
  split
  · rfl
  · split
    · exact sendUp_marks _
    · rfl

@[simp] theorem unpin_marks (id) : marks (s.unpin id) = marks s := by simp [State.unpin]
@[simp] theorem clearStep_marks (id) : marks (s.clearStep id) = marks s := by simp [State.clearStep]

@[simp] theorem failFill_marks (n) : marks (failFill s n) = marks s := by
  unfold failFill
  split
  · exact tryPending_marks ..
  · rfl

theorem abandonUpstream_marks (fn) : marks (abandonUpstream s fn) = marks s := by
  unfold abandonUpstream
  refine each_marks _ (fun u src => ?_) _
  split
  · exact failFill_marks ..
  · rfl

/-- The names and partitions of the steps, in order. -/
def names : List (Nat × Nat) := s.stp.steps.map fun t => (t.id, t.part)

/-- A partition's registers once a record is in its completion ring of n records (R352). -/
def recorded (n : Nat) (q : PartSt) : PartSt :=
  { q with cqTail := (q.cqTail + 1) % n, cqPhase := if q.cqTail + 1 = n then !q.cqPhase else q.cqPhase }

theorem writeRecord_part (p irq r) :
    (s.writeRecord p irq r).stp.part = vmodN s.stp.part p (recorded (ringSize (partSt s p).cqSize)) := by
  unfold State.writeRecord
  dsimp only
  split
  · rw [signal_stp]
    split <;> rfl
  · split <;> rfl

/-- A function of a partition's registers that leaves its state (R366). -/
def keepsState (f : PartSt → PartSt) : Prop := ∀ q, (f q).state = q.state

/-- A step that completes goes by its name, and writes of its own partition's registers only. -/
theorem completeStep_ends {id : Nat} {x : Step} (h : getStep s id = some x) :
    names (s.completeStep id) = (names s).filter (fun e => e.1 != id) ∧
      ∃ f, keepsState f ∧ (s.completeStep id).stp.part = vmodN s.stp.part x.part f := by
  unfold State.completeStep
  rw [h]
  dsimp only
  generalize hcharged : (if overCharge s x = 0 then s else s.chargePart x.part (overCharge s x)) = u
  have hcharge : names u = names s ∧ ∃ g, keepsState g ∧ u.stp.part = vmodN s.stp.part x.part g := by
    subst hcharged
    split
    · exact ⟨rfl, fun q => q, fun _ => rfl, by unfold vmodN; split <;> simp⟩
    · exact ⟨rfl, fun q => { q with account := q.account + BitVec.ofNat 64 (overCharge s x), frameCharge := q.frameCharge + overCharge s x },
        fun _ => rfl, rfl⟩
  generalize hmid : (if x.phase = .live ∧ collectiveStep u { x with charge := x.charge + overCharge s x } = true then u.modRhl _ else u) = v
  have hstp : v.stp = u.stp := by
    subst hmid
    split <;> rfl
  have hclear : marks ((v.clearStep id).unpin id) = marks v := by simp
  obtain ⟨hnames, g, hg, hpart⟩ := hcharge
  constructor
  · have hall : names ((v.clearStep id).unpin id) = names s := by
      rw [← hnames, names, names_of_marks hclear, hstp, names]
    rw [names, writeRecord_steps, ← hall]
    simp [names, List.filter_map, Function.comp_def]
  · refine ⟨?f, ?keeps, ?part⟩
    case part => rw [writeRecord_part, modStp_stp, part_of_marks hclear, hstp, hpart, vmodN_vmodN]
    case keeps => exact hg

/-- A step that ends goes by its name; the states of the partitions stay, and the registers of every partition but the step's. -/
theorem endStep_ends (id c) : names (s.endStep id c) = (names s).filter (fun e => e.1 != id) ∧
    (∀ p, (partSt (s.endStep id c) p).state = (partSt s p).state) ∧
    ∀ p, (∀ e ∈ names s, e.2 ≠ p) → partSt (s.endStep id c) p = partSt s p := by
  have hfault : marks (s.faultStep id c) = marks s := faultStep_marks ..
  have hnames : names (s.faultStep id c) = names s := names_of_marks hfault
  have hpart (p) : partSt (s.faultStep id c) p = partSt s p := by rw [partSt, part_of_marks hfault, partSt]
  unfold State.endStep
  cases hx : getStep (s.faultStep id c) id with
  | none =>
    have hsame : (s.faultStep id c).completeStep id = s.faultStep id c := by rw [State.completeStep, hx]
    refine ⟨?_, fun p => by rw [hsame, hpart], fun p _ => by rw [hsame, hpart]⟩
    rw [hsame, ← hnames]
    refine (List.filter_eq_self.mpr fun e he => ?_).symm
    obtain ⟨t, ht, rfl⟩ := List.mem_map.mp he
    simpa [getStep] using List.find?_eq_none.mp hx t ht
  | some x =>
    obtain ⟨hends, f, hf, hreg⟩ := completeStep_ends (s.faultStep id c) hx
    refine ⟨by rw [hends, hnames], fun p => ?_, fun p hp => ?_⟩
    · rw [← hpart, partSt, hreg, vat_vmodN, partSt]
      split
      · exact hf _
      · rfl
    · have hother : x.part ≠ p := hp (x.id, x.part) (hnames ▸ List.mem_map_of_mem (List.mem_of_find?_eq_some hx))
      rw [← hpart, partSt, hreg, vat_vmodN_ne _ _ _ _ _ hother, partSt]

/-- The ends of steps take them by their names; the states of the partitions stay, and the registers of a partition that has no step. -/
theorem endSteps_ends (ids : List Nat) (c : Code) : names (s.each ids fun s i => s.endStep i c) = (names s).filter (fun e => !ids.contains e.1) ∧
    (∀ p, (partSt (s.each ids fun s i => s.endStep i c) p).state = (partSt s p).state) ∧
    ∀ p, (∀ e ∈ names s, e.2 ≠ p) → partSt (s.each ids fun s i => s.endStep i c) p = partSt s p := by
  induction ids generalizing s with
  | nil => exact ⟨(List.filter_eq_self.mpr fun _ _ => rfl).symm, fun _ => rfl, fun _ _ => rfl⟩
  | cons i ids ih =>
    obtain ⟨hnames, hstate, hpart⟩ := endStep_ends s i c
    obtain ⟨hrest, hstates, hparts⟩ := ih (s.endStep i c)
    refine ⟨?_, fun p => (hstates p).trans (hstate p), fun p hp => (hparts p fun e he => ?_).trans (hpart p hp)⟩
    · rw [State.each, List.foldl_cons]
      refine hrest.trans ?_
      rw [hnames, List.filter_filter]
      refine List.filter_congr fun e _ => ?_
      rw [List.contains_cons, Bool.not_or, Bool.and_comm]
      rfl
    · rw [hnames] at he
      exact hp e (List.mem_of_mem_filter he)
end

/-! ## PART resets (R366, R511) -/

/-- A partition has no step, and its completion ring is at its start. -/
def spent (s : State) (p : Nat) : Prop := (∀ e ∈ names s, e.2 ≠ p) ∧ (partSt s p).cqTail = 0 ∧ (partSt s p).cqHead = 0

section
variable {s : State} {p q : Nat}

/-- A partition as a PART reset has it once its steps are gone and its queues are clear. -/
def partCleared (s : State) (p : Nat) : State := clearQueues ((fence s (.part p)).endPartSteps p (fun _ => true) .stepAborted) p

theorem partReset_stp (hp : (partSt s p).state ≠ .disabled) (source : Nat) :
    ∃ f : PartSt → PartSt, (∀ q, (f q).state ≠ .disabled ∧ (f q).cqTail = q.cqTail ∧ (f q).cqHead = q.cqHead) ∧
      (partReset s p source).stp = ((partCleared s p).modPart p f).stp := by
  rw [partReset, if_neg hp]
  dsimp only
  generalize partResBad _ p = bad
  refine ⟨fun q => { q with state := if q.state = .resetting then .resetting else if bad then .faulted else .active },
    fun q => ⟨?_, rfl, rfl⟩, ?_⟩
  · dsimp only
    split
    · decide
    · split <;> decide
  · refine (signal_stp _ _ _).trans ?_
    cases bad with
    | true => simp only [partCleared, State.modPart, State.clearTiles, modStp_stp, modRst_stp, modTile_stp, if_true]
    | false => simp only [partCleared, State.modPart, State.clearTiles, modStp_stp, modTile_stp, Bool.false_eq_true, if_false]

theorem clearQueues_names (s : State) (p : Nat) : names (clearQueues s p) = names s := rfl

theorem clearQueues_part (s : State) (p q : Nat) : partSt (clearQueues s p) q =
    if p = q ∧ p < 8 then { partSt s q with cqTail := 0, cqHead := 0, cqPhase := true } else partSt s q := by
  simp only [partSt, clearQueues, State.modPart, modStp_stp, vat_vmodN]

/-- The steps of a partition that is reset go, and no other partition's queues or registers change but by those steps' records. -/
theorem partCleared_spec (s : State) (p : Nat) : (∀ e ∈ names (partCleared s p), e ∈ names s ∧ e.2 ≠ p) ∧
    (∀ q, (partSt (partCleared s p) q).state = (partSt s q).state) ∧
    (p < 8 → (partSt (partCleared s p) p).cqTail = 0 ∧ (partSt (partCleared s p) p).cqHead = 0) ∧
    ∀ q, q ≠ p → (∀ e ∈ names s, e.2 ≠ q) → partSt (partCleared s p) q = partSt s q := by
  have hfence : marks (fence s (.part p)) = marks s := fence_marks ..
  have hfenced : names (fence s (.part p)) = names s := names_of_marks hfence
  have hreg (q) : partSt (fence s (.part p)) q = partSt s q := by rw [partSt, part_of_marks hfence, partSt]
  obtain ⟨hnames, hstate, hpart⟩ := endSteps_ends (fence s (.part p))
    (((fence s (.part p)).stp.steps.filter fun t => t.part == p && (fun _ => true) t).map (·.id)) .stepAborted
  have hclear (q) : partSt (partCleared s p) q = if p = q ∧ p < 8 then
      { partSt ((fence s (.part p)).endPartSteps p (fun _ => true) .stepAborted) q with cqTail := 0, cqHead := 0, cqPhase := true }
      else partSt ((fence s (.part p)).endPartSteps p (fun _ => true) .stepAborted) q := clearQueues_part ..
  refine ⟨fun e he => ?_, fun q => ?_, fun hp => ?_, fun q hq hnone => ?_⟩
  · rw [partCleared, clearQueues_names, State.endPartSteps, hnames, List.mem_filter] at he
    obtain ⟨he, hgone⟩ := he
    refine ⟨hfenced ▸ he, fun hpart => ?_⟩
    obtain ⟨t, ht, rfl⟩ := List.mem_map.mp he
    have hout : ∀ x ∈ (fence s (.part p)).stp.steps, x.part = p → x.id ≠ t.id := by simpa using hgone
    exact hout t ht hpart rfl
  · rw [hclear, ← hreg, ← hstate]
    split <;> rfl
  · rw [hclear, if_pos ⟨rfl, hp⟩]
    exact ⟨rfl, rfl⟩
  · rw [hclear, if_neg fun h => hq h.1.symm, ← hreg]
    exact hpart q fun e he => hnone e (hfenced ▸ he)

theorem partReset_disabled (hp : (partSt s p).state = .disabled) (source : Nat) : partReset s p source = s := if_pos hp

/-- A partition that is not DISABLED stays so in the PART resets (R366). -/
theorem partReset_enabled (hq : (partSt s q).state ≠ .disabled) (source : Nat) : (partSt (partReset s p source) q).state ≠ .disabled := by
  by_cases hp : (partSt s p).state = .disabled
  · rwa [partReset_disabled hp]
  · obtain ⟨f, hf, hstp⟩ := partReset_stp hp source
    obtain ⟨-, hstate, -, -⟩ := partCleared_spec s p
    rw [partSt, hstp, State.modPart, modStp_stp, vat_vmodN]
    split
    · exact (hf _).1
    · rwa [← hstate] at hq

/-- A partition that is reset is spent. -/
theorem partReset_spent (hp : (partSt s p).state ≠ .disabled) (hlt : p < 8) (source : Nat) : spent (partReset s p source) p := by
  obtain ⟨f, hf, hstp⟩ := partReset_stp hp source
  obtain ⟨hnames, -, hclear, -⟩ := partCleared_spec s p
  refine ⟨fun e he => ?_, ?_⟩
  · rw [names, hstp] at he
    exact (hnames e he).2
  · rw [partSt, hstp, State.modPart, modStp_stp, vat_vmodN, if_pos ⟨rfl, hlt⟩, (hf _).2.1, (hf _).2.2]
    exact hclear hlt

/-- A spent partition stays so in the resets of the others, though steps of one name may be of several partitions. -/
theorem partReset_keepsSpent (hq : spent s q) (hlt : q < 8) (source : Nat) : spent (partReset s p source) q := by
  by_cases hp : (partSt s p).state = .disabled
  · rwa [partReset_disabled hp]
  by_cases hpq : q = p
  · subst hpq
    exact partReset_spent hp hlt source
  obtain ⟨f, -, hstp⟩ := partReset_stp hp source
  obtain ⟨hnames, -, -, hother⟩ := partCleared_spec s p
  refine ⟨fun e he => ?_, ?_⟩
  · rw [names, hstp] at he
    exact hq.1 e (hnames e he).1
  · have hkept := hother q hpq hq.1
    rw [partSt, hstp, State.modPart, modStp_stp, vat_vmodN_ne _ _ _ _ _ (Ne.symm hpq)]
    rw [partSt] at hkept
    rw [hkept]
    exact hq.2

/-- Of the partitions reset one after another, each that was not DISABLED is spent at the end. -/
theorem partResets_spent {ps : List Nat} (hmem : q ∈ ps) (hq : (partSt s q).state ≠ .disabled) (hlt : q < 8) (source : Nat) :
    spent (s.each ps fun s p => partReset s p source) q := by
  have hkeep (ps : List Nat) (u : State) (hu : spent u q) : spent (u.each ps fun s p => partReset s p source) q :=
    List.foldlRecOn (motive := fun t => spent t q) ps _ hu fun _ ht _ _ => partReset_keepsSpent ht hlt source
  induction ps generalizing s with
  | nil => cases hmem
  | cons p ps ih =>
    by_cases hpq : q = p
    · subst hpq
      exact hkeep ps _ (partReset_spent hq hlt source)
    · exact ih ((List.mem_cons.mp hmem).resolve_left hpq) (partReset_enabled hq source)
end

/-! ## Function-level resets (R513) -/

/-- What says which function serves a partition (R555): the structure, and SR-IOV. -/
def serves (s : State) : Option Structure × Bool × Nat := (s.str, s.hif.vfEnable, s.hif.numVfs)

section
variable {s t : State}

theorem servedParts_of_serves (h : serves t = serves s) (fn : Nat) : servedParts t fn = servedParts s fn := by
  have hstr : t.str = s.str := congrArg (·.1) h
  have hon : t.hif.vfEnable = s.hif.vfEnable := congrArg (·.2.1) h
  have hcount : t.hif.numVfs = s.hif.numVfs := congrArg (·.2.2) h
  unfold servedParts servingFn partDesc
  rw [hstr, hon, hcount]

theorem sendUp_serves (s : State) : serves s.sendUp = serves s := each_proj serves State.issueUp (fun _ _ => rfl) _ _

theorem tryPending_serves (s : State) (n : Nat) : serves (s.tryPending n) = serves s := by
  unfold State.tryPending
  dsimp only
  split
  · rfl
  · split
    · exact sendUp_serves _
    · rfl

theorem abandonUpstream_serves (s : State) (fn : Nat) : serves (abandonUpstream s fn) = serves s := by
  unfold abandonUpstream
  refine each_proj serves _ (fun u src => ?_) _ _
  split
  · unfold failFill
    split
    · exact tryPending_serves ..
    · rfl
  · rfl

/-- The partitions as an FLR of their function leaves them, before its DMA engines and its registers. -/
def partsReset (s : State) (fn : Nat) : State := (abandonUpstream s fn).each (servedParts s fn) fun s p => partReset s p 6

theorem partsReset_spent {fn : Nat} {p : Part} (hdesc : (partDesc s p).isSome = true) (hserves : servingFn s p = fn)
    (hstate : s.stp.part[p].state ≠ .disabled) : spent (partsReset s fn) p := by
  have hmem : p.val ∈ servedParts s fn :=
    List.mem_filter.mpr ⟨List.mem_range.mpr p.isLt, by rw [hdesc, hserves, beq_self_eq_true, Bool.and_self]⟩
  have henabled : (partSt (abandonUpstream s fn) p).state ≠ .disabled := by
    rwa [partSt, part_of_marks (abandonUpstream_marks s fn), vat_get]
  exact partResets_spent hmem henabled p.isLt 6

theorem abandonJob_stp (s : State) (flr : Bool) : (abandonJob s flr).stp = s.stp := by
  unfold abandonJob
  split
  · rfl
  · split
    · rfl
    · split <;> rfl
    · split <;> rfl

theorem flr_eq {fn : Nat} (h : fnEnabled s fn = true) : flr s fn = (resetFnRegs (if fn = 0 then
      abandonJob ((partsReset s fn).abortDma fun e => dmaOwner (partsReset s fn) e == fn) true
      else (partsReset s fn).abortDma fun e => dmaOwner (partsReset s fn) e == fn) fn).setCause .ok 5 6 fn := by
  rw [flr, if_pos h]
  dsimp only
  rw [partsReset, servedParts_of_serves (abandonUpstream_serves s fn)]

theorem resetFnRegs_stp (s : State) (fn : Nat) : (resetFnRegs s fn).stp = s.stp := by
  simp only [resetFnRegs, modHif_stp, modTmp_stp, modTel_stp, modTrl_stp, modSrv_stp]

/-- The engines, the loader and the registers of the function leave the partitions alone. -/
theorem flr_part {fn : Nat} (h : fnEnabled s fn = true) : (flr s fn).stp.part = (partsReset s fn).stp.part := by
  have habort := part_of_marks (abortDma_marks (partsReset s fn) fun e => dmaOwner (partsReset s fn) e == fn)
  rw [flr_eq h, ← habort, State.setCause, modRst_stp, resetFnRegs_stp]
  split
  · rw [abandonJob_stp]
  · rfl

theorem resetFnRegs_regs (s : State) (fn : Fn) : (resetFnRegs s fn).srv.fn[fn] = {} ∧
    (resetFnRegs s fn).hif.fn[fn] = { bar2Log2 := if fn.val = 0 then 6 else 2 } ∧ (resetFnRegs s fn).tmp.latch[fn] = none := by
  simp [resetFnRegs, vmodN_set]
end

end Sys2Proof.Proofs


namespace Sys2Proof.Proofs

open Sys2Proof Sys2Proof.Machine Sys2Proof.Laws

/-! ## Stage 2 of the wake when no die fails (R515, R517) -/

/-- What the wake of the dies leaves alone: the reset under way, what it dropped and the dies that are failed. -/
def resetKept (s : State) : Option Bool × Bool × Bool × Cause × List Step × NMap Byte × Vector Bool 4 :=
  (s.rst.warm, s.rst.done, s.rst.pkgGood, s.rst.cause, s.stp.steps, s.mem.cells, s.rst.die.map (·.failed))

/-- How often each die has been tried. -/
def dieTries (s : State) : Vector Nat 4 := s.rst.die.map (·.tries)

section
variable {s : State} {n : Nat}

theorem seqOp_kept (s : State) (n : Nat) (o : SeqOp) : resetKept (seqOp s n o) = resetKept s ∧ dieTries (seqOp s n o) = dieTries s := by
  have hdie (f : DieWake → DieWake) (hfail : ∀ d, (f d).failed = d.failed) (htry : ∀ d, (f d).tries = d.tries) :
      resetKept (s.modDie n f) = resetKept s ∧ dieTries (s.modDie n f) = dieTries s := by
    simp only [resetKept, dieTries, State.modDie, modRst_rst, modRst_stp, modRst_mem, vmodN_map hfail, vmodN_map htry, and_self]
  unfold seqOp
  split
  · exact ⟨rfl, rfl⟩
  split
  · exact ⟨rfl, rfl⟩
  iterate 4 (split; · exact hdie _ (fun _ => rfl) (fun _ => rfl))
  exact ⟨rfl, rfl⟩

theorem dieRailsOff_kept (s : State) (n : Nat) : resetKept (dieRailsOff s n) = resetKept s ∧ dieTries (dieRailsOff s n) = dieTries s :=
  ⟨each_proj resetKept _ (fun u o => (seqOp_kept u n o).1) (downList s) s, each_proj dieTries _ (fun u o => (seqOp_kept u n o).2) (downList s) s⟩

/-- Some die is not failed. -/
def someLive (s : State) : Prop := ∃ d : Die, s.rst.die[d].failed = false

theorem someLive_of_kept {t : State} (h : resetKept t = resetKept s) (hlive : someLive s) : someLive t := by
  obtain ⟨d, hd⟩ := hlive
  exact ⟨d, (get_of_map (congrArg (·.2.2.2.2.2.2) h) d).trans hd⟩

theorem dropBoot_frame (s : State) : (dropBoot s).rst = s.rst ∧ (dropBoot s).stp = s.stp ∧ (dropBoot s).mem = s.mem := by
  unfold dropBoot
  split
  · split <;> exact ⟨rfl, rfl, rfl⟩
  · exact ⟨rfl, rfl, rfl⟩

/-- Stage 2 goes on while a die is left. -/
theorem settleStage2_kept (hlive : someLive s) : resetKept (settleStage2 s) = resetKept s ∧ dieTries (settleStage2 s) = dieTries s := by
  obtain ⟨d, hd⟩ := hlive
  have hmem : d.val ∈ idx 4 fun n => !(dieWake s n).failed :=
    List.mem_filter.mpr ⟨List.mem_range.mpr d.isLt, by rw [dieWake, vat_get, hd]; rfl⟩
  unfold settleStage2
  dsimp only
  split
  · next hnil => exact absurd (List.map_eq_nil_iff.mp hnil ▸ hmem) List.not_mem_nil
  · exact ⟨rfl, rfl⟩

theorem vat_dieTries (s : State) (n : Nat) : vat (dieTries s) n 0 = (dieWake s n).tries := by
  unfold dieTries dieWake vat
  split <;> simp

/-- A change of a die's wake state that leaves its failed mark. -/
theorem modDie_kept {f : DieWake → DieWake} (h : ∀ d, (f d).failed = d.failed) (s : State) (n : Nat) :
    resetKept (s.modDie n f) = resetKept s ∧ ∀ m, m ≠ n → (dieWake (s.modDie n f) m).tries = (dieWake s m).tries := by
  constructor
  · simp only [resetKept, State.modDie, modRst_rst, modRst_stp, modRst_mem, vmodN_map h]
  · intro m hm
    simp only [dieWake, State.modDie, modRst_rst, vat_vmodN_ne _ _ _ _ _ (Ne.symm hm)]

/-- The power-down list and the settling of stage 2 keep the tries of every die. -/
theorem settled_kept (s : State) (n : Nat) (hlive : someLive s) : resetKept (settleStage2 (dieRailsOff s n)) = resetKept s ∧
    ∀ m, (dieWake (settleStage2 (dieRailsOff s n)) m).tries = (dieWake s m).tries := by
  obtain ⟨hoff, htries⟩ := dieRailsOff_kept s n
  obtain ⟨hset, hsettries⟩ := settleStage2_kept (someLive_of_kept hoff hlive)
  exact ⟨hset.trans hoff, fun m => by rw [← vat_dieTries, hsettries, htries, vat_dieTries]⟩

/-- A die that has tries left does not fail for good (R517). -/
theorem stageTwoFail_kept (htries : (dieWake s n).tries < 3) (hlive : someLive s) : resetKept (stageTwoFail s n) = resetKept s ∧
    ∀ m, m ≠ n → (dieWake (stageTwoFail s n) m).tries = (dieWake s m).tries := by
  have hlast : ¬4 ≤ (dieWake s n).tries + 1 := by omega
  obtain ⟨hrst, hstp, hmem⟩ := dropBoot_frame s
  unfold stageTwoFail
  simp only [if_neg hlast]
  generalize hrecord : (dropBoot s).modRst (fun r => _) = u
  have hu : resetKept u = resetKept s ∧ u.rst.die = s.rst.die := by
    subst hrecord
    simp only [resetKept, modRst_rst, modRst_stp, modRst_mem, hrst, hstp, hmem, and_self]
  obtain ⟨hbegun, hother⟩ := modDie_kept (f := fun d =>
    { d with tries := (dieWake s n).tries + 1, powered := false, seqIdx := 0, step := 9, waiting := true }) (fun _ => rfl) u n
  obtain ⟨hset, hsettries⟩ := settled_kept _ n (someLive_of_kept (hbegun.trans hu.1) hlive)
  exact ⟨hset.trans (hbegun.trans hu.1), fun m hm => (hsettries m).trans ((hother m hm).trans (by rw [dieWake, hu.2, dieWake]))⟩

/-- The power-up list of a die that has tries left. -/
theorem seqRun_kept (os : List SeqOp) (i : Nat) (htries : (dieWake s n).tries < 3) (hlive : someLive s) :
    resetKept (seqRun n os i s) = resetKept s ∧ ∀ m, m ≠ n → (dieWake (seqRun n os i s) m).tries = (dieWake s m).tries := by
  induction os generalizing i s with
  | nil =>
    obtain ⟨hdone, hother⟩ := modDie_kept (f := fun d => { d with step := 10, powered := true }) (fun _ => rfl) s n
    obtain ⟨hset, hsettries⟩ := settleStage2_kept (someLive_of_kept hdone hlive)
    refine ⟨hset.trans hdone, fun m hm => ?_⟩
    rw [seqRun, ← vat_dieTries, hsettries, vat_dieTries, hother m hm]
  | cons o os ih =>
    unfold seqRun
    split
    · exact modDie_kept (f := fun d => { d with seqIdx := i }) (fun _ => rfl) s n
    · split
      · exact stageTwoFail_kept htries hlive
      · obtain ⟨hop, hoptries⟩ := seqOp_kept s n o
        have htried (m : Nat) : (dieWake (seqOp s n o) m).tries = (dieWake s m).tries := by rw [← vat_dieTries, hoptries, vat_dieTries]
        obtain ⟨hrest, hother⟩ := ih (i + 1) (by rwa [htried]) (someLive_of_kept hop hlive)
        exact ⟨hrest.trans hop, fun m hm => (hother m hm).trans (htried m)⟩

theorem startDie_kept (htries : (dieWake s n).tries < 3) (hlive : someLive s) : resetKept (startDie s n) = resetKept s ∧
    ∀ m, m ≠ n → (dieWake (startDie s n) m).tries = (dieWake s m).tries := by
  have hsame (m : Nat) : (dieWake (s.modDie n fun d => { d with step := 9, seqIdx := 0, waiting := false }) m).tries = (dieWake s m).tries := by
    rw [← vat_dieTries, ← vat_dieTries]
    exact congrArg (vat · m 0) (vmodN_map (f := fun d : DieWake => { d with step := 9, seqIdx := 0, waiting := false }) (fun _ => rfl) _ _)
  obtain ⟨hbegun, -⟩ := modDie_kept (f := fun d => { d with step := 9, seqIdx := 0, waiting := false }) (fun _ => rfl) s n
  obtain ⟨hrun, hother⟩ := seqRun_kept (upList s) 0 (by rwa [hsame n]) (someLive_of_kept hbegun hlive)
  exact ⟨hrun.trans hbegun, fun m hm => (hother m hm).trans (hsame m)⟩

/-- Stage 2 begins for dies that have not been tried, each once. -/
theorem startDies_kept {ns : List Nat} (hnodup : ns.Nodup) (htries : ∀ m ∈ ns, (dieWake s m).tries = 0) (hlive : someLive s) :
    resetKept (s.each ns startDie) = resetKept s := by
  induction ns generalizing s with
  | nil => rfl
  | cons n ns ih =>
    obtain ⟨hout, hnodup⟩ := List.nodup_cons.mp hnodup
    obtain ⟨hstart, hother⟩ := startDie_kept (n := n) (by rw [htries n List.mem_cons_self]; decide) hlive
    refine (ih hnodup (fun m hm => ?_) (someLive_of_kept hstart hlive)).trans hstart
    rw [hother m fun h => hout (h ▸ hm)]
    exact htries m (List.mem_cons_of_mem n hm)

theorem startStage2_kept (htries : ∀ m, (dieWake s m).tries = 0) (hlive : someLive s) : resetKept (startStage2 s) = resetKept s := by
  have hdies := startDies_kept (ns := idx 4 fun n => !(dieWake s n).failed) (List.nodup_range.filter _) (fun m _ => htries m) hlive
  exact (settleStage2_kept (someLive_of_kept hdies hlive)).1.trans hdies
end

/-! ## WARM resets (R508) -/

section
variable (s : State)

theorem writeBackAll_marks : marks (writeBackAll s) = marks s := by simp [writeBackAll]

/-- What a WARM reset takes of the hub and the dies is none of the state of wake and reset. -/
theorem warmDies_rst (keep : Bool) : unfenced (warmDies s keep).rst = unfenced s.rst := by
  cases keep with
  | true =>
    simp only [warmDies, if_true, modMem_rst, modFab_rst, modGrn_rst]
    rw [rst_of_marks (writeBackAll_marks _), modTile_rst]
  | false => simp only [warmDies, Bool.false_eq_true, if_false, modMem_rst, modFab_rst, modGrn_rst, modTile_rst]

theorem warmDies_cells : (warmDies s false).mem.cells = [] := by
  simp only [warmDies, Bool.false_eq_true, if_false, modMem_mem, modFab_mem, modGrn_mem]

theorem warmDies_names (keep : Bool) : names (warmDies s keep) = names s := by
  cases keep with
  | true =>
    simp only [warmDies, names, if_true, modMem_stp, modFab_stp, modGrn_stp]
    rw [names_of_marks (writeBackAll_marks _), modTile_stp]
  | false => simp only [warmDies, names, Bool.false_eq_true, if_false, modMem_stp, modFab_stp, modGrn_stp, modTile_stp]

theorem warmHub_frame (keep : Bool) : (warmHub s keep).rst = s.rst ∧ names (warmHub s keep) = [] := by
  have hreads (rs : List Bar2Read) (u : State) : (u.each rs fun s r => s.emit (.bar2Data r.fn none false)).rst = u.rst ∧
      (u.each rs fun s r => s.emit (.bar2Data r.fn none false)).stp = u.stp :=
    ⟨each_proj State.rst (fun s (r : Bar2Read) => s.emit (.bar2Data r.fn none false)) (fun _ _ => rfl) _ _,
      each_proj State.stp (fun s (r : Bar2Read) => s.emit (.bar2Data r.fn none false)) (fun _ _ => rfl) _ _⟩
  have hjobs (fs : List Nat) (u : State) : (u.each fs fun s fn => s.emit (.bar2Data fn none false)).rst = u.rst ∧
      (u.each fs fun s fn => s.emit (.bar2Data fn none false)).stp = u.stp :=
    ⟨each_proj State.rst (fun s fn => s.emit (.bar2Data fn none false)) (fun _ _ => rfl) _ _,
      each_proj State.stp (fun s fn => s.emit (.bar2Data fn none false)) (fun _ _ => rfl) _ _⟩
  simp only [warmHub, names, hreads, hjobs, State.abandonUp, modHif_rst, modBwr_rst, modTrl_rst, modSrv_rst, modStp_rst, modHif_stp, modBwr_stp,
    modTrl_stp, modSrv_stp, modStp_stp, List.map_nil, and_self]

theorem refreshGood_undone (h : s.rst.done = false) : s.refreshGood.rst = { s.rst with pkgGood := false } := by
  simp [State.refreshGood, goodNow, h]

theorem ringDown_undone (h : s.rst.done = false) : s.ringDown.rst = { s.rst with pkgGood := false } := by
  rw [State.ringDown, refreshGood_undone]
  · simp only [State.realignLink, State.leaveDomain, modTmp_rst, modGrade_rst, modRhl_rst]
  · simpa only [State.realignLink, State.leaveDomain, modTmp_rst, modGrade_rst, modRhl_rst] using h

theorem ringDown_frame : s.ringDown.stp = s.stp ∧ s.ringDown.mem = s.mem := by
  simp only [State.ringDown, State.refreshGood, State.realignLink, State.leaveDomain, modRst_stp, modTmp_stp, modGrade_stp, modRhl_stp,
    modRst_mem, modTmp_mem, modGrade_mem, modRhl_mem, and_self]

/-- A WARM reset as it begins: the reset is noted and PKG_GOOD drops. -/
def warmBegun (keep commit : Bool) (source : Nat) : State :=
  ((s.modRst fun r => { r with
      warm := some commit, done := false, wake := some (.warm keep), step := 9, stage1Tries := 0, retryWait := false,
      die := r.die.map fun d => { d with tries := 0, waiting := false } }).setCause .ok 2 source 0).refreshGood

/-- Its steps have completed with STEP_ABORTED, and its partitions and DMA engines have been told. -/
def warmAborted (keep commit : Bool) (source : Nat) : State :=
  let s := warmBegun s keep commit source
  let s := s.each (s.stp.steps.map (·.id)) fun s i => s.endStep i .stepAborted
  (s.each (idx 8 fun p => (partSt s p).state != .disabled) fun s p => s.signalPart p).abortDma fun _ => true

/-- The package as stage 2 of the wake finds it in a WARM reset. -/
def warmed (keep commit : Bool) (source : Nat) : State :=
  ((warmDies (warmHub (warmAborted s keep commit source) keep) keep).modPwr fun p => { p with stage := .run, diesDown := false }).ringDown

theorem warmStart_eq (keep commit : Bool) (source : Nat) : warmStart s keep commit source = startStage2 (warmed s keep commit source) := by
  simp only [warmStart, warmed, warmAborted, warmBegun]

theorem warmBegun_rst (keep commit : Bool) (source : Nat) : (warmBegun s keep commit source).rst = { s.rst with
    warm := some commit, done := false, wake := some (.warm keep), step := 9, stage1Tries := 0, retryWait := false, pkgGood := false,
    cause := { code := .ok, type := 2, source := source, target := 0 },
    die := s.rst.die.map fun d => { d with tries := 0, waiting := false } } :=
  refreshGood_undone _ rfl

theorem warmAborted_rst (keep commit : Bool) (source : Nat) :
    (warmAborted s keep commit source).rst = (warmBegun s keep commit source).rst := by
  refine rst_of_fixed ?_
  simp [warmAborted, State.abortDma, State.signalPart]

theorem warmed_rst (keep commit : Bool) (source : Nat) :
    unfenced (warmed s keep commit source).rst = unfenced (warmBegun s keep commit source).rst := by
  have hdies : unfenced (warmDies (warmHub (warmAborted s keep commit source) keep) keep).rst =
      unfenced (warmBegun s keep commit source).rst := by
    rw [warmDies_rst, (warmHub_frame _ _).1, warmAborted_rst]
  have hdone : (warmDies (warmHub (warmAborted s keep commit source) keep) keep).rst.done = false :=
    (congrArg (fun r : Reset => r.done) hdies).trans (by rw [warmBegun_rst]; rfl)
  have hdown := ringDown_undone ((warmDies (warmHub (warmAborted s keep commit source) keep) keep).modPwr fun p =>
    { p with stage := .run, diesDown := false }) hdone
  rw [warmed, hdown]
  refine (congrArg (fun r : Reset => { r with pkgGood := false }) hdies).trans ?_
  rw [warmBegun_rst]
  rfl

theorem warmed_names (keep commit : Bool) (source : Nat) : names (warmed s keep commit source) = [] := by
  rw [names, warmed, (ringDown_frame _).1, modPwr_stp]
  exact (warmDies_names _ keep).trans (warmHub_frame _ _).2

theorem warmed_cells (commit : Bool) (source : Nat) : (warmed s false commit source).mem.cells = [] := by
  rw [warmed, (ringDown_frame _).2, modPwr_mem, warmDies_cells]

/-- While a die is left, stage 2 of a WARM reset changes nothing of the reset. -/
theorem warmStart_kept (n : Die) (hlive : s.rst.die[n].failed = false) (keep commit : Bool) (source : Nat) :
    resetKept (warmStart s keep commit source) = resetKept (warmed s keep commit source) := by
  have hdie : (warmed s keep commit source).rst.die = s.rst.die.map fun d => { d with tries := 0, waiting := false } := by
    refine (congrArg (fun r : Reset => r.die) (warmed_rst s keep commit source)).trans ?_
    rw [warmBegun_rst]
    rfl
  rw [warmStart_eq]
  refine startStage2_kept (fun m => ?_) ⟨n, ?_⟩
  · rw [dieWake, hdie, vat]
    split
    · simp
    · rfl
  · rw [hdie]
    simpa using hlive

theorem abandonJob_rst (h : Bool) : (abandonJob s h).rst = s.rst := by
  unfold abandonJob
  split
  · rfl
  · split
    · rfl
    · split <;> rfl
    · split <;> rfl

variable {s}

/-- A WARM reset takes PKG_GOOD and every step (R508). -/
theorem warmStart_spec {n : Die} (hlive : s.rst.die[n].failed = false) (keep : Bool) (source : Nat) :
    let t := warmStart s keep false source
    t.rst.warm = some false ∧ t.rst.done = false ∧ t.rst.pkgGood = false ∧ t.stp.steps = [] ∧
      t.rst.cause = { code := .ok, type := 2, source := source, target := 0 } ∧ (keep = false → t.mem.cells = []) := by
  have hkept := warmStart_kept s n hlive keep false source
  have hrst := (warmed_rst s keep false source).trans (congrArg unfenced (warmBegun_rst s keep false source))
  have hsteps : (warmed s keep false source).stp.steps = [] := List.map_eq_nil_iff.mp (warmed_names s keep false source)
  refine ⟨(congrArg (·.1) hkept).trans (congrArg (fun r : Reset => r.warm) hrst),
    (congrArg (·.2.1) hkept).trans (congrArg (fun r : Reset => r.done) hrst),
    (congrArg (·.2.2.1) hkept).trans (congrArg (fun r : Reset => r.pkgGood) hrst),
    (congrArg (·.2.2.2.2.1) hkept).trans hsteps,
    (congrArg (·.2.2.2.1) hkept).trans (congrArg (fun r : Reset => r.cause) hrst), fun hkeep => (congrArg (·.2.2.2.2.2.1) hkept).trans ?_⟩
  subst hkeep
  exact warmed_cells s false source

/-- A write of RST_CTRL with WARM starts the reset, once the loader's operation is given up (R508). -/
theorem writeRstCtrl_warm {v : Nat} (hdone : s.rst.done = true) (hwarm : bitOf v 31 = true) (hdie : bitOf v 29 = false) (hnone : s.rst.warm = none) :
    writeRstCtrl s 0 v = warmStart (abandonJob s false) (bitOf v 30) false 4 := by
  simp [writeRstCtrl, hdone, hwarm, hdie, hnone]

theorem writeRstCtrl_die {v : Nat} {n : Die} (hdone : s.rst.done = true) (hwarm : bitOf v 31 = false) (hdie : bitOf v 29 = true)
    (hn : bitsOf v 25 24 = n.val) (hlive : dieFailed s n = false) (hloaded : s.fab.die[n].reloading = false) (hon : diePowered s n = true) :
    writeRstCtrl s 0 v = dieReset s n .ok 4 := by
  have hloaded' : (fabDie s n).reloading = false := by rwa [fabDie_get]
  simp [-fabDie_get, writeRstCtrl, hdone, hwarm, hdie, hn, hlive, hloaded', hon]

theorem writeRstCtrl_denied {fn v : Nat} (h : fn ≠ 0) : writeRstCtrl s fn v = s := if_pos (.inl h)

theorem dieHangTimeout_reloads {n : Die} (hdone : s.rst.done = true) (hon : diePowered s n = true) (hlive : dieFailed s n = false)
    (hloaded : s.fab.die[n].reloading = false) : exec (.dieHangTimeout n) s = .next (dieReload s n .dieHang 8) := by
  refine congrArg Host.Outcome.next (if_pos ?_)
  rw [hdone, hon, hlive, fabDie_get, hloaded]
  rfl

/-- The hub watchdog (R527). -/
theorem watchdogOut_spec (haon : s.rst.aon = true) (hen : s.rst.vrEn ≠ 0) (hexp : s.rst.wdtExpired = false) :
    (watchdogOut s).rst.wdtExpired = true ∧ (watchdogOut s).rst.faultN = false ∧ (watchdogOut s).rst.pkgGood = false ∧
      (watchdogOut s).mem = s.mem := by
  have hgood : goodNow (s.modRst fun r => { r with wdtExpired := true, faultN := false }) = false := by simp [goodNow]
  unfold watchdogOut
  rw [if_pos (by rw [haon, hexp, bne_iff_ne.mpr hen]; rfl)]
  dsimp only
  split <;> exact ⟨rfl, rfl, hgood, rfl⟩
end

/-- Settles O53. A hang of a die at its fourth fails it (log 145), BAR2 has its default size after an FLR (log 84) and a kick of the hub
watchdog changes no state (log 24): the model's choices. -/
theorem hostResetsAndHangs : Obligations.HostResetsAndHangs := by
  unfold Obligations.HostResetsAndHangs
  intro fn v n s
  refine ⟨fun hup hdec hvf => ?_, fun hup hdec hdone => ⟨fun hwarm hdie hnone hlive => ?_, fun hwarm hdie hn hlive hloaded hon => ?_⟩,
    fun hdone hon hlive hloaded => ?_, fun hup hfn => ?_, rfl, fun haon hen hexp => ⟨_, rfl, watchdogOut_spec haon hen hexp⟩⟩
  · have hsame : hostAccess s fn (fun s => writeRstCtrl s fn v.toNat) = s := (hostAccess_open hup hdec _).trans (writeRstCtrl_denied hvf)
    exact ⟨congrArg Host.Outcome.next hsame, congrArg Host.Outcome.next hsame⟩
  · have hlive' : (abandonJob s false).rst.die[n].failed = false := by rwa [abandonJob_rst]
    exact ⟨_, congrArg Host.Outcome.next ((hostAccess_open_primary hup hdec _).trans (writeRstCtrl_warm hdone hwarm hdie hnone)),
      warmStart_spec hlive' _ _⟩
  · refine ⟨_, congrArg Host.Outcome.next ((hostAccess_open_primary hup hdec _).trans
      (writeRstCtrl_die hdone hwarm hdie hn hlive hloaded hon)), ?_, rfl⟩
    rw [dieReset_die]
  · refine ⟨fun hleft => ⟨_, dieHangTimeout_reloads hdone hon hlive hloaded, ?_, ?_, dieReload_cause hleft _ _⟩,
      fun hnone => ⟨_, dieHangTimeout_reloads hdone hon hlive hloaded, dieReload_failed hnone _ _⟩⟩
    · rw [dieReload_die hleft]
    · rw [dieReload_die hleft]
  · refine ⟨flr s fn, congrArg Host.Outcome.next (if_pos hup), ?_, ?_, ?_, ?_, fun p hdesc hserves hstate => ?_⟩
    · rw [flr_eq hfn]
      exact (resetFnRegs_regs _ fn).1
    · rw [flr_eq hfn]
      exact (resetFnRegs_regs _ fn).2.1
    · rw [flr_eq hfn]
      exact (resetFnRegs_regs _ fn).2.2
    · rw [flr_eq hfn]
      rfl
    · obtain ⟨-, htail, hhead⟩ := partsReset_spent hdesc hserves hstate
      rw [partSt, vat_get] at htail hhead
      rw [flr_part hfn]
      exact ⟨htail, hhead⟩

end Sys2Proof.Proofs


namespace Sys2Proof.Proofs

open Sys2Proof Sys2Proof.Machine Sys2Proof.Laws

/-! SUPPORT. The statement on background work (15): the visits of the stack patrol, the sets of the Granary patrol, retraining passes and
the package's telemetry record. -/

/-! ## The stack patrol (R533 to R536) -/

/-- The marks of a stack that its patrol goes by. -/
def stackMark (k : Stack) : Bool × Bool × Bool × BitVec 64 := (k.failed, k.tripped, k.trained, k.chFail)

/-- What the patrol of the stacks goes by: the marks of the stacks and of the dies, PARK and the tempo. -/
def patrolView (s : State) : Vector (Bool × Bool × Bool × BitVec 64) 8 × Vector DieWake 4 × Vector FabDie 4 × Bool × Bool :=
  (s.mem.stack.map stackMark, s.rst.die, s.fab.die, s.pwr.diesDown, s.tmp.counting)

section
variable {s t : State}

theorem vat_map {α β : Type} {m : Nat} (g : α → β) (v : Vector α m) (i : Nat) (d : α) : vat (v.map g) i (g d) = g (vat v i d) := by
  unfold vat
  split <;> simp

theorem patrols_of_view (h : patrolView t = patrolView s) (x : Nat) : patrols t x = patrols s x := by
  have hmark (k : Nat) : stackMark (stackSt t k) = stackMark (stackSt s k) := by
    have hmap : t.mem.stack.map stackMark = s.mem.stack.map stackMark := congrArg (·.1) h
    exact (vat_map stackMark t.mem.stack k {}).symm.trans (hmap ▸ vat_map stackMark s.mem.stack k {})
  have hrst : t.rst.die = s.rst.die := congrArg (·.2.1) h
  have hfab : t.fab.die = s.fab.die := congrArg (·.2.2.1) h
  have hdown : t.pwr.diesDown = s.pwr.diesDown := congrArg (·.2.2.2.1) h
  have hcount : t.tmp.counting = s.tmp.counting := congrArg (·.2.2.2.2) h
  have hfailed (k : Nat) : (stackSt t k).failed = (stackSt s k).failed := congrArg (·.1) (hmark k)
  have htripped (k : Nat) : (stackSt t k).tripped = (stackSt s k).tripped := congrArg (·.2.1) (hmark k)
  have htrained (k : Nat) : (stackSt t k).trained = (stackSt s k).trained := congrArg (·.2.2.1) (hmark k)
  have hchans (k : Nat) : (stackSt t k).chFail = (stackSt s k).chFail := congrArg (·.2.2.2) (hmark k)
  simp only [patrols, chanFailed, stackFailed, dieFailed, stackTripped, hrst, hfab, hdown, hcount, hfailed, htripped, htrained, hchans]

/-- What a check of a line's bursts leaves alone: the view of the patrol, and the Gleaner's registers. -/
def patrolled (s : State) : (Vector (Bool × Bool × Bool × BitVec 64) 8 × Vector DieWake 4 × Vector FabDie 4 × Bool × Bool) × Gleaner :=
  (patrolView s, s.gln)

theorem view_of_patrolled (h : patrolled t = patrolled s) : patrolView t = patrolView s := congrArg Prod.fst h
theorem gln_of_patrolled (h : patrolled t = patrolled s) : t.gln = s.gln := congrArg Prod.snd h

theorem modStack_patrolled {f : Stack → Stack} (h : ∀ k, stackMark (f k) = stackMark k) (s : State) (n : Nat) :
    patrolled (s.modStack n f) = patrolled s := by
  simp only [patrolled, patrolView, State.modStack, modMem_mem, modMem_rst, modMem_fab, modMem_pwr, modMem_tmp, modMem_gln, vmodN_map h]

theorem modMem_patrolled {f : Memory → Memory} (h : ∀ m, (f m).stack = m.stack) (s : State) : patrolled (s.modMem f) = patrolled s := by
  simp only [patrolled, patrolView, modMem_mem, modMem_rst, modMem_fab, modMem_pwr, modMem_tmp, modMem_gln, h]

theorem remapStart_patrolled (s : State) (x bank row : Nat) : patrolled (remapStart s x bank row) = patrolled s := by
  have hfull : patrolled ((s.event .memRemapFull).modStack (x / 64) fun t => { t with remapFull := t.remapFull + 1 }) = patrolled s :=
    modStack_patrolled (f := fun t => { t with remapFull := t.remapFull + 1 }) (fun _ => rfl) _ _
  unfold remapStart
  split
  · rfl
  · split
    · split
      · exact modMem_patrolled (fun _ => rfl) _
      · exact hfull
    · exact hfull

theorem countCe_patrolled (s : State) (x bank row : Nat) : patrolled (countCe s x bank row) = patrolled s := by
  unfold countCe
  dsimp only
  split
  · split
    · exact (remapStart_patrolled ..).trans (modMem_patrolled (fun _ => rfl) _)
    · exact modMem_patrolled (fun _ => rfl) _
  · exact modMem_patrolled (fun _ => rfl) _

theorem eccCount_patrolled (s : State) (line : Nat) (found : List Burst) : patrolled (eccCount s line found) = patrolled s := by
  refine each_proj patrolled _ (fun u b => ?_) _ s
  split
  · rw [remapStart_patrolled, recordErr, modStack_patrolled fun k => by split <;> rfl]
    exact modStack_patrolled (f := fun t => { t with ue := t.ue + 1 }) (fun _ => rfl) _ _
  · split
    · rw [countCe_patrolled]
      exact modStack_patrolled (f := fun t => { t with ce := t.ce + 1 }) (fun _ => rfl) _ _
    · rfl

/-- The poison syndrome in the bursts of a line at one of its places. -/
def poisonBursts (found : List Burst) (m : Memory) (k : Nat) : Memory :=
  (List.range 8).foldl (fun m b => if found[b]? == some Burst.uncorrectable then m.setPoison (k + 32 * b) true else m) m

theorem poisonBursts_frame (found : List Burst) (m : Memory) (k : Nat) :
    (poisonBursts found m k).stack = m.stack ∧ (poisonBursts found m k).cells = m.cells :=
  List.foldlRecOn (motive := fun (x : Memory) => x.stack = m.stack ∧ x.cells = m.cells) _ _ ⟨rfl, rfl⟩ fun x hx b _ => by
    split <;> exact hx

/-- The poison that the patrol writes changes no bytes. -/
theorem patrolPoison_spec (s : State) (line : Nat) (found : List Burst) :
    patrolled (patrolPoison s line found) = patrolled s ∧ (patrolPoison s line found).mem.cells = s.mem.cells := by
  have hall (ks : List Nat) (m : Memory) : (ks.foldl (poisonBursts found) m).stack = m.stack ∧
      (ks.foldl (poisonBursts found) m).cells = m.cells :=
    List.foldlRecOn (motive := fun (x : Memory) => x.stack = m.stack ∧ x.cells = m.cells) _ _ ⟨rfl, rfl⟩ fun x hx k _ =>
      ⟨(poisonBursts_frame found x k).1.trans hx.1, (poisonBursts_frame found x k).2.trans hx.2⟩
  exact ⟨modMem_patrolled (fun m => (hall _ m).1) s, (hall _ _).2⟩

/-- Pseudo-channel c of stack t still waits for its visit. -/
def unvisited (s : State) (t c : Nat) : Prop := patrols s (64 * t + c) = true ∧ s.gln.visited.contains (64 * t + c) = false

theorem patrolAdvance_waits {k : Nat} (h : ∃ c < 64, unvisited s k c) : patrolAdvance s k = s := by
  obtain ⟨c, hc, hpatrols, hvisited⟩ := h
  refine if_neg fun hall => ?_
  have hthis : (!patrols s (64 * k + c) || s.gln.visited.contains (64 * k + c)) = true :=
    List.all_eq_true.mp hall c (List.mem_range.mpr hc)
  rw [hpatrols, hvisited] at hthis
  cases hthis

theorem patrolAdvance_moves {k : Nat} (h : ∀ c < 64, patrols s (64 * k + c) = false ∨ s.gln.visited.contains (64 * k + c) = true) :
    (patrolAdvance s k).gln = { s.gln with
      visited := s.gln.visited.filter fun x => x / 64 != k, cursor := vmodN s.gln.cursor k fun _ => (vat s.gln.cursor k 0 + 1) % patrolLines,
      stackPass := if vat s.gln.cursor k 0 + 1 = patrolLines then s.gln.stackPass + 1 else s.gln.stackPass } := by
  have hall : ((List.range 64).all fun c => !patrols s (64 * k + c) || s.gln.visited.contains (64 * k + c)) = true :=
    List.all_eq_true.mpr fun c hc => by
      obtain hno | hyes := h c (List.mem_range.mp hc)
      · rw [hno]; rfl
      · rw [hyes, Bool.or_true]
  exact congrArg State.gln (if_pos hall)

theorem patrolAdvance_frame (s : State) (k : Nat) : (patrolAdvance s k).mem = s.mem ∧ (patrolAdvance s k).gln.patrolFix = s.gln.patrolFix := by
  unfold patrolAdvance
  split <;> exact ⟨rfl, rfl⟩

/-- The patrol of a stack comes to its line with the first visit of it (R533). -/
def lineBegun (s : State) (x : Nat) : State :=
  if s.gln.visited.any fun y => y / 64 == x / 64 then s
  else s.modGln fun g => { g with lineAt := vmodN g.lineAt (x / 64) fun _ => some s.tmp.elapsed }

/-- A line is read, and its uncorrectable bursts take the poison syndrome. -/
def lineChecked (s : State) (x : Nat) (found : List Burst) : State :=
  let line := (chanSize * x) / 256 + vat s.gln.cursor (x / 64) 0
  patrolPoison (eccCount s line found) line found

/-- A pseudo-channel's visit, before the cursor of its stack may move on. -/
def visitedAt (s : State) (x : Nat) (found : List Burst) : State :=
  (lineChecked (lineBegun s x) x found).modGln fun g =>
    { g with visited := g.visited ++ [x], patrolFix := if found.contains .corrected then g.patrolFix + 1 else g.patrolFix }

theorem lineBegun_spec (s : State) (x : Nat) : patrolView (lineBegun s x) = patrolView s ∧ (lineBegun s x).mem = s.mem ∧
    (lineBegun s x).gln = { s.gln with lineAt := (lineBegun s x).gln.lineAt } := by
  unfold lineBegun
  split <;> exact ⟨rfl, rfl, rfl⟩

theorem eccCount_cells (s : State) (line : Nat) (found : List Burst) : (eccCount s line found).mem.cells = s.mem.cells := by
  rw [eccCount]
  exact (eccOn_counted s line (fun _ => true) found).cells

theorem lineChecked_spec (s : State) (x : Nat) (found : List Burst) :
    patrolled (lineChecked s x found) = patrolled s ∧ (lineChecked s x found).mem.cells = s.mem.cells := by
  obtain ⟨hview, hcells⟩ := patrolPoison_spec (eccCount s ((chanSize * x) / 256 + vat s.gln.cursor (x / 64) 0) found)
    ((chanSize * x) / 256 + vat s.gln.cursor (x / 64) 0) found
  exact ⟨hview.trans (eccCount_patrolled ..), hcells.trans (eccCount_cells ..)⟩

/-- A visit counts a corrected find and changes nothing that the patrol goes by. -/
theorem visitedAt_spec (s : State) (x : Nat) (found : List Burst) : patrolView (visitedAt s x found) = patrolView s ∧
    (visitedAt s x found).mem.cells = s.mem.cells ∧ (visitedAt s x found).gln.visited = s.gln.visited ++ [x] ∧
    (visitedAt s x found).gln.cursor = s.gln.cursor ∧
    (visitedAt s x found).gln.patrolFix = (if found.contains .corrected then s.gln.patrolFix + 1 else s.gln.patrolFix) := by
  obtain ⟨hbview, hbmem, hbgln⟩ := lineBegun_spec s x
  obtain ⟨hcheck, hcells⟩ := lineChecked_spec (lineBegun s x) x found
  have hgln := (gln_of_patrolled hcheck).trans hbgln
  refine ⟨?_, ?_, ?_, ?_, ?_⟩
  · rw [← hbview, ← view_of_patrolled hcheck]
    simp only [visitedAt, patrolView, modGln_mem, modGln_rst, modGln_fab, modGln_pwr, modGln_tmp]
  · rw [visitedAt, modGln_mem, hcells, hbmem]
  · rw [visitedAt, modGln_gln, hgln]
  · rw [visitedAt, modGln_gln, hgln]
  · rw [visitedAt, modGln_gln, hgln]

theorem patrolVisit_visits {x : Nat} (hpatrols : patrols s x = true) (hnew : s.gln.visited.contains x = false)
    (hdue : lineDue s (x / 64) = true) (found : List Burst) : patrolVisit s x found = patrolAdvance (visitedAt s x found) (x / 64) := by
  have hwaits : patrolAdvance s (x / 64) = s := by
    refine patrolAdvance_waits ⟨x % 64, Nat.mod_lt _ (by decide), ?_⟩
    rw [unvisited, Nat.div_add_mod]
    exact ⟨hpatrols, hnew⟩
  simp only [patrolVisit, hpatrols, if_true, hwaits, hnew, hdue, visitedAt, lineChecked, lineBegun, Bool.not_false, Bool.and_self]
end

/-! ## The Granary patrol (R537 to R539) -/

section
variable {s : State}

theorem patrolLine_clean (s : State) (l : GLine) : patrolLine [] s l = s := rfl

/-- A line's entry in the finds of a set whose one find is an uncorrectable line. -/
theorem patrolLine_double (s : State) (l : GLine) : patrolLine [(l.line, .double)] s l = lineError (countGr s .double) l := by
  simp [patrolLine]

theorem queueWrite_lines (s : State) (w : WbWait) (charges : List (Nat × Nat)) : (s.queueWrite w charges).grn.lines = s.grn.lines := by
  have hcharge : slices (s.fresh.each charges fun s' c => s'.charge c.1 (w.x / 8) c.2 false (.write s.nextId)) = slices s.fresh :=
    each_slices _ (fun _ _ => charge_slices ..) _
  rw [State.queueWrite, modMem_grn]
  exact lines_of_slices hcharge

theorem lineError_subset (s : State) (l : GLine) : ∀ x ∈ (lineError s l).grn.lines, x ∈ s.grn.lines := by
  unfold lineError
  split
  · exact fun x hx => List.mem_of_mem_filter hx
  · split
    · exact fun _ hx => hx
    · rw [queueWrite_lines]
      exact fun _ hx => hx

/-- A patrol of lines adds none to the slices. -/
theorem patrolLine_subset (finds : List (Nat × GrEcc)) (s : State) (l : GLine) : ∀ x ∈ (patrolLine finds s l).grn.lines, x ∈ s.grn.lines := by
  unfold patrolLine
  dsimp only
  split
  · exact lineError_subset (countGr s _) l
  · exact fun _ hx => hx

theorem patrolLines_subset (finds : List (Nat × GrEcc)) (ls : List GLine) (s : State) :
    ∀ x ∈ (s.each ls (patrolLine finds)).grn.lines, x ∈ s.grn.lines :=
  List.foldlRecOn (motive := fun t => ∀ x ∈ t.grn.lines, x ∈ s.grn.lines) ls _ (fun _ hx => hx)
    fun t ht l _ x hx => ht x (patrolLine_subset finds t l x hx)

/-- A clean line that its slice cannot correct is gone from the slices after the patrol of its set (R538). -/
theorem patrolLines_drops {ls : List GLine} {l : GLine} (hmem : l ∈ ls) (hclean : l.dirty = 0) (s : State) :
    findLine (s.each ls (patrolLine [(l.line, .double)])) l.line l.part = none := by
  obtain ⟨before, after, rfl⟩ := List.append_of_mem hmem
  rw [findLine, List.find?_eq_none]
  intro x hx
  have heach : s.each (before ++ l :: after) (patrolLine [(l.line, .double)]) =
      (patrolLine [(l.line, .double)] (s.each before (patrolLine [(l.line, .double)])) l).each after (patrolLine [(l.line, .double)]) := by
    simp [State.each]
  rw [heach] at hx
  have hdropped := patrolLines_subset _ _ _ x hx
  rw [patrolLine_double, lineError, if_pos hclean] at hdropped
  simpa [imp_iff_not_or] using (List.mem_filter.mp hdropped).2

theorem patrolLines_tmp (finds : List (Nat × GrEcc)) (ls : List GLine) (s : State) : (s.each ls (patrolLine finds)).tmp = s.tmp := by
  refine tmp_of_fixed (each_proj fixed _ (fun u l => ?_) ls s)
  unfold patrolLine
  dsimp only
  split
  · rw [lineError_fixed, countGr_fixed]
  · exact countGr_fixed ..

/-- The lines of the set that a slice's patrol has come to. -/
def patrolSetLines (s : State) (n : Nat) : List GLine :=
  s.grn.lines.filter fun l => (homeSlice (lineAddr l.line)).val == n && setIndex (lineAddr l.line) == (sliceSt s n).patrolSet

/-- The patrol of a slice, once it has come to its set, checks the set's lines and moves on (R537). -/
theorem patrolSetNow_due {n : Nat} (hin : sliceOut s n = false) (hcount : s.tmp.counting = true) (hdue : setDue s n = true)
    (finds : List (Nat × GrEcc)) : let u := s.each (patrolSetLines s n) (patrolLine finds)
      (patrolSetNow s n finds).mem = u.mem ∧ (patrolSetNow s n finds).grn = { u.grn with slice := vmodN u.grn.slice n fun x =>
        { x with patrolSet := ((sliceSt s n).patrolSet + 1) % 65536, patrolAt := some s.tmp.elapsed } } := by
  unfold patrolSetNow
  rw [hin, hcount, hdue, ← patrolLines_tmp finds (patrolSetLines s n) s]
  simp only [Bool.not_false, Bool.and_self, if_true, patrolSetLines]
  split <;> exact ⟨rfl, rfl⟩
end

/-! ## The package's telemetry record (R546 to R550) -/

section
variable {s : State}

theorem each_unchanged {α : Type} {f : State → α → State} {xs : List α} (h : ∀ x ∈ xs, f s x = s) : s.each xs f = s := by
  induction xs with
  | nil => rfl
  | cons x xs ih =>
    rw [State.each, List.foldl_cons, h x List.mem_cons_self]
    exact ih fun y hy => h y (List.mem_cons_of_mem x hy)

/-- While SR-IOV is off the PF alone is enabled, so each function's turn but its own changes nothing. -/
theorem each_pf {f : State → Nat → State} (hpf : (f s 0).hif.vfEnable = false) :
    (s.each (List.range 9) fun u fn => if fnEnabled u fn then f u fn else u) = f s 0 := by
  have hrest : (f s 0).each ((List.range 8).map Nat.succ) (fun u fn => if fnEnabled u fn then f u fn else u) = f s 0 := by
    refine each_unchanged fun fn hfn => if_neg ?_
    obtain ⟨k, -, rfl⟩ := List.mem_map.mp hfn
    simp [fnEnabled, hpf]
  rw [List.range_succ_eq_map]
  exact hrest

/-- A ring of 16 records once it has taken one, with no vector to signal (R548). -/
def ringTaken (y : TelFn) : TelFn :=
  { y with tail := (y.tail + 1) % 16, phase := if y.tail + 1 = 16 then !y.phase else y.phase, since := y.since + 1 }

/-- A record that its ring has room for leaves with the ring's phase (R548). -/
theorem putRecord_free {r : TelRecord} (hlink : s.hif.linkUp = true) (hon : s.tel.fn[0].enable = true) (hirq : s.tel.fn[0].irqEvery = 0)
    (hsize : s.tel.fn[0].size = 4) (htail : s.tel.fn[0].tail < 15) (hhead : s.tel.fn[0].head = 0) :
    putRecord s 0 r = (s.emit (.telemetry 0 (s.tel.fn[0].base.toNat + 64 * s.tel.fn[0].tail) { r with phase := s.tel.fn[0].phase })).modTel
      fun x => { x with fn := vmodN x.fn 0 ringTaken } := by
  have htel : telFn s 0 = s.tel.fn[0] := vat_get _ (0 : Fin 9) _
  have hring : ringSize s.tel.fn[0].size = 16 := by rw [hsize]; rfl
  have hroom : ¬(s.tel.fn[0].tail + 16 - 0 % 16) % 16 + 1 = 16 := by omega
  simp only [putRecord, htel, hon, hring, hhead, if_neg hroom, hirq, hlink, Bool.not_true, Bool.false_eq_true, if_false, if_true]
  rfl

/-- The frame-average power of the last frame, and the largest (Table 13-6). -/
def powerShown (s : State) (watts : Nat) : State := s.modPwr fun p =>
  { p with measuredLast := BitVec.ofNat 16 watts, measuredMax := BitVec.ofNat 16 (max p.measuredMax.toNat (watts % 65536)) }

theorem ringRecords_powerShown (watts : Nat) : ringRecords (powerShown s watts) 0 watts = ringRecords s 0 watts := rfl

theorem writeTelemetry_due {watts : Nat} (hdue : s.tel.due = true) (hcount : s.tmp.counting = true)
    (hrecords : ringRecords s 0 watts = [pkgRecord s watts])
    (hput : (putRecord (powerShown s watts) 0 (pkgRecord s watts)).hif.vfEnable = false) :
    writeTelemetry s watts = (putRecord (powerShown s watts) 0 (pkgRecord s watts)).modTel fun t => { t with due := false } := by
  have hring : (powerShown s watts).each (ringRecords (powerShown s watts) 0 watts) (fun u r => putRecord u 0 r) =
      putRecord (powerShown s watts) 0 (pkgRecord s watts) := by
    rw [ringRecords_powerShown, hrecords]
    rfl
  rw [writeTelemetry, hdue, hcount, Bool.and_self, if_pos rfl]
  refine congrArg (fun u : State => u.modTel fun t => { t with due := false }) ?_
  rw [← hring] at hput ⊢
  exact each_pf (f := fun u fn => u.each (ringRecords u fn watts) fun u r => putRecord u fn r) hput
end

/-- Settles O44, by what a visit, a set's patrol, a pass and a record change. -/
theorem backgroundWork : Obligations.BackgroundWork := by
  unfold Obligations.BackgroundWork
  intro s
  refine ⟨fun x bursts hpatrols hnew hdue => ?_, fun n finds hin hcount hdue => ?_, fun hretrains hbeat => ?_, fun hretrains hidle => ?_,
    fun watts hdue hcount hvf hlink hon hirq hsize htail hhead hrecords => ?_⟩
  · obtain ⟨hview, hcells, hvisited, hcursor, hfix⟩ := visitedAt_spec s x bursts
    obtain ⟨hmem, hfixed⟩ := patrolAdvance_frame (visitedAt s x bursts) (x.val / 64)
    have hx : 64 * (x.val / 64) + x.val % 64 = x.val := Nat.div_add_mod ..
    have hcontains (y : Nat) : (visitedAt s x bursts).gln.visited.contains y = (s.gln.visited.contains y || y == x.val) := by
      rw [hvisited]
      simp [List.contains_eq_mem, Bool.decide_or, beq_eq_decide]
    refine ⟨_, congrArg Host.Outcome.next (patrolVisit_visits hpatrols hnew hdue bursts), by rw [hmem, hcells], by rw [hfixed, hfix],
      fun ⟨c, hc, hother, hcpatrols, hcnew⟩ => ?_, fun hall => ?_⟩
    · have hwaits : patrolAdvance (visitedAt s x bursts) (x.val / 64) = visitedAt s x bursts := by
        refine patrolAdvance_waits ⟨c, hc, (patrols_of_view hview _).trans hcpatrols, ?_⟩
        rw [hcontains, hcnew, Bool.false_or, beq_eq_false_iff_ne]
        exact hother
      rw [hwaits]
      exact ⟨hvisited, hcursor⟩
    · have hmoves := patrolAdvance_moves (s := visitedAt s x bursts) (k := x.val / 64) fun c hc => by
        rw [patrols_of_view hview, hcontains]
        obtain hself | hno | hyes := hall c hc
        · exact .inr (by rw [hself, beq_self_eq_true, Bool.or_true])
        · exact .inl hno
        · exact .inr (by rw [hyes, Bool.true_or])
      rw [hmoves, hcursor, vat_vmodN, if_pos ⟨rfl, by omega⟩]
      rfl
  · obtain ⟨hmem, hgrn⟩ := patrolSetNow_due hin hcount hdue finds
    refine ⟨_, rfl, ?_, ?_, fun hnone => ?_, fun l hl hhome hset hclean hfinds => ?_⟩
    · rw [sliceSt, hgrn, vat_vmodN_same]
    · rw [sliceSt, hgrn, vat_vmodN_same]
    · subst hnone
      have hsame : s.each (patrolSetLines s n) (patrolLine []) = s := each_unchanged fun l _ => patrolLine_clean s l
      rw [hmem, hgrn, hsame]
      exact ⟨rfl, rfl⟩
    · subst hfinds
      have hin : l ∈ patrolSetLines s n := List.mem_filter.mpr ⟨hl, by simp [lineAddr, hhome, hset]⟩
      rw [findLine, hgrn]
      exact patrolLines_drops hin hclean s
  · exact congrArg Host.Outcome.next (if_pos (by rw [hretrains, Bool.true_and]; exact beq_iff_eq.mpr hbeat))
  · exact congrArg Host.Outcome.next (if_pos (by rw [hretrains, hidle]; rfl))
  · have hput := putRecord_free (s := powerShown s watts) (r := pkgRecord s watts) hlink hon hirq hsize htail hhead
    refine ⟨_, congrArg Host.Outcome.next (writeTelemetry_due hdue hcount hrecords (by rw [hput]; exact hvf)), rfl, ?_, ?_, ?_⟩
    · rw [hput]
      rfl
    · rw [hput]
      have htaken : (vmodN s.tel.fn 0 ringTaken)[0] = ringTaken s.tel.fn[0] := by simp [vmodN]
      refine (congrArg TelFn.tail htaken).trans (Nat.mod_eq_of_lt (?_ : s.tel.fn[0].tail + 1 < 16))
      omega
    · rw [hput]
      rfl
end Sys2Proof.Proofs


namespace Sys2Proof.Proofs

open Sys2Proof Sys2Proof.Machine Sys2Proof.Laws

/-! SUPPORT. The statements on Larkspur's slots, gates and answers (17): what an act of the package leaves of the tray, what the BOARD orders and
the powering of slots leave of the other slots, and with it the slots, the commands for a slot, Redfish and the firmware banks. -/

/-! ## What an act of the package leaves of the tray -/

/-- The tray, the AON rail, the fuses and the bank of the hub's firmware. -/
def seat (s : State) : Tray × Bool × Fuses × Bool := (s.tray, s.rst.aon, s.fuses, s.flash.hubBank)

/-- A change of the package: the tray and its seat stay, and outputs only join those before. -/
structure PkgActs (s t : State) : Prop where
  seat : seat t = seat s
  out : s.out <+: t.out

namespace PkgActs
variable {s t u : State}

theorem refl (s : State) : PkgActs s s := ⟨rfl, List.prefix_rfl⟩
theorem trans (h : PkgActs s t) (k : PkgActs t u) : PkgActs s u := ⟨k.seat.trans h.seat, h.out.trans k.out⟩
theorem tray (h : PkgActs s t) : t.tray = s.tray := congrArg (·.1) h.seat
theorem aon (h : PkgActs s t) : t.rst.aon = s.rst.aon := congrArg (·.2.1) h.seat
theorem fuses (h : PkgActs s t) : t.fuses = s.fuses := congrArg (·.2.2.1) h.seat
theorem hubBank (h : PkgActs s t) : t.flash.hubBank = s.flash.hubBank := congrArg (·.2.2.2) h.seat

/-- A change that neither moves the seat nor puts out anything. -/
theorem of_quiet (hseat : Proofs.seat t = Proofs.seat s) (hout : t.out = s.out) : PkgActs s t := ⟨hseat, hout ▸ List.prefix_rfl⟩

theorem emit (s : State) (o : Output) : PkgActs s (s.emit o) := ⟨rfl, List.prefix_append ..⟩

theorem each {α : Type} {f : State → α → State} (h : ∀ s x, PkgActs s (f s x)) (xs : List α) (s : State) : PkgActs s (s.each xs f) :=
  List.foldlRecOn (motive := PkgActs s) xs f (.refl s) fun _ hu x _ => hu.trans (h _ x)

theorem ite {c : Prop} [Decidable c] {x y : State} (h : PkgActs s x) (k : PkgActs s y) : PkgActs s (if c then x else y) := by
  split
  · exact h
  · exact k
end PkgActs

theorem seat_of_fixed {s t : State} (h : fixed t = fixed s) : seat t = seat s := by
  have htray : t.tray = s.tray := congrArg Fixed.tray h
  have hfuses : t.fuses = s.fuses := congrArg Fixed.fuses h
  have hflash : t.flash = s.flash := congrArg Fixed.flash h
  rw [seat, seat, htray, rst_of_fixed h, hfuses, hflash]

/-! ### Steps that are dropped (R489) -/

section
variable (s : State)

theorem tokenStatus_out (tile slot dst keep lanes first rest) : (s.tokenStatus tile slot dst keep lanes first rest).out = s.out := by
  unfold State.tokenStatus
  split <;> rfl

theorem serveToken_out (t) : (s.serveToken t).out = s.out := by
  unfold State.serveToken State.grantToken
  split
  · rfl
  · split
    · rfl
    · exact tokenStatus_out ..

@[simp] theorem each_out {α : Type} {f : State → α → State} (h : ∀ s x, (f s x).out = s.out) (xs : List α) : (s.each xs f).out = s.out :=
  each_proj State.out f h xs s

@[simp] theorem forfeitTokens_out (tile slot) : (s.forfeitTokens tile slot).out = s.out := by simp [State.forfeitTokens, serveToken_out]

@[simp] theorem clearStep_out (id) : (s.clearStep id).out = s.out := by
  simp [State.clearStep, State.abandonUp, State.dropWalks, State.dropJobs, State.dropGroup]

theorem sendUp_prefix : s.out <+: s.sendUp.out :=
  List.foldlRecOn (motive := fun u : State => s.out <+: u.out) _ State.issueUp List.prefix_rfl
    fun _ hu _ _ => hu.trans (List.prefix_append ..)

theorem tryPending_prefix (n) : s.out <+: (s.tryPending n).out := by
  unfold State.tryPending
  dsimp only
  split
  · exact List.prefix_rfl
  · split
    · rw [State.startFill, State.upstream]
      refine List.IsPrefix.trans ?_ (sendUp_prefix _)
      simp only [State.modTrlSlot, modHif_out, modTrl_out, List.prefix_rfl]
    · exact List.prefix_rfl

theorem tryPending_acts (n) : PkgActs s (s.tryPending n) := ⟨seat_of_fixed (tryPending_fixed s n), tryPending_prefix s n⟩
theorem clearStep_acts (id) : PkgActs s (s.clearStep id) := .of_quiet (seat_of_fixed (clearStep_fixed s id)) (clearStep_out s id)

theorem unpin_acts (id) : PkgActs s (s.unpin id) := by
  have hstart (f : Trellis → Trellis) : PkgActs s (s.modTrl f) := .of_quiet rfl rfl
  exact (hstart _).trans (PkgActs.each tryPending_acts _ _)

theorem dropSteps_acts : PkgActs s (dropSteps s) := by
  have hsteps := PkgActs.each (f := fun s i => (s.clearStep i).unpin i) (fun u i => (clearStep_acts u i).trans (unpin_acts _ i))
    (s.stp.steps.map (·.id)) s
  exact hsteps.trans (.of_quiet rfl rfl)

/-! ### The stages of the power state (R489 to R493) -/

theorem refreshGood_acts : PkgActs s s.refreshGood := .of_quiet rfl rfl
theorem powerEvent_acts (b) : PkgActs s (s.powerEvent b) := .of_quiet rfl rfl

theorem enterOff_acts : PkgActs s (enterOff s) := by
  have hwear : PkgActs s (writeWear s) := .of_quiet rfl rfl
  refine ((hwear.trans (dropSteps_acts _)).trans ?_).trans (.emit _ _)
  exact .of_quiet rfl rfl

theorem stageOneFail_acts : PkgActs s (stageOneFail s) := by
  unfold stageOneFail
  dsimp only
  split <;> split <;> exact .of_quiet rfl rfl

theorem hubStep_acts (k) : PkgActs s (hubStep s k) := by
  have hstep : PkgActs s (s.modRst fun r => { r with step := k }) := .of_quiet rfl rfl
  unfold hubStep
  dsimp only
  split
  · exact hstep.trans (stageOneFail_acts _)
  · exact hstep.trans (.of_quiet rfl rfl)

theorem beginWake_acts (kind k) : PkgActs s (beginWake s kind k) :=
  .trans (t := s.modRst fun r => { r with
    wake := some kind, done := false, stage1Tries := 0, retryWait := false, die := Vector.replicate 4 {} }) (.of_quiet rfl rfl) (hubStep_acts _ k)

theorem leaveStandby_acts : PkgActs s (leaveStandby s) :=
  (beginWake_acts s .standby 2).trans (.of_quiet rfl rfl)

theorem enterStandby_acts : PkgActs s (enterStandby s) := .of_quiet rfl rfl

theorem seqOp_acts (n o) : PkgActs s (seqOp s n o) := by
  unfold seqOp
  iterate 6 (split; · exact .of_quiet rfl rfl)
  exact .refl s

theorem leavePark_acts : PkgActs s (leavePark s) := by
  have hup (u : State) (n : Nat) : PkgActs u (seqUpAll u n) :=
    (PkgActs.each (fun u o => seqOp_acts u n o) (upList u) u).trans (.of_quiet rfl rfl)
  have hdies : PkgActs s (s.modRst fun r => { r with die := r.die.map fun d => { d with powered := !d.failed } }) := .of_quiet rfl rfl
  exact (hdies.trans (PkgActs.each hup _ _)).trans (.of_quiet rfl rfl)

theorem settlePower_acts : PkgActs s (settlePower s) := by
  have hset (v : ParkStage) : PkgActs s (s.modPwr fun p => { p with stage := v }) := .of_quiet rfl rfl
  unfold settlePower
  dsimp only
  split
  · exact .refl s
  · refine .trans ?_ (refreshGood_acts _)
    split
    · split
      · exact .refl s
      · exact enterOff_acts s
    · split
      · exact .refl s
      · exact enterStandby_acts s
    · split
      · split
        · exact hset _
        · exact .refl s
      · exact hset _
      · exact leaveStandby_acts s
      · exact .refl s
    · split
      · exact hset _
      · exact hset _
      · exact leavePark_acts s
      · exact leaveStandby_acts s
      · exact .refl s

theorem capChange_acts {f : State → State} (h : PkgActs s (f s)) : PkgActs s (s.capChange f) := by
  unfold State.capChange
  dsimp only
  split
  · exact h
  · exact h.trans (powerEvent_acts _ _)

/-- A change of the package's orders (R475 to R488). -/
theorem order_acts (f) : PkgActs s (s.order f) := by
  have horders : PkgActs s (s.capChange fun s => s.modPwr fun p => { p with orders := f p.orders }) :=
    capChange_acts s (.of_quiet rfl rfl)
  unfold State.order
  dsimp only
  split
  · exact horders.trans (settlePower_acts _)
  · exact (horders.trans (powerEvent_acts _ _)).trans (settlePower_acts _)

/-! ### The tray ID, and the reset pins (R28, R436, R507, R650) -/

theorem sendWord_acts (bs p) : PkgActs s (s.sendWord bs p) := by
  refine PkgActs.each (fun u l => ?_) _ s
  split
  · exact .emit _ _
  · exact .refl u

theorem reshapeEvent_acts (l js ls) : PkgActs s (s.reshapeEvent l js ls) := by
  unfold State.reshapeEvent
  split
  · unfold State.floodReshape State.sendUpdate
    refine .trans ?_ (sendWord_acts _ _ _)
    exact .of_quiet rfl rfl
  · exact .refl s

theorem ringDown_acts : PkgActs s s.ringDown := by
  refine .of_quiet ?_ ?_ <;>
    simp only [seat, State.ringDown, State.refreshGood, State.realignLink, State.leaveDomain, modRst_tray, modTmp_tray, modGrade_tray,
      modRhl_tray, modRst_rst, modTmp_rst, modGrade_rst, modRhl_rst, modRst_fuses, modTmp_fuses, modGrade_fuses, modRhl_fuses, modRst_flash,
      modTmp_flash, modGrade_flash, modRhl_flash, modRst_out, modTmp_out, modGrade_out, modRhl_out]

theorem restartTraining_acts : PkgActs s s.restartTraining := by
  unfold State.restartTraining
  split
  · exact (reshapeEvent_acts s _ _ _).trans (.of_quiet rfl rfl)
  · exact ringDown_acts s

theorem writeRank_acts (id slot) : PkgActs s (s.writeRank id slot) := by
  unfold State.writeRank
  split
  · exact .refl s
  · split
    · exact (restartTraining_acts s).trans (.of_quiet rfl rfl)
    · refine .trans ?_ (ringDown_acts _)
      exact .of_quiet rfl rfl

theorem releaseReset_acts : PkgActs s (releaseReset s) := by
  unfold releaseReset
  dsimp only
  split
  · exact .refl s
  · split
    all_goals
      refine .trans ?_ (beginWake_acts _ _ _)
      exact .of_quiet rfl rfl

theorem releaseN_acts : PkgActs s (releaseN s) := by
  unfold releaseN
  split
  · exact releaseReset_acts s
  · split
    · exact .of_quiet rfl rfl
    · exact .refl s

theorem pkgReset_acts (perst lowNs) : PkgActs s (pkgReset s perst lowNs) := by
  have hnow (u : State) : PkgActs u (pkgResetNow u perst) := .of_quiet rfl rfl
  have hdrawn : PkgActs s s.drawn := .of_quiet rfl rfl
  exact .ite (.refl s) (.ite (hnow s) (.ite (hdrawn.trans (hnow _)) hdrawn))
end
end Sys2Proof.Proofs


namespace Sys2Proof.Proofs

open Sys2Proof Sys2Proof.Machine Sys2Proof.Laws

/-! ## What the BOARD orders and the powering of slots leave of the tray -/

/-- Orders without those of BOARD (R588 to R590). -/
def orderPlain (o : Orders) : Orders := { o with board := .run, capBoard := 0 }

/-- A slot's record without its rails, its bus and the orders of BOARD. -/
def slotPlain (x : Slot) : Slot := { x with orders := orderPlain x.orders, shed := false, smbus := false, powered := false, faultN := true }

/-- The tray with such records. -/
def trayPlain (y : Tray) : Tray := { y with slot := y.slot.map slotPlain }

/-- The orders of a slot, without those of BOARD. -/
def standing (s : State) (k : Nat) : Orders := orderPlain (slotOrders s k)

/-- A change of the tray's power: nothing else of the tray changes, and outputs only join those before. -/
structure TrayActs (s t : State) : Prop where
  plain : trayPlain t.tray = trayPlain s.tray
  fuses : t.fuses = s.fuses
  hubBank : t.flash.hubBank = s.flash.hubBank
  out : s.out <+: t.out

theorem slotSt_modSlot (s : State) (k j : Nat) (f : Slot → Slot) :
    slotSt (s.modSlot k f) j = if k = j ∧ k < 8 then f (slotSt s j) else slotSt s j := vat_vmodN ..

namespace TrayActs
variable {s t u : State}

theorem refl (s : State) : TrayActs s s := ⟨rfl, rfl, rfl, List.prefix_rfl⟩
theorem trans (h : TrayActs s t) (k : TrayActs t u) : TrayActs s u :=
  ⟨k.plain.trans h.plain, k.fuses.trans h.fuses, k.hubBank.trans h.hubBank, h.out.trans k.out⟩
theorem of_pkg (h : PkgActs s t) : TrayActs s t := ⟨by rw [h.tray], h.fuses, h.hubBank, h.out⟩
theorem emit (s : State) (o : Output) : TrayActs s (s.emit o) := .of_pkg (.emit s o)

theorem modSlot {f : Slot → Slot} (h : ∀ x, slotPlain (f x) = slotPlain x) (s : State) (k : Nat) : TrayActs s (s.modSlot k f) := by
  refine ⟨?_, rfl, rfl, List.prefix_rfl⟩
  show trayPlain { s.tray with slot := vmodN s.tray.slot k f } = _
  rw [trayPlain, vmodN_map h, trayPlain]

/-- What the plain tray shows, the tray has. -/
theorem get {α : Type} (h : TrayActs s t) (g : Tray → α) (hg : ∀ y, g (trayPlain y) = g y) : g t.tray = g s.tray := by
  rw [← hg, h.plain, hg]

theorem started (h : TrayActs s t) : t.tray.started = s.tray.started := h.get (·.started) fun _ => rfl
theorem strapBad (h : TrayActs s t) : t.tray.strapBad = s.tray.strapBad := h.get (·.strapBad) fun _ => rfl
theorem liquid (h : TrayActs s t) : t.tray.liquid = s.tray.liquid := h.get (·.liquid) fun _ => rfl
theorem pkgSlot (h : TrayActs s t) : t.tray.pkgSlot = s.tray.pkgSlot := h.get (·.pkgSlot) fun _ => rfl

theorem slot (h : TrayActs s t) (k : Nat) : slotPlain (slotSt t k) = slotPlain (slotSt s k) := by
  have hslots : t.tray.slot.map slotPlain = s.tray.slot.map slotPlain := congrArg (fun y : Tray => y.slot) h.plain
  exact (vat_map slotPlain t.tray.slot k {}).symm.trans (hslots ▸ vat_map slotPlain s.tray.slot k {})

/-- What a plain record of a slot shows, the record has. -/
theorem slotGet {α : Type} (h : TrayActs s t) (k : Nat) (g : Slot → α) (hg : ∀ x, g (slotPlain x) = g x) : g (slotSt t k) = g (slotSt s k) := by
  rw [← hg, h.slot, hg]

theorem isPkg (h : TrayActs s t) (k : Nat) : isPkg t k = isPkg s k := by rw [Machine.isPkg, h.pkgSlot, Machine.isPkg]

theorem slotFits (h : TrayActs s t) (k : Nat) : slotFits t k = slotFits s k := by
  have hpresent : (slotSt t k).present = (slotSt s k).present := h.slotGet k (·.present) fun _ => rfl
  have hbin : (slotSt t k).bin = (slotSt s k).bin := h.slotGet k (·.bin) fun _ => rfl
  rw [Machine.slotFits, Machine.slotFits, slotBin, slotBin, classBin, classBin, hpresent, hbin, h.isPkg, h.fuses, h.liquid]
end TrayActs

theorem isPkg_unique {s : State} {i j : Nat} (hi : isPkg s i = true) (hj : isPkg s j = true) : i = j :=
  Option.some.inj ((beq_iff_eq.mp hi).symm.trans (beq_iff_eq.mp hj))

/-- A change of the BOARD orders: no rails go or come, and the other orders stay. -/
structure Settles (s t : State) : Prop where
  acts : TrayActs s t
  on : ∀ j, slotOn t j = slotOn s j
  orders : ∀ j, standing t j = standing s j

namespace Settles
variable {s t u : State}

theorem refl (s : State) : Settles s s := ⟨.refl s, fun _ => rfl, fun _ => rfl⟩
theorem trans (h : Settles s t) (k : Settles t u) : Settles s u :=
  ⟨h.acts.trans k.acts, fun j => (k.on j).trans (h.on j), fun j => (k.orders j).trans (h.orders j)⟩

theorem each {α : Type} {f : State → α → State} (h : ∀ s x, Settles s (f s x)) (xs : List α) (s : State) : Settles s (s.each xs f) :=
  List.foldlRecOn (motive := Settles s) xs f (.refl s) fun _ hu x _ => hu.trans (h _ x)

/-- An act of the package that changes at most its orders of BOARD. -/
theorem of_pkg (h : PkgActs s t) (horders : orderPlain t.pwr.orders = orderPlain s.pwr.orders) : Settles s t := by
  have hacts := TrayActs.of_pkg h
  refine ⟨hacts, fun j => ?_, fun j => ?_⟩
  · rw [slotOn, slotOn, hacts.isPkg, h.aon, slotSt, h.tray, slotSt]
  · rw [standing, standing, slotOrders, slotOrders, hacts.isPkg, h.aon, slotSt, h.tray, slotSt]
    split
    · exact horders
    · rfl

theorem emit (s : State) (o : Output) : Settles s (s.emit o) := .of_pkg (.emit s o) rfl

theorem modSlot {f : Slot → Slot} (h : ∀ x, slotPlain (f x) = slotPlain x) (hon : ∀ x, (f x).powered = x.powered) (s : State) (k : Nat) :
    Settles s (s.modSlot k f) := by
  have hacts := TrayActs.modSlot h s k
  refine ⟨hacts, fun j => ?_, fun j => ?_⟩
  · have hpowered : (slotSt (s.modSlot k f) j).powered = (slotSt s j).powered := by
      rw [slotSt_modSlot]
      split
      · exact hon _
      · rfl
    rw [slotOn, slotOn, hacts.isPkg, hpowered]
    rfl
  · have hrecord : orderPlain (slotSt (s.modSlot k f) j).orders = orderPlain (slotSt s j).orders := congrArg (fun x : Slot => x.orders) (hacts.slot j)
    have haon : (s.modSlot k f).rst = s.rst := rfl
    have hpwr : (s.modSlot k f).pwr = s.pwr := rfl
    rw [standing, standing, slotOrders, slotOrders, hacts.isPkg, haon, hpwr]
    split
    · rfl
    · exact hrecord

theorem ite {c : Prop} [Decidable c] {x y : State} (h : Settles s x) (k : Settles s y) : Settles s (if c then x else y) := by
  split
  · exact h
  · exact k
end Settles

section
variable (s : State) (k : Nat)

theorem slotOrder_settles {f : Orders → Orders} (h : ∀ o, orderPlain (f o) = orderPlain o) : Settles s (s.slotOrder k f) :=
  .ite (.of_pkg (order_acts s f) (by rw [order_orders]; exact h _))
    (.modSlot (f := fun x => { x with orders := f x.orders })
      (fun x => congrArg (fun o => { slotPlain x with orders := o }) (h x.orders)) (fun _ => rfl) s k)

theorem tell_settles (o : Relay) : Settles s (s.tell k o) := .ite (.emit s _) (.refl s)

theorem setBoardState_settles (v : PState) : Settles s (s.setBoardState k v) :=
  .ite (.refl s) ((slotOrder_settles s k (f := fun o => { o with board := v }) fun _ => rfl).trans (tell_settles ..))

theorem setBoardCap_settles (w : Nat) : Settles s (s.setBoardCap k w) :=
  .ite (.refl s) ((slotOrder_settles s k (f := fun o => { o with capBoard := w }) fun _ => rfl).trans (tell_settles ..))

theorem shedSlot_settles : Settles s (shedSlot s k) :=
  .trans (Settles.modSlot (f := fun x => { x with shed := true }) (fun _ => rfl) (fun _ => rfl) s k) (setBoardState_settles ..)

theorem shedSlots_settles (n : Nat) : Settles s (shedSlots s n) := by
  induction n generalizing s with
  | zero => exact .refl s
  | succ n ih =>
    unfold shedSlots
    refine .ite (.refl s) ?_
    split
    · exact .refl s
    · exact (shedSlot_settles s _).trans (ih _)

theorem unshedSlots_settles : Settles s (unshedSlots s) :=
  .each (fun u k => .ite (.ite (.trans (Settles.modSlot (f := fun x => { x with shed := false }) (fun _ => rfl) (fun _ => rfl) u k)
    (setBoardState_settles ..)) (.refl u)) (.refl u)) _ s

/-- The BOARD orders are made anew (R588 to R590). -/
theorem settleBoard_settles : Settles s (settleBoard s) := by
  have hstates := Settles.each (f := fun s k => if slotFits s k then s.setBoardState k (boardStateOf s k) else s)
    (fun u k => .ite (setBoardState_settles ..) (.refl u)) slots s
  have hcaps (u : State) := Settles.each (f := fun s k => if slotFits s k then s.setBoardCap k (boardCapOf s) else s)
    (fun u k => .ite (setBoardCap_settles ..) (.refl u)) slots u
  exact ((hstates.trans (shedSlots_settles _ 8)).trans (unshedSlots_settles _)).trans (hcaps _)
end

/-! ## The powering of slots (R583, R586, R593) -/

section
variable (s : State)

theorem coldReset_acts : TrayActs s (coldReset s) := by
  unfold coldReset
  split
  · exact .refl s
  · exact ⟨rfl, rfl, rfl, List.prefix_rfl⟩

theorem coldReset_aon : (coldReset s).rst.aon = true := by
  unfold coldReset
  split
  · assumption
  · rfl

theorem modSld_acts (f : Loader → Loader) : PkgActs s (s.modSld f) := .of_quiet rfl rfl

theorem introduce_acts (k : Nat) : PkgActs s (introduce s k) := by
  have hid : PkgActs s (s.tray.trayId.elim s fun id => s.writeRank id k) := by
    cases s.tray.trayId with
    | none => exact .refl s
    | some id => exact writeRank_acts ..
  have hsaid : PkgActs s (s.tray.trayId.elim s fun id => s.emit (.relay k (.trayId id))) := by
    cases s.tray.trayId with
    | none => exact .refl s
    | some id => exact .emit ..
  unfold introduce
  dsimp only
  split
  · have horder := hid.trans (order_acts (s.tray.trayId.elim s fun id => s.writeRank id k) fun _ => (slotSt s k).orders)
    refine .trans ?_ (releaseN_acts _)
    exact horder.trans (modSld_acts _ _)
  · refine .trans ?_ (PkgActs.each (f := fun s r => s.emit (.relay k r)) (fun _ _ => .emit ..) _ _)
    exact (((hsaid.trans (.emit ..)).trans (.emit ..)).trans (.emit ..)).trans (.emit ..)

theorem releaseReset_orders : (releaseReset s).pwr.orders = s.pwr.orders := by
  unfold releaseReset
  dsimp only
  split
  · rfl
  · rw [beginWake, hubStep_orders]
    split <;> rfl

theorem releaseN_orders : (releaseN s).pwr.orders = s.pwr.orders := by
  unfold releaseN
  split
  · exact releaseReset_orders s
  · split <;> rfl

/-- The modelled package takes the orders of its record (R586). -/
theorem introduce_orders {k : Nat} (h : isPkg s k = true) : (introduce s k).pwr.orders = (slotSt s k).orders := by
  unfold introduce
  dsimp only
  rw [if_pos h, releaseN_orders, modSld_pwr, order_orders]

theorem introduce_pwr {k : Nat} (h : isPkg s k = false) : (introduce s k).pwr = s.pwr := by
  have hid : (s.tray.trayId.elim s fun id => s.emit (.relay k (.trayId id))).pwr = s.pwr := by
    cases s.tray.trayId <;> rfl
  unfold introduce
  dsimp only
  rw [if_neg (ne_true_of_eq_false h), each_proj State.pwr (fun s r => s.emit (.relay k r)) (fun _ _ => rfl)]
  exact hid

/-- A slot as its powering begins: the bus starts as I3C, and another package's rails are on. -/
def railed (k : Nat) : State :=
  if isPkg s k then coldReset (s.modSlot k fun x => { x with smbus := false })
  else ((s.modSlot k fun x => { x with smbus := false }).modSlot k fun x => { x with powered := true, faultN := true }).emit (.slotPower k true)

theorem powerSlot_eq (k : Nat) : powerSlot s k = introduce (railed s k) k := by
  have hpkg : isPkg (s.modSlot k fun x => { x with smbus := false }) k = isPkg s k := rfl
  unfold powerSlot railed
  dsimp only
  rw [hpkg]
  split <;> rfl

theorem railed_acts (k : Nat) : TrayActs s (railed s k) := by
  have hbus : TrayActs s (s.modSlot k fun x => { x with smbus := false }) := .modSlot (f := fun x => { x with smbus := false }) (fun _ => rfl) s k
  unfold railed
  split
  · exact hbus.trans (coldReset_acts _)
  · exact (hbus.trans (.modSlot (f := fun x => { x with powered := true, faultN := true }) (fun _ => rfl) _ k)).trans (.emit ..)

theorem powerSlot_acts (k : Nat) : TrayActs s (powerSlot s k) := by
  rw [powerSlot_eq]
  exact (railed_acts s k).trans (.of_pkg (introduce_acts _ k))

/-- What rails the tray sees on, an introduction leaves. -/
theorem introduce_on (k j : Nat) : slotOn (introduce s k) j = slotOn s j := by
  have hacts := introduce_acts s k
  rw [slotOn, slotOn, (TrayActs.of_pkg hacts).isPkg, hacts.aon, slotSt, hacts.tray, slotSt]

theorem coldReset_tray : (coldReset s).tray = s.tray := by
  unfold coldReset
  split <;> rfl

theorem railed_powered (k j : Nat) : (slotSt (railed s k) j).powered =
    if isPkg s k = false ∧ k = j ∧ k < 8 then true else (slotSt s j).powered := by
  unfold railed
  split
  · next h =>
    rw [if_neg (by simp [h]), slotSt, coldReset_tray, ← slotSt, slotSt_modSlot]
    split <;> rfl
  · next h =>
    have hpkg : isPkg s k = false := Bool.eq_false_iff.mpr h
    show (slotSt (State.modSlot _ k _) j).powered = _
    by_cases hk : k = j ∧ k < 8
    · rw [slotSt_modSlot, if_pos hk, if_pos ⟨hpkg, hk⟩]
    · rw [slotSt_modSlot, if_neg hk, slotSt_modSlot, if_neg hk, if_neg fun hall => hk hall.2]

theorem railed_aon {k : Nat} (h : isPkg s k = false) : (railed s k).rst = s.rst := by
  rw [railed, if_neg (ne_true_of_eq_false h)]
  rfl

/-- The rails of the slot that is powered are on. -/
theorem powerSlot_on {k : Nat} (hk : k < 8) : slotOn (powerSlot s k) k = true := by
  rw [powerSlot_eq, introduce_on, slotOn, (railed_acts s k).isPkg]
  split
  · next h =>
    rw [railed, if_pos h]
    exact coldReset_aon _
  · next h => rw [railed_powered, if_pos ⟨Bool.eq_false_iff.mpr h, rfl, hk⟩]

/-- The rails of the other slots stay as they are. -/
theorem powerSlot_on_other {k j : Nat} (hj : j ≠ k) : slotOn (powerSlot s k) j = slotOn s j := by
  rw [powerSlot_eq, introduce_on, slotOn, slotOn, (railed_acts s k).isPkg]
  split
  · next hpkg =>
    have hk : isPkg s k = false := Bool.eq_false_iff.mpr fun hk => hj (isPkg_unique hpkg hk)
    rw [railed_aon s hk]
  · rw [railed_powered, if_neg fun h => hj h.2.1.symm]

/-- Every slot keeps its orders, that of the modelled package by taking those of its record. -/
theorem powerSlot_standing {k : Nat} (hoff : slotOn s k = false) (j : Nat) : standing (powerSlot s k) j = standing s j := by
  have hacts := powerSlot_acts s k
  have hrecord (j : Nat) : orderPlain (slotSt (powerSlot s k) j).orders = orderPlain (slotSt s j).orders :=
    hacts.slotGet j (fun x => orderPlain x.orders) fun _ => rfl
  rw [standing, standing, slotOrders, slotOrders, hacts.isPkg]
  by_cases hj : isPkg s j = true
  · rw [hj, Bool.true_and, Bool.true_and]
    by_cases hjk : j = k
    · subst hjk
      have haon : s.rst.aon = false := by rwa [slotOn, if_pos hj] at hoff
      have hrailed : isPkg (railed s j) j = true := by rw [(railed_acts s j).isPkg, hj]
      have horders : orderPlain (powerSlot s j).pwr.orders = orderPlain (slotSt s j).orders := by
        rw [powerSlot_eq, introduce_orders _ hrailed]
        exact (railed_acts s j).slotGet j (fun x => orderPlain x.orders) fun _ => rfl
      rw [haon, if_neg Bool.false_ne_true]
      split
      · exact horders
      · exact hrecord j
    · have hk : isPkg s k = false := Bool.eq_false_iff.mpr fun hk => hjk (isPkg_unique hj hk)
      have hrailed : isPkg (railed s k) k = false := by rw [(railed_acts s k).isPkg, hk]
      have haon : (powerSlot s k).rst.aon = s.rst.aon := by rw [powerSlot_eq, (introduce_acts _ k).aon, railed_aon s hk]
      have hpwr : (powerSlot s k).pwr = s.pwr := by
        rw [powerSlot_eq, introduce_pwr _ hrailed, railed, if_neg (ne_true_of_eq_false hk)]
        rfl
      rw [haon, hpwr]
      split
      · rfl
      · exact hrecord j
  · rw [Bool.eq_false_iff.mpr hj, Bool.false_and, Bool.false_and, if_neg Bool.false_ne_true, if_neg Bool.false_ne_true]
    exact hrecord j
end

/-- Orders that hold a slot OFF whatever BOARD orders: OFF of the rack without grace, or of the host. -/
def ordersOff (o : Orders) : Prop := (o.rack = .off ∧ o.offLeft = none) ∨ o.host = .off

/-- A slot that no change of the BOARD orders lets Larkspur power. -/
def barred (s : State) (k : Nat) : Prop := s.tray.strapBad = true ∨ slotFits s k = false ∨ ordersOff (standing s k)

theorem effStateOf_off {o : Orders} (h : ordersOff (orderPlain o)) : effStateOf o = .off := by
  have hoff (a : PState) : plower .off a = .off := by cases a <;> rfl
  have hoff' (a : PState) : plower a .off = .off := by cases a <;> rfl
  obtain ⟨hrack, hgrace⟩ | hhost := h
  · have hrack' : o.rack = .off := hrack
    have hgrace' : o.offLeft = none := hgrace
    simp [effStateOf, rackEffective, hrack', hgrace', hoff]
  · have hhost' : o.host = .off := hhost
    simp [effStateOf, hhost', hoff, hoff']

theorem barred_mayPower {s : State} {k : Nat} (h : barred s k) : mayPower s k = false := by
  obtain hstrap | hfits | hoff := h
  · simp [mayPower, hstrap]
  · simp [mayPower, hfits]
  · simp [mayPower, effStateOf_off hoff]

/-- A change that powers slots, none that is barred. -/
structure Powers (s t : State) : Prop where
  acts : TrayActs s t
  orders : ∀ j, standing t j = standing s j
  stays : ∀ j, slotOn s j = true → slotOn t j = true
  barred : ∀ j, barred s j → slotOn t j = slotOn s j

namespace Powers
variable {s t u : State}

theorem keepsBarred (h : Powers s t) {j : Nat} (hj : Proofs.barred s j) : Proofs.barred t j := by
  rwa [Proofs.barred, h.acts.strapBad, h.acts.slotFits, h.orders]

theorem of_settles (h : Settles s t) : Powers s t := ⟨h.acts, h.orders, fun j hj => (h.on j).trans hj, fun j _ => h.on j⟩
theorem refl (s : State) : Powers s s := .of_settles (.refl s)
theorem trans (h : Powers s t) (k : Powers t u) : Powers s u :=
  ⟨h.acts.trans k.acts, fun j => (k.orders j).trans (h.orders j), fun j hj => k.stays j (h.stays j hj),
    fun j hj => (k.barred j (h.keepsBarred hj)).trans (h.barred j hj)⟩

theorem powerSlot {k : Nat} (h : mayPower s k = true) : Powers s (powerSlot s k) := by
  have hoff : slotOn s k = false := by
    simp only [mayPower, Bool.and_eq_true, Bool.not_eq_true'] at h
    exact h.1.2
  have hother (j : Nat) (hj : j ≠ k) := powerSlot_on_other s hj
  refine ⟨powerSlot_acts s k, powerSlot_standing s hoff, fun j hj => ?_, fun j hj => hother j fun hjk => ?_⟩
  · rw [hother j fun hjk => ?_]
    · exact hj
    · rw [hjk, hoff] at hj
      cases hj
  · rw [← hjk, barred_mayPower hj] at h
    cases h

/-- Slots that may be powered are, one after another. -/
theorem each {c : State → Nat → Bool} (h : ∀ s k, c s k = true → mayPower s k = true) (ks : List Nat) (s : State) :
    Powers s (s.each ks fun s k => if c s k then Machine.powerSlot s k else s) := by
  refine List.foldlRecOn (motive := Powers s) ks _ (.refl s) fun t ht k _ => ?_
  split
  · next hc => exact ht.trans (.powerSlot (h t k hc))
  · exact ht
end Powers

/-- A change, the BOARD orders that follow it, and the slots that it lets Larkspur power (R593). -/
theorem trayChange_powers (s : State) (f : State → State) : Powers (f s) (trayChange s f) :=
  .trans (.of_settles (settleBoard_settles _))
    (.each (c := fun u k => mayPower u k && !mayPower s k) (fun _ _ h => (Bool.and_eq_true_iff.mp h).1) slots _)
end Sys2Proof.Proofs


namespace Sys2Proof.Proofs

open Sys2Proof Sys2Proof.Machine Sys2Proof.Laws

/-! ## What Larkspur sees of one slot, and the rails that go (R594, R613) -/

/-- The tray but for the records of its slots, and the fuses. -/
def face (s : State) : Tray × Fuses := ({ s.tray with slot := .replicate 8 {} }, s.fuses)

/-- What Larkspur sees of a slot: the tray's face, the slot's record, its rails and its PKG_GOOD. -/
def scene (s : State) (k : Nat) : (Tray × Fuses) × Slot × Bool × Bool := (face s, slotSt s k, slotOn s k, slotGood s k)

/-- LAST_CAUSE of a slot as Larkspur keeps it before the rails go (R613). -/
def causeAt (s : State) (k now : Nat) : LastCause :=
  { cause := (resetWords s k).1, wakeStep := (resetWords s k).2.1, pins := (resetWords s k).2.2, atMs := now }

section
variable {s t : State} {j k : Nat}

theorem face_pkg (h : face t = face s) (k : Nat) : isPkg t k = isPkg s k :=
  congrArg (fun a : Tray × Fuses => (a.1.pkgSlot.map (·.val)) == some k) h
theorem face_started (h : face t = face s) : t.tray.started = s.tray.started := congrArg (fun a : Tray × Fuses => a.1.started) h
theorem face_strapBad (h : face t = face s) : t.tray.strapBad = s.tray.strapBad := congrArg (fun a : Tray × Fuses => a.1.strapBad) h
theorem face_liquid (h : face t = face s) : t.tray.liquid = s.tray.liquid := congrArg (fun a : Tray × Fuses => a.1.liquid) h
theorem face_fuses (h : face t = face s) : t.fuses = s.fuses := congrArg (fun a : Tray × Fuses => a.2) h

theorem scene_face (h : scene t k = scene s k) : face t = face s := congrArg (·.1) h
theorem scene_slot (h : scene t k = scene s k) : slotSt t k = slotSt s k := congrArg (·.2.1) h
theorem scene_on (h : scene t k = scene s k) : slotOn t k = slotOn s k := congrArg (·.2.2.1) h
theorem scene_good (h : scene t k = scene s k) : slotGood t k = slotGood s k := congrArg (·.2.2.2) h

theorem slotFits_of_face (h : face t = face s) (hpresent : (slotSt t k).present = (slotSt s k).present)
    (hbin : (slotSt t k).bin = (slotSt s k).bin) : slotFits t k = slotFits s k := by
  rw [slotFits, slotFits, slotBin, slotBin, classBin, classBin, face_pkg h, face_liquid h, face_fuses h, hpresent, hbin]

theorem scene_fits (h : scene t k = scene s k) : slotFits t k = slotFits s k :=
  slotFits_of_face (scene_face h) (by rw [scene_slot h]) (by rw [scene_slot h])

/-- A write of another slot's record is not seen. -/
theorem modSlot_scene (hj : j ≠ k) (f : Slot → Slot) : scene (s.modSlot j f) k = scene s k := by
  have hslot : slotSt (s.modSlot j f) k = slotSt s k := by rw [slotSt_modSlot, if_neg fun h => hj h.1]
  rw [scene, scene, slotOn, slotOn, slotGood, slotGood, hslot]
  rfl

theorem slotSt_modSlot_same (hk : k < 8) (f : Slot → Slot) : slotSt (s.modSlot k f) k = f (slotSt s k) := by
  rw [slotSt_modSlot, if_pos ⟨rfl, hk⟩]

theorem modSlot_on {f : Slot → Slot} (h : ∀ x, (f x).powered = x.powered) : slotOn (s.modSlot j f) k = slotOn s k := by
  have hpowered : (slotSt (s.modSlot j f) k).powered = (slotSt s k).powered := by
    rw [slotSt_modSlot]
    split
    · exact h _
    · rfl
  rw [slotOn, slotOn, hpowered]
  rfl

theorem aonLoss_aon (s : State) : (aonLoss s).rst.aon = false := by
  unfold aonLoss
  split
  · rfl
  · next h => exact Bool.eq_false_iff.mpr h

theorem aonLoss_tray (s : State) : (aonLoss s).tray = s.tray ∧ (aonLoss s).fuses = s.fuses ∧ (aonLoss s).out = s.out := by
  unfold aonLoss
  split <;> exact ⟨rfl, rfl, rfl⟩

theorem railsOut_pkg (h : isPkg s k = true) :
    railsOut s k = aonLoss (s.modSlot k fun x => { x with orders := s.pwr.orders.restored }) := if_pos h

theorem railsOut_other (h : isPkg s k = false) : railsOut s k =
    (s.modSlot k fun x => { x with powered := false, orders := x.orders.restored }).emit (.slotPower k false) := if_neg (ne_true_of_eq_false h)

theorem railsOut_face (s : State) (k : Nat) : face (railsOut s k) = face s := by
  by_cases h : isPkg s k = true
  · obtain ⟨htray, hfuses, -⟩ := aonLoss_tray (s.modSlot k fun x => { x with orders := s.pwr.orders.restored })
    rw [railsOut_pkg h, face, htray, hfuses]
    rfl
  · rw [railsOut_other (Bool.eq_false_iff.mpr h)]
    rfl

/-- The record of a slot whose rails go. -/
theorem railsOut_record (hk : k < 8) : slotSt (railsOut s k) k =
    { slotSt s k with powered := if isPkg s k then (slotSt s k).powered else false
                      orders := if isPkg s k then s.pwr.orders.restored else (slotSt s k).orders.restored } := by
  by_cases h : isPkg s k = true
  · rw [railsOut_pkg h, slotSt, (aonLoss_tray _).1, ← slotSt, slotSt_modSlot_same hk, if_pos h, if_pos h]
  · rw [railsOut_other (Bool.eq_false_iff.mpr h), if_neg h, if_neg h]
    exact slotSt_modSlot_same hk _

theorem railsOut_off (hk : k < 8) : slotOn (railsOut s k) k = false := by
  rw [slotOn, face_pkg (railsOut_face s k), railsOut_record hk]
  by_cases h : isPkg s k = true
  · rw [if_pos h, railsOut_pkg h, aonLoss_aon]
  · rw [if_neg h]
    exact if_neg h

/-- The orders of a slot whose rails go stand, those of the modelled package in its record (R586). -/
theorem railsOut_orders (hk : k < 8) (hon : slotOn s k = true) : slotOrders (railsOut s k) k = (slotOrders s k).restored := by
  have hoff := railsOut_off (s := s) hk
  rw [slotOn, face_pkg (railsOut_face s k)] at hoff
  rw [slotOn] at hon
  rw [slotOrders, slotOrders, face_pkg (railsOut_face s k), railsOut_record hk]
  by_cases h : isPkg s k = true
  · rw [if_pos h] at hoff hon
    simp [h, hoff, hon]
  · simp [h]

theorem railsOut_scene (hj : j ≠ k) : scene (railsOut s j) k = scene s k := by
  by_cases h : isPkg s j = true
  · have hk : isPkg s k = false := Bool.eq_false_iff.mpr fun hk => hj (isPkg_unique h hk)
    have hslot : slotSt (railsOut s j) k = slotSt s k := by
      rw [railsOut_pkg h, slotSt, (aonLoss_tray _).1]
      exact scene_slot (modSlot_scene hj _)
    rw [scene, scene, slotOn, slotOn, slotGood, slotGood, face_pkg (railsOut_face s j), hk, hslot, railsOut_face]
    rfl
  · rw [railsOut_other (Bool.eq_false_iff.mpr h)]
    exact modSlot_scene hj _

theorem railsOut_out (s : State) (k : Nat) : s.out <+: (railsOut s k).out := by
  by_cases h : isPkg s k = true
  · rw [railsOut_pkg h, (aonLoss_tray _).2.2]
    exact List.prefix_rfl
  · rw [railsOut_other (Bool.eq_false_iff.mpr h)]
    exact List.prefix_append ..

/-- Rails that go where they are on: the slot is without power, and its package's orders stand. -/
theorem railsOut_if_off (hk : k < 8) : slotOn (if slotOn s k then railsOut s k else s) k = false := by
  split
  · exact railsOut_off hk
  · next h => exact Bool.eq_false_iff.mpr h

theorem noteCause_scene (hj : j ≠ k) (now : Nat) : scene (noteCause s j now) k = scene s k := modSlot_scene hj _

theorem noteCause_record (hk : k < 8) (now : Nat) : slotSt (noteCause s k now) k = { slotSt s k with lastCause := some (causeAt s k now) } :=
  slotSt_modSlot_same hk _

theorem noteCause_on (j now k : Nat) : slotOn (noteCause s j now) k = slotOn s k :=
  modSlot_on (s := s) (j := j) (f := fun x => { x with lastCause := some (causeAt s j now) }) fun _ => rfl

theorem noteCause_orders (hk : k < 8) (now : Nat) : slotOrders (noteCause s k now) k = slotOrders s k := by
  rw [slotOrders, slotOrders, noteCause_record hk]
  rfl

theorem removePower_scene (hj : j ≠ k) (now : Nat) : scene (removePower s j now) k = scene s k := by
  unfold removePower
  split
  · exact (railsOut_scene hj).trans (noteCause_scene hj now)
  · rfl

theorem removePower_face (s : State) (k now : Nat) : face (removePower s k now) = face s := by
  unfold removePower
  split
  · exact railsOut_face _ k
  · rfl

theorem removePower_off (hk : k < 8) (now : Nat) : slotOn (removePower s k now) k = false := by
  unfold removePower
  split
  · exact railsOut_off hk
  · next h => exact Bool.eq_false_iff.mpr h

/-- LAST_CAUSE of a slot that loses its power holds the time (R613). -/
theorem removePower_cause (hk : k < 8) (now : Nat) (hon : slotOn s k = true) :
    ∃ c, (slotSt (removePower s k now) k).lastCause = some c ∧ c.atMs = now := by
  refine ⟨causeAt s k now, ?_, rfl⟩
  rw [removePower, if_pos hon, railsOut_record hk, noteCause_record hk]

theorem removePower_fits (hk : k < 8) (now : Nat) : slotFits (removePower s k now) k = slotFits s k := by
  unfold removePower
  split
  · refine slotFits_of_face (railsOut_face _ k) ?_ ?_ <;> rw [railsOut_record hk, noteCause_record hk]
  · rfl

theorem removePower_orders (hk : k < 8) (now : Nat) (hon : slotOn s k = true) :
    slotOrders (removePower s k now) k = (slotOrders s k).restored := by
  rw [removePower, if_pos hon, railsOut_orders hk (by rw [noteCause_on, hon]), noteCause_orders hk]

/-! ## A loop over the slots, seen from one of them -/

/-- Steps for other slots leave what one slot sees. -/
theorem each_other {γ : Type} {g : State → γ} {f : State → Nat → State} (h : ∀ s j, j ≠ k → g (f s j) = g s) {ks : List Nat} (hk : k ∉ ks)
    (s : State) : g (s.each ks f) = g s :=
  List.foldlRecOn (motive := fun u => g u = g s) ks f rfl fun u hu j hj => (h u j fun hjk => hk (hjk ▸ hj)).trans hu

/-- A loop over the slots takes its step for a slot once. -/
theorem slots_each_at (f : State → Nat → State) (k : Fin 8) (s : State) :
    ∃ l r, s.each slots f = (f (s.each l f) k).each r f ∧ k.val ∉ l ∧ k.val ∉ r := by
  obtain ⟨l, r, hslots⟩ := List.append_of_mem (List.mem_range.mpr k.isLt)
  have hnodup : (l ++ k.val :: r).Nodup := hslots ▸ List.nodup_range
  obtain ⟨-, hr, hdisjoint⟩ := List.nodup_append.mp hnodup
  refine ⟨l, r, ?_, fun hl => hdisjoint _ hl _ List.mem_cons_self rfl, (List.nodup_cons.mp hr).1⟩
  rw [slots, hslots, State.each, List.foldl_append]
  rfl

theorem each_out_prefix {f : State → Nat → State} (h : ∀ s j, s.out <+: (f s j).out) (ks : List Nat) (s : State) : s.out <+: (s.each ks f).out :=
  List.foldlRecOn (motive := fun u : State => s.out <+: u.out) ks f List.prefix_rfl fun u hu j _ => hu.trans (h u j)
end
end Sys2Proof.Proofs


namespace Sys2Proof.Proofs

open Sys2Proof Sys2Proof.Machine Sys2Proof.Laws

/-! ## Larkspur's start (R581 to R584, R597) -/

section
variable {s : State} {j k : Nat}

theorem modSlot_good {f : Slot → Slot} (h : ∀ x, (f x).pkgGood = x.pkgGood) : slotGood (s.modSlot j f) k = slotGood s k := by
  have hgood : (slotSt (s.modSlot j f) k).pkgGood = (slotSt s k).pkgGood := by
    rw [slotSt_modSlot]
    split
    · exact h _
    · rfl
  rw [slotGood, slotGood, hgood]
  rfl

theorem openGate_scene (hj : j ≠ k) : scene (openGate s j) k = scene s k := by
  unfold openGate
  dsimp only
  split
  · exact modSlot_scene hj _
  · rfl

theorem openGate_face (s : State) (k : Nat) : face (openGate s k) = face s := by
  unfold openGate
  dsimp only
  split <;> rfl

theorem openGate_out (s : State) (k : Nat) : (openGate s k).out = s.out := by
  unfold openGate
  dsimp only
  split <;> rfl

theorem openGate_on (s : State) (j k : Nat) : slotOn (openGate s j) k = slotOn s k := by
  unfold openGate
  dsimp only
  split
  · exact modSlot_on fun _ => rfl
  · rfl

/-- The record of a slot whose gate Larkspur may open: OPEN_EN alone changes. -/
theorem openGate_record (hk : k < 8) : slotSt (openGate s k) k = { slotSt s k with
    openEn := (slotSt s k).openEn || (slotGood s k && (slotSt s k).present && !(slotSt s k).forced && !(slotSt s k).held) } := by
  unfold openGate
  dsimp only
  split
  · next h => rw [slotSt_modSlot_same hk, h, Bool.or_true]
  · next h => rw [Bool.eq_false_iff.mpr h, Bool.or_false]

theorem openGates_face (s : State) : face (s.each slots openGate) = face s := each_proj face openGate openGate_face slots s

theorem openGates_on (s : State) (k : Nat) : slotOn (s.each slots openGate) k = slotOn s k :=
  each_proj (fun s => slotOn s k) openGate (fun s j => openGate_on s j k) slots s

theorem openGates_record (k : Fin 8) (s : State) : slotSt (s.each slots openGate) k = { slotSt s k with
    openEn := (slotSt s k).openEn || (slotGood s k && (slotSt s k).present && !(slotSt s k).forced && !(slotSt s k).held) } := by
  obtain ⟨l, r, heach, hl, hr⟩ := slots_each_at openGate k s
  have hbefore := each_other (g := fun s => scene s k) (fun _ _ => openGate_scene) hl s
  have hafter := each_other (g := fun s => scene s k) (fun _ _ => openGate_scene) hr (openGate (s.each l openGate) k)
  rw [heach, scene_slot hafter, openGate_record k.isLt, scene_slot hbefore, scene_good hbefore]

/-- Larkspur holds the bin of one slot against COOL_CLASS. -/
def checkBin (s : State) (k : Nat) : State :=
  if (slotSt s k).present && !slotFits s k then wrongBin s k else s.modSlot k fun x => { x with binMismatch := false }

theorem checkBins_eq (s : State) : checkBins s = s.each slots checkBin := rfl

/-- A slot as a package of the wrong bin is reported. -/
def mismatched (s : State) (k : Nat) : State :=
  (s.modSlot k fun x => { x with binMismatch := true }).emit (.report (some k) .binMismatch)

theorem wrongBin_eq (s : State) (k : Nat) :
    wrongBin s k = if slotOn (mismatched s k) k then railsOut (mismatched s k) k else mismatched s k := rfl

theorem wrongBin_scene (hj : j ≠ k) : scene (wrongBin s j) k = scene s k := by
  rw [wrongBin_eq]
  split
  · exact (railsOut_scene hj).trans (modSlot_scene hj _)
  · exact modSlot_scene hj _

theorem wrongBin_face (s : State) (k : Nat) : face (wrongBin s k) = face s := by
  rw [wrongBin_eq]
  split
  · exact railsOut_face _ k
  · rfl

theorem wrongBin_out (s : State) (k : Nat) : (mismatched s k).out <+: (wrongBin s k).out := by
  rw [wrongBin_eq]
  split
  · exact railsOut_out _ k
  · exact List.prefix_rfl

theorem wrongBin_record (hk : k < 8) : (slotSt (wrongBin s k) k).binMismatch = true ∧
    (slotSt (wrongBin s k) k).present = (slotSt s k).present ∧ (slotSt (wrongBin s k) k).bin = (slotSt s k).bin := by
  have hrecord : slotSt (mismatched s k) k = { slotSt s k with binMismatch := true } := slotSt_modSlot_same hk _
  rw [wrongBin_eq]
  split
  · rw [railsOut_record hk, hrecord]
    exact ⟨rfl, rfl, rfl⟩
  · rw [hrecord]
    exact ⟨rfl, rfl, rfl⟩

theorem checkBin_scene (hj : j ≠ k) : scene (checkBin s j) k = scene s k := by
  unfold checkBin
  split
  · exact wrongBin_scene hj
  · exact modSlot_scene hj _

theorem checkBin_face (s : State) (k : Nat) : face (checkBin s k) = face s := by
  unfold checkBin
  split
  · exact wrongBin_face s k
  · rfl

theorem checkBin_out (s : State) (k : Nat) : s.out <+: (checkBin s k).out := by
  unfold checkBin
  split
  · exact (List.prefix_append ..).trans (wrongBin_out s k)
  · exact List.prefix_rfl

theorem checkBins_face (s : State) : face (checkBins s) = face s := each_proj face checkBin checkBin_face slots s

/-- A package of the tray's own bin: its gate and its rails are left. -/
theorem checkBins_fit (k : Fin 8) {s : State} (h : slotFits s k = true) :
    slotSt (checkBins s) k = { slotSt s k with binMismatch := false } ∧ slotGood (checkBins s) k = slotGood s k := by
  obtain ⟨l, r, heach, hl, hr⟩ := slots_each_at checkBin k s
  have hbefore := each_other (g := fun s => scene s k) (fun _ _ => checkBin_scene) hl s
  have hafter := each_other (g := fun s => scene s k) (fun _ _ => checkBin_scene) hr (checkBin (s.each l checkBin) k)
  have hstep : checkBin (s.each l checkBin) k = (s.each l checkBin).modSlot k fun x => { x with binMismatch := false } :=
    if_neg (by simp [scene_fits hbefore, h])
  have hgood : slotGood ((s.each l checkBin).modSlot k fun x => { x with binMismatch := false }) k = slotGood (s.each l checkBin) k :=
    modSlot_good (f := fun x => { x with binMismatch := false }) fun _ => rfl
  rw [checkBins_eq, heach, scene_slot hafter, scene_good hafter, hstep, slotSt_modSlot_same k.isLt, scene_slot hbefore, hgood,
    scene_good hbefore]
  exact ⟨rfl, rfl⟩

/-- A package of another bin: it is reported, and its slot has no power. -/
theorem checkBins_misfit (k : Fin 8) {s : State} (hpresent : (slotSt s k).present = true) (h : slotFits s k = false) :
    (slotSt (checkBins s) k).binMismatch = true ∧ slotOn (checkBins s) k = false ∧ slotFits (checkBins s) k = false ∧
    .report (some k.val) .binMismatch ∈ (checkBins s).out := by
  obtain ⟨l, r, heach, hl, hr⟩ := slots_each_at checkBin k s
  have hbefore := each_other (g := fun s => scene s k) (fun _ _ => checkBin_scene) hl s
  have hafter := each_other (g := fun s => scene s k) (fun _ _ => checkBin_scene) hr (checkBin (s.each l checkBin) k)
  have hstep : checkBin (s.each l checkBin) k = wrongBin (s.each l checkBin) k :=
    if_pos (by simp [scene_fits hbefore, scene_slot hbefore, h, hpresent])
  obtain ⟨hmismatch, hkeeps, hbin⟩ := wrongBin_record (s := s.each l checkBin) k.isLt
  have hfits := slotFits_of_face (wrongBin_face (s.each l checkBin) k) hkeeps hbin
  rw [checkBins_eq, heach, scene_slot hafter, scene_on hafter, scene_fits hafter, hstep]
  refine ⟨hmismatch, ?_, by rw [hfits, scene_fits hbefore, h],
    (each_out_prefix checkBin_out r _).subset ((wrongBin_out _ k).subset (List.mem_append_right _ List.mem_cons_self))⟩
  rw [wrongBin_eq]
  exact railsOut_if_off k.isLt

/-- Larkspur as it has read its strap. -/
def strapRead (s : State) (strap : Nat) : State :=
  s.modTray fun t => { t with started := true, strapBad := decide (1 < strap), liquid := strap == 1 }

/-- The bins held against the strap; a bad strap is reported. -/
def binsHeld (s : State) (strap : Nat) : State :=
  if 1 < strap then (strapRead s strap).emit (.report none .classStrapBad) else checkBins (strapRead s strap)

theorem startLarkspur_powers (s : State) (strap : Nat) : Powers ((binsHeld s strap).each slots openGate) (startLarkspur s strap) :=
  .trans (.of_settles (settleBoard_settles _)) (.each (c := mayPower) (fun _ _ h => h) slots _)

theorem binsHeld_face (s : State) (strap : Nat) : face (binsHeld s strap) = face (strapRead s strap) := by
  unfold binsHeld
  split
  · rfl
  · exact checkBins_face _

/-- What Larkspur has read at its start stands. -/
theorem startLarkspur_tray (s : State) (strap : Nat) : (startLarkspur s strap).tray.started = true ∧
    (startLarkspur s strap).tray.strapBad = decide (1 < strap) ∧ (startLarkspur s strap).tray.liquid = (strap == 1) := by
  have hface := (openGates_face (binsHeld s strap)).trans (binsHeld_face s strap)
  have hacts := (startLarkspur_powers s strap).acts
  exact ⟨hacts.started.trans (face_started hface), hacts.strapBad.trans (face_strapBad hface), hacts.liquid.trans (face_liquid hface)⟩

/-- The gate of a slot with power and PKG_GOOD opens again, but where the bin is another than the class asks (R597). -/
theorem startLarkspur_opens (k : Fin 8) {s : State} {strap : Nat} (hfits : 1 < strap ∨ slotFits (strapRead s strap) k = true)
    (hgood : slotGood s k = true) (hpresent : (slotSt s k).present = true) (hforced : (slotSt s k).forced = false)
    (hheld : (slotSt s k).held = false) : (slotSt (startLarkspur s strap) k).openEn = true := by
  rw [(startLarkspur_powers s strap).acts.slotGet k (·.openEn) fun _ => rfl, openGates_record]
  have hread : slotSt (strapRead s strap) k = slotSt s k := rfl
  have hreadGood : slotGood (strapRead s strap) k = slotGood s k := rfl
  by_cases hstrap : 1 < strap
  · have hrecord : slotSt (binsHeld s strap) k = slotSt s k := by
      rw [binsHeld, if_pos hstrap]
      rfl
    have hheldGood : slotGood (binsHeld s strap) k = slotGood s k := by
      rw [binsHeld, if_pos hstrap]
      rfl
    simp [hrecord, hheldGood, hgood, hpresent, hforced, hheld]
  · obtain ⟨hrecord, hheldGood⟩ := checkBins_fit k (hfits.resolve_left hstrap)
    rw [binsHeld, if_neg hstrap, hrecord, hheldGood, hread, hreadGood]
    simp [hgood, hpresent, hforced, hheld]

/-- A package of another bin is reported and stays without power (R583, R584). -/
theorem startLarkspur_misfit (k : Fin 8) {s : State} {strap : Nat} (hstrap : strap ≤ 1) (hpresent : (slotSt s k).present = true)
    (hfits : slotFits (strapRead s strap) k = false) : .report (some k.val) .binMismatch ∈ (startLarkspur s strap).out ∧
    (slotSt (startLarkspur s strap) k).binMismatch = true ∧ slotOn (startLarkspur s strap) k = false := by
  have hheld : binsHeld s strap = checkBins (strapRead s strap) := if_neg (by omega)
  have hpowers := startLarkspur_powers s strap
  rw [hheld] at hpowers
  obtain ⟨hmismatch, hoff, hmisfit, hreport⟩ := checkBins_misfit k (s := strapRead s strap) hpresent hfits
  have hrecord := openGates_record k (checkBins (strapRead s strap))
  have hbarred : barred ((checkBins (strapRead s strap)).each slots openGate) k :=
    .inr (.inl ((slotFits_of_face (openGates_face _) (by rw [hrecord]) (by rw [hrecord])).trans hmisfit))
  refine ⟨hpowers.acts.out.subset ?_, ?_, ?_⟩
  · rwa [each_out _ openGate_out]
  · rw [hpowers.acts.slotGet k (·.binMismatch) fun _ => rfl, hrecord]
    exact hmismatch
  · rw [hpowers.barred k hbarred, openGates_on, hoff]

/-- Under a bad strap Larkspur powers no slot (R582). -/
theorem startLarkspur_badStrap (k : Fin 8) {s : State} {strap : Nat} (hstrap : 1 < strap) :
    .report none .classStrapBad ∈ (startLarkspur s strap).out ∧ slotOn (startLarkspur s strap) k = slotOn s k := by
  have hheld : binsHeld s strap = (strapRead s strap).emit (.report none .classStrapBad) := if_pos hstrap
  have hpowers := startLarkspur_powers s strap
  rw [hheld] at hpowers
  have hbarred : barred (((strapRead s strap).emit (.report none .classStrapBad)).each slots openGate) k :=
    .inl ((face_strapBad (openGates_face _)).trans (decide_eq_true hstrap))
  refine ⟨hpowers.acts.out.subset ?_, ?_⟩
  · rw [each_out _ openGate_out]
    exact List.mem_append_right _ List.mem_cons_self
  · rw [hpowers.barred k hbarred, openGates_on]
    rfl
end
end Sys2Proof.Proofs


namespace Sys2Proof.Proofs

open Sys2Proof Sys2Proof.Machine Sys2Proof.Laws

/-! ## Packages that come, leave and are no longer good (R28, R583, R584, R595, R596) -/

section
variable {s : State}

/-- The record of a slot that its package has left. -/
def departed (x : Slot) : Slot :=
  { x with present := false, binMismatch := false, openEn := false, pkgGood := false, temp := none, faultN := true }

theorem slotLeft_eq (s : State) (k : Nat) : slotLeft s k = (if slotOn s k then railsOut s k else s).modSlot k departed := rfl

theorem slotLeft_record (s : State) (k : Fin 8) : (slotSt (slotLeft s k) k).present = false ∧ (slotSt (slotLeft s k) k).openEn = false ∧
    (slotSt (slotLeft s k) k).pkgGood = false := by
  rw [slotLeft_eq, slotSt_modSlot_same k.isLt]
  exact ⟨rfl, rfl, rfl⟩

theorem slotLeft_off (s : State) (k : Fin 8) : slotOn (slotLeft s k) k = false := by
  rw [slotLeft_eq, modSlot_on (f := departed) fun _ => rfl]
  exact railsOut_if_off k.isLt

/-- A package that leaves takes its rails with it, and its gate closes (R584, R595). -/
theorem slotPresentRise_leaves (k : Fin 8) (h : (slotSt s k).present = true) : ∃ t, exec (.slotPresentRise k) s = .next t ∧
    (slotSt t k).present = false ∧ (slotSt t k).openEn = false ∧ (slotSt t k).pkgGood = false ∧ slotOn t k = false := by
  have hstep : exec (.slotPresentRise k) s =
      .next (if (slotLeft s k).tray.started then trayChange (slotLeft s k) id else slotLeft s k) := congrArg Host.Outcome.next (if_pos h)
  have hpowers : Powers (slotLeft s k) (if (slotLeft s k).tray.started then trayChange (slotLeft s k) id else slotLeft s k) := by
    split
    · exact trayChange_powers _ id
    · exact .refl _
  obtain ⟨hpresent, hopen, hgood⟩ := slotLeft_record s k
  have hbarred : barred (slotLeft s k) k := .inr (.inl (by rw [slotFits, hpresent, Bool.false_and]))
  exact ⟨_, hstep, (hpowers.acts.slotGet k (·.present) fun _ => rfl).trans hpresent,
    (hpowers.acts.slotGet k (·.openEn) fun _ => rfl).trans hopen, (hpowers.acts.slotGet k (·.pkgGood) fun _ => rfl).trans hgood,
    (hpowers.barred k hbarred).trans (slotLeft_off s k)⟩

theorem ringDown_rank (s : State) : s.ringDown.rhl.rank = s.rhl.nextRank.orElse fun _ => s.rhl.rank := by
  simp [State.ringDown, State.refreshGood, State.realignLink, State.leaveDomain]

theorem restartTraining_live (h : (List.range 8).any (fun l => linkLive (linkSt s l).state) = true) : s.restartTraining =
    (s.reshapeEvent none [] [ownRank s]).modRhl fun r => { r with state := .leaving, restart := true } := if_pos h

theorem restartTraining_mem (s : State) : s.restartTraining.mem = s.mem := by
  unfold State.restartTraining
  split
  · exact reshapeEvent_mem ..
  · exact (ringDown_frame s).2

theorem writeRank_mem (s : State) (id slot : Nat) : (s.writeRank id slot).mem = s.mem := by
  unfold State.writeRank
  split
  · rfl
  · split
    · exact restartTraining_mem s
    · exact (ringDown_frame _).2

/-- A tray ID and a slot that are new to the package (R28): its links leave the ring first where they run. -/
theorem writeRank_new {id slot : Nat} (haon : s.rst.aon = true) (hnext : s.rhl.nextRank = none) (hnew : s.rhl.rank ≠ some (id, slot)) :
    if (List.range 8).any (fun l => linkLive (linkSt s l).state) then
      (s.writeRank id slot).rhl.nextRank = some (id, slot) ∧ (s.writeRank id slot).rhl.state = .leaving
    else (s.writeRank id slot).rhl.rank = some (id, slot) := by
  have hchange : (!s.rst.aon || (s.rhl.nextRank.orElse fun _ => s.rhl.rank) == some (id, slot)) = false := by
    simp [haon, hnext, hnew]
  rw [State.writeRank, if_neg (ne_true_of_eq_false hchange)]
  split
  · next hlive =>
    rw [restartTraining_live hlive]
    exact ⟨rfl, rfl⟩
  · rw [ringDown_rank]
    show (s.rhl.nextRank.orElse fun _ => some (id, slot)) = _
    rw [hnext]
    rfl

/-- A slot's record as BIN_ID has been read of a package newly in it. -/
def binShown (s : State) (k : Nat) (b : Bin) (x : Slot) : Slot :=
  { x with present := true, bin := b, binMismatch := b != classBin s,
           orders := if (slotSt s k).bin != b then { x.orders with capHost := binHostCap b, capBoard := binMax b } else x.orders }

theorem readBin_eq (s : State) (k : Nat) (b : Bin) : readBin s k b =
    if b != classBin s then (trayChange s fun u => u.modSlot k (binShown s k b)).emit (.report (some k) .binMismatch)
    else trayChange s fun u => u.modSlot k (binShown s k b) := rfl

theorem readBin_powers (s : State) (k : Nat) (b : Bin) : Powers (s.modSlot k (binShown s k b)) (readBin s k b) := by
  have hchange := trayChange_powers s fun u => u.modSlot k (binShown s k b)
  rw [readBin_eq]
  split
  · exact hchange.trans (.of_settles (.emit ..))
  · exact hchange

/-- A package that arrives is seen in its slot; one of the wrong bin is reported and not powered (R583, R584). -/
theorem binIdRead_arrives (k : Fin 8) (b : Bin) (hstart : s.tray.started = true) (hoff : slotOn s k = false)
    (hempty : (slotSt s k).present = false) (hstrap : s.tray.strapBad = false) (hbin : binPossible s k b = true) :
    ∃ t, exec (.binIdRead k b) s = .next t ∧ (slotSt t k).present = true ∧ (slotSt t k).bin = b ∧
      (slotSt t k).binMismatch = (b != classBin s) ∧ (b ≠ classBin s → .report (some k.val) .binMismatch ∈ t.out ∧ slotOn t k = false) := by
  have hstep : exec (.binIdRead k b) s = .next (readBin s k b) := by
    simp only [exec, execBinIdRead, larkspur_started hstart, hoff, hempty, hstrap, hbin, Bool.or_self, Bool.not_true, Bool.false_eq_true,
      if_false]
  have hpowers := readBin_powers s k b
  have hrecord := slotSt_modSlot_same (s := s) k.isLt (binShown s k b)
  refine ⟨_, hstep, ?_, ?_, ?_, fun hwrong => ⟨?_, ?_⟩⟩
  · rw [hpowers.acts.slotGet k (·.present) fun _ => rfl, hrecord, binShown]
  · rw [hpowers.acts.slotGet k (·.bin) fun _ => rfl, hrecord, binShown]
  · rw [hpowers.acts.slotGet k (·.binMismatch) fun _ => rfl, hrecord, binShown]
  · rw [readBin_eq, if_pos (bne_iff_ne.mpr hwrong)]
    exact List.mem_append_right _ List.mem_cons_self
  · have hshown : slotBin (s.modSlot k (binShown s k b)) k = b := by
      rw [slotBin, hrecord, binShown]
      split
      · next hpkg =>
        have hpkg' : isPkg s k = true := hpkg
        simp only [binPossible, hpkg', Bool.not_true, Bool.false_or, beq_iff_eq] at hbin
        exact hbin.symm
      · rfl
    have hmisfit : slotFits (s.modSlot k (binShown s k b)) k = false := by
      rw [slotFits, hshown, Bool.and_eq_false_iff]
      exact .inr (beq_false_of_ne hwrong)
    rw [hpowers.barred k (.inr (.inl hmisfit)), modSlot_on (f := binShown s k b) fun _ => rfl, hoff]

/-- The fall of PKG_GOOD at a gate that is not open (R595). -/
theorem pkgGoodFall_closed (k : Fin 8) (now : Nat) (hgood : s.tray.slot[k].pkgGood = true) (hpkg : isPkg s k = true → s.rst.pkgGood = false)
    (hclosed : s.tray.slot[k].openEn = false) : exec (.pkgGoodFall k now) s =
      .next { s with tray := { s.tray with slot := s.tray.slot.set k { s.tray.slot[k] with pkgGood := false } } } := by
  have hfell : (!(slotSt s k).pkgGood || (isPkg s k && s.rst.pkgGood)) = false := by
    rw [slotSt_get, hgood]
    simpa using hpkg
  simp only [exec, execPkgGoodFall, hfell, Bool.false_eq_true, if_false]
  simp only [goodFell, slotSt_get, hclosed, Bool.and_false, Bool.false_and, Bool.or_false, Bool.false_eq_true, if_false, modSlot_eq]

/-- The record of a slot whose open gate closes as PKG_GOOD falls. -/
def gateShut (started : Bool) (now : Nat) (x : Slot) : Slot :=
  { x with pkgGood := false, openEn := false, closings := recent x.closings now 60000
           held := x.held || (decide (4 ≤ (recent x.closings now 60000).length) && started) }

/-- The slot with its gate closed. -/
def shutAt (s : State) (k : Fin 8) (now : Nat) : State :=
  { s with tray := { s.tray with slot := s.tray.slot.set k (gateShut s.tray.started now s.tray.slot[k]) } }

theorem goodFell_open (k : Fin 8) (now : Nat) (hpresent : s.tray.slot[k].present = true) (hopen : s.tray.slot[k].openEn = true) :
    goodFell s k now =
      if decide (4 ≤ (recent s.tray.slot[k].closings now 60000).length) && s.tray.started && !s.tray.slot[k].held then
        (shutAt s k now).emit (.report (some k) .gateHeld)
      else shutAt s k now := by
  have hgate : (s.tray.slot[k].present && s.tray.slot[k].openEn) = true := Bool.and_eq_true_iff.mpr ⟨hpresent, hopen⟩
  simp only [goodFell, slotSt_get, hgate, Bool.true_and, if_true, modSlot_eq]
  rfl

/-- The fall of PKG_GOOD at an open gate: it closes, and the fourth closing within 60 s holds it (R596, R598). -/
theorem pkgGoodFall_open (k : Fin 8) (now : Nat) (hgood : s.tray.slot[k].pkgGood = true) (hpkg : isPkg s k = true → s.rst.pkgGood = false)
    (hpresent : s.tray.slot[k].present = true) (hopen : s.tray.slot[k].openEn = true) :
    ∃ t, exec (.pkgGoodFall k now) s = .next t ∧ t.tray.slot[k] = gateShut s.tray.started now s.tray.slot[k] ∧
      (4 ≤ (recent s.tray.slot[k].closings now 60000).length → s.tray.started = true → s.tray.slot[k].held = false →
        .report (some k.val) .gateHeld ∈ t.out) ∧
      t.mem = s.mem := by
  have hfell : (!(slotSt s k).pkgGood || (isPkg s k && s.rst.pkgGood)) = false := by
    rw [slotSt_get, hgood]
    simpa using hpkg
  have hstep : exec (.pkgGoodFall k now) s = .next (goodFell s k now) := by
    simp only [exec, execPkgGoodFall, hfell, Bool.false_eq_true, if_false]
  have hrecord : (shutAt s k now).tray.slot[k] = gateShut s.tray.started now s.tray.slot[k] := Vector.getElem_set_self ..
  rw [goodFell_open k now hpresent hopen] at hstep
  refine ⟨_, hstep, ?_, fun hfour hstart hheld => ?_, ?_⟩
  · split <;> exact hrecord
  · rw [if_pos (by simp only [decide_eq_true hfour, hstart, hheld, Bool.not_false, Bool.and_self])]
    exact List.mem_append_right _ List.mem_cons_self
  · split <;> rfl

theorem modSlot_twice (s : State) (k : Fin 8) (f g : Slot → Slot) : (s.modSlot k f).modSlot k g = s.modSlot k fun x => g (f x) := by
  rw [modSlot_eq, modSlot_eq, modSlot_eq]
  simp only [Fin.getElem_fin, Vector.set_set, Vector.getElem_set_self]

/-- A gate that Larkspur may open. -/
theorem openGate_opens {k : Nat} (hgood : slotGood s k = true) (hpresent : (slotSt s k).present = true) (hforced : (slotSt s k).forced = false)
    (hheld : (slotSt s k).held = false) : openGate s k = s.modSlot k fun x => { x with openEn := true } :=
  if_pos (by simp only [hgood, hpresent, hforced, hheld, Bool.not_false, Bool.and_self])

/-- The rise of PKG_GOOD opens the gate of a package in its slot (R596). -/
theorem pkgGoodRise_opens (k : Fin 8) (hstart : s.tray.started = true) (hpresent : s.tray.slot[k].present = true)
    (hforced : s.tray.slot[k].forced = false) (hheld : s.tray.slot[k].held = false) (hpkg : isPkg s k = true → s.rst.pkgGood = true) :
    exec (.pkgGoodRise k) s =
      .next { s with tray := { s.tray with slot := s.tray.slot.set k { s.tray.slot[k] with pkgGood := true, openEn := true } } } := by
  have hrises : (!(slotSt s k).present || (isPkg s k && !s.rst.pkgGood)) = false := by
    rw [slotSt_get, hpresent]
    simpa using hpkg
  have hrecord : slotSt (s.modSlot k fun x => { x with pkgGood := true }) k = { s.tray.slot[k] with pkgGood := true } := by
    rw [slotSt_modSlot_same k.isLt, slotSt_get]
  have hgood : slotGood (s.modSlot k fun x => { x with pkgGood := true }) k = true := by
    rw [slotGood, hrecord]
    split
    · next h => exact hpkg h
    · rfl
  have hopens := openGate_opens hgood (by rw [hrecord, hpresent]) (by rw [hrecord, hforced]) (by rw [hrecord, hheld])
  calc exec (.pkgGoodRise k) s
      = .next (larkspur (s.modSlot k fun x => { x with pkgGood := true }) fun s => openGate s k) := by
        simp only [exec, execPkgGoodRise, hrises, Bool.false_eq_true, if_false]
    _ = .next (openGate (s.modSlot k fun x => { x with pkgGood := true }) k) :=
        congrArg Host.Outcome.next (larkspur_started (s := s.modSlot k fun x => { x with pkgGood := true }) hstart _)
    _ = _ := by rw [hopens, modSlot_twice, modSlot_eq]
end
end Sys2Proof.Proofs


namespace Sys2Proof.Proofs

open Sys2Proof Sys2Proof.Machine Sys2Proof.Laws

/-! ## The commands for a slot (R585, R587, R598, R609, R611 to R613, R617, Table 17-3) -/

section
variable {s : State}

theorem command_rack (h : s.tray.started = true) (f : State → State) : command s (isRack .rack) f = f s := command_started h f

/-- A command from a source that may not give it (R609). -/
theorem command_refused (h : s.tray.started = true) (f : State → State) : command s false f = s.answer .notPermitted := by
  rw [command, larkspur_started h]
  rfl

theorem answer_last (u : State) (c : Code) : (u.answer c).out.getLast? = some (.response c) := List.getLast?_concat ..

/-- The commands that Table 17-3 gives to the rack alone are refused from a host. -/
theorem host_refused (h : s.tray.started = true) (k p : Fin 8) (id : Fin 128) (b1 b2 : Bool) (w now : Nat) (c : Instr)
    (hc : c ∈ [Instr.coldCycle (.host p) k now, .gateForce (.host p) k, .gateRelease (.host p) k, .retrain (.host p) k,
      .setTrayId (.host p) id, .setTempo (.host p) b1, .setBoot (.host p) k b1 b2, .setInput (.host p) w, .setRecover (.host p) k b1]) :
    exec c s = .next { s with out := s.out ++ [.response .notPermitted] } := by
  simp only [List.mem_cons, List.not_mem_nil, or_false] at hc
  rcases hc with rfl | rfl | rfl | rfl | rfl | rfl | rfl | rfl | rfl
  all_goals exact congrArg Host.Outcome.next (command_refused h _)

theorem gateForce_closes (h : s.tray.started = true) (k : Fin 8) : exec (.gateForce .rack k) s = .next { s with
    tray := { s.tray with slot := s.tray.slot.set k { s.tray.slot[k] with openEn := false, forced := true } },
    out := s.out ++ [.response .ok] } := by
  refine congrArg Host.Outcome.next ((command_rack h _).trans ?_)
  rw [modSlot_eq]
  rfl

theorem setRecover_sets (h : s.tray.started = true) (k : Fin 8) (auto : Bool) : exec (.setRecover .rack k auto) s = .next { s with
    tray := { s.tray with slot := s.tray.slot.set k { s.tray.slot[k] with recoverAuto := auto } }, out := s.out ++ [.response .ok] } := by
  refine congrArg Host.Outcome.next ((command_rack h _).trans ?_)
  rw [modSlot_eq]
  rfl

/-- OPEN_EN as Larkspur sets it where the gate may open (R596). -/
theorem openGate_eq (s : State) (k : Fin 8) : openGate s k = s.modSlot k fun x =>
    { x with openEn := x.openEn || (slotGood s k && x.present && !x.forced && !x.held) } := by
  rw [modSlot_eq, openGate, slotSt_get, modSlot_eq]
  dsimp only
  split
  · next h => rw [h, Bool.or_true]
  · next h =>
    rw [Bool.eq_false_iff.mpr h, Bool.or_false]
    show s = { s with tray := { s.tray with slot := s.tray.slot.set k s.tray.slot[k] } }
    rw [Fin.getElem_fin, Vector.set_getElem_self]

theorem gateRelease_reopens (h : s.tray.started = true) (k : Fin 8) : exec (.gateRelease .rack k) s = .next { s with
    out := s.out ++ [.response .ok]
    tray := { s.tray with slot := s.tray.slot.set k (reopened s k s.tray.slot[k]) } } := by
  have hgood : slotGood (s.modSlot k fun x => { x with forced := false, held := false, closings := [] }) k = slotGood s k :=
    modSlot_good (f := fun x => { x with forced := false, held := false, closings := [] }) fun _ => rfl
  refine congrArg Host.Outcome.next ((command_rack h _).trans ?_)
  rw [openGate_eq, modSlot_twice, hgood, modSlot_eq]
  simp only [Bool.not_false, Bool.and_true]
  rfl

theorem tell_acts (u : State) (k : Nat) (o : Relay) : PkgActs u (u.tell k o) := .ite (.emit ..) (.refl u)
theorem tell_mem (u : State) (k : Nat) (o : Relay) : (u.tell k o).mem = u.mem := by
  unfold State.tell
  split <;> rfl

/-- A new tray ID is told to every package with power (R587). -/
theorem setTrayId_writes (h : s.tray.started = true) (id : Fin 128) : ∃ t, exec (.setTrayId .rack id) s = .next t ∧
    t.tray.trayId = some id.val ∧ t.out.getLast? = some (.response .ok) ∧ t.mem = s.mem := by
  refine ⟨_, congrArg Host.Outcome.next (command_rack h _), ?_, answer_last .., ?_⟩
  · have htold := PkgActs.each (f := fun s k => if slotOn s k then (if isPkg s k then s.writeRank id k else s.tell k (.trayId id)) else s)
      (fun u k => .ite (.ite (writeRank_acts u _ k) (tell_acts u k _)) (.refl u)) slots (s.modTray fun t => { t with trayId := some id.val })
    exact congrArg Tray.trayId htold.tray
  · refine each_proj State.mem (fun s k => if slotOn s k then (if isPkg s k then s.writeRank id k else s.tell k (.trayId id)) else s)
      (fun u k => ?_) slots (s.modTray fun t => { t with trayId := some id.val })
    split
    · split
      · exact writeRank_mem ..
      · exact tell_mem ..
    · rfl

/-- A COLD cycle of a slot with a package of the tray's bin: its rails come again, and LAST_CAUSE holds the time (R612, R613). -/
theorem coldCycle_powers (h : s.tray.started = true) (k : Fin 8) (now : Nat) (hfits : slotFits s k = true) (hstrap : s.tray.strapBad = false) :
    ∃ t, exec (.coldCycle .rack k now) s = .next t ∧ slotOn t k = true ∧ t.out.getLast? = some (.response .ok) ∧
      (slotOn s k = true → ∃ c, (slotSt t k).lastCause = some c ∧ c.atMs = now) := by
  have hstrap' : (removePower s k now).tray.strapBad = false := (face_strapBad (removePower_face s k now)).trans hstrap
  have hcold : coldSlot s k now = powerSlot (removePower s k now) k := if_pos (by rw [removePower_fits k.isLt, hfits, hstrap']; rfl)
  refine ⟨(powerSlot (removePower s k now) k).answer .ok, ?_, powerSlot_on _ k.isLt, answer_last .., fun hon => ?_⟩
  · rw [← hcold]
    exact congrArg Host.Outcome.next (command_rack h _)
  · obtain ⟨c, hcause, hnow⟩ := removePower_cause k.isLt now hon
    exact ⟨c, ((powerSlot_acts (removePower s k now) k).slotGet k (·.lastCause) fun _ => rfl).trans hcause, hnow⟩

/-! ### Resets and training (R609, R611, R434) -/

/-- A slot as its reset begins: the bus starts as I3C. -/
def resetBegun (s : State) (k : Nat) : State := s.modSlot k fun x => { x with smbus := false, faultN := true }

theorem resetSlot_on {k : Nat} (hon : slotOn s k = true) : resetSlot s k =
    if isPkg s k then releaseN (pkgReset (resetBegun s k) false 10000000) else (resetBegun s k).emit (.relay k .reset) :=
  if_neg (by simp [hon])

theorem slotOn_live {k : Nat} (hpkg : isPkg s k = true) (hlive : pinsLive s = true) : slotOn s k = true := by
  simp only [pinsLive, Bool.and_eq_true] at hlive
  rw [slotOn, if_pos hpkg, hlive.1.1]

/-- A reset of the modelled package: the wake begins anew (R507, R650). -/
theorem resetSlot_package {k : Nat} (hpkg : isPkg s k = true) (hlive : pinsLive s = true) (hresetN : s.rst.resetN = true)
    (hperst : s.rst.perst = true) :
    resetSlot s k = beginWake (released (pkgResetNow (resetBegun s k) false)) .pkg 1 := by
  have hlong : pkgReset (resetBegun s k) false 10000000 = pkgResetNow (resetBegun s k) false :=
    pkgReset_long (s := resetBegun s k) (perst := false) hlive hresetN (by decide)
  have hheld : (pkgResetNow (resetBegun s k) false).rst.perst = true := by
    show (s.rst.perst && !false) = true
    rw [hperst]
    rfl
  have hlow : ((pkgResetNow (resetBegun s k) false).rst.resetN && (pkgResetNow (resetBegun s k) false).rst.perst) = false := by
    show ((s.rst.resetN && false) && _) = false
    rw [Bool.and_false, Bool.false_and]
  rw [resetSlot_on (slotOn_live hpkg hlive), if_pos hpkg, hlong, releaseN, if_pos hheld]
  exact releaseReset_begins (s := pkgResetNow (resetBegun s k) false) hlive hlow

theorem beginWake_mem (u : State) (kind : WakeKind) : (beginWake u kind 1).mem = u.mem := by
  rw [beginWake, hubStep_railless rfl]
  rfl

theorem resetPkg_package (h : s.tray.started = true) (k : Fin 8) (hpkg : isPkg s k = true) (hlive : pinsLive s = true)
    (hresetN : s.rst.resetN = true) (hperst : s.rst.perst = true) : ∃ t, exec (.resetPkg .rack k) s = .next t ∧
      t.rst.wake = some .pkg ∧ t.rst.step = 1 ∧ t.mem.cells = [] ∧ t.out.getLast? = some (.response .ok) := by
  have hreset := resetSlot_package hpkg hlive hresetN hperst
  obtain ⟨hwake, hstep, -⟩ := beginWake_first (released (pkgResetNow (resetBegun s k) false)) .pkg
  refine ⟨_, congrArg Host.Outcome.next (command_started h _), ?_, ?_, ?_, answer_last ..⟩
  · exact (congrArg (fun u : State => u.rst.wake) hreset).trans hwake
  · exact (congrArg (fun u : State => u.rst.step) hreset).trans hstep
  · refine (congrArg (fun u : State => u.mem.cells) hreset).trans ?_
    rw [beginWake_mem]
    rfl

theorem emit_twice (u : State) (o p : Output) : (u.emit o).emit p = { u with out := u.out ++ [o, p] } := by
  show ({ u with out := u.out ++ [o] ++ [p] } : State) = _
  rw [List.append_assoc]
  rfl

theorem resetSlot_other {k : Nat} (hpkg : isPkg s k = false) (hon : slotOn s k = true) :
    resetSlot s k = (resetBegun s k).emit (.relay k .reset) := by
  rw [resetSlot_on hon, if_neg (ne_true_of_eq_false hpkg)]

theorem tell_other (k : Nat) (o : Relay) (hpkg : isPkg s k = false) (hon : slotOn s k = true) : s.tell k o = s.emit (.relay k o) :=
  if_pos (by rw [hpkg, hon]; rfl)

theorem resetPkg_other (h : s.tray.started = true) (k : Fin 8) (hpkg : isPkg s k = false) (hon : slotOn s k = true) :
    exec (.resetPkg .rack k) s = .next { s with
      tray := { s.tray with slot := s.tray.slot.set k { s.tray.slot[k] with smbus := false, faultN := true } },
      out := s.out ++ [.relay k .reset, .response .ok] } := by
  refine congrArg Host.Outcome.next ((command_started h _).trans ?_)
  rw [resetSlot_other hpkg hon, State.answer, emit_twice, resetBegun, modSlot_eq]

theorem retrain_other (h : s.tray.started = true) (k : Fin 8) (hpkg : isPkg s k = false) (hon : slotOn s k = true) :
    exec (.retrain .rack k) s = .next { s with out := s.out ++ [.relay k .retrain, .response .ok] } := by
  refine congrArg Host.Outcome.next ((command_rack h _).trans ?_)
  rw [retrainSlotLinks, if_neg (ne_true_of_eq_false hpkg), tell_other k _ hpkg hon, State.answer, emit_twice]

/-- Live links leave the ring before they train again (R434, R436). -/
theorem retrain_package (h : s.tray.started = true) (k : Fin 8) (hpkg : isPkg s k = true) (hdone : s.rst.done = true)
    (hlive : (List.range 8).any (fun l => linkLive (linkSt s l).state) = true) : ∃ t, exec (.retrain .rack k) s = .next t ∧
      t.rhl.restart = true ∧ t.rhl.state = .leaving ∧ t.out.getLast? = some (.response .ok) ∧ t.mem = s.mem := by
  have hretrain : retrainSlotLinks s k = s.restartTraining := by rw [retrainSlotLinks, if_pos hpkg, if_pos hdone]
  refine ⟨s.restartTraining.answer .ok, ?_, ?_, ?_, answer_last .., restartTraining_mem s⟩
  · rw [← hretrain]
    exact congrArg Host.Outcome.next (command_rack h _)
  all_goals
    rw [restartTraining_live hlive]
    rfl
end
end Sys2Proof.Proofs


namespace Sys2Proof.Proofs

open Sys2Proof Sys2Proof.Machine Sys2Proof.Laws

/-! ## Recovery, the bus, boot selection and OFF (R594, R611, R612, R617, R629) -/

section
variable {s : State}

/-- A slot as its PKG_FAULT_N is seen asserted. -/
def faultSeen (s : State) (k : Nat) : State := s.modSlot k fun x => { x with faultN := false }

theorem faultSeen_eq (s : State) (k : Fin 8) :
    faultSeen s k = { s with tray := { s.tray with slot := s.tray.slot.set k { s.tray.slot[k] with faultN := false } } } := modSlot_eq ..

theorem faultSeen_record (s : State) (k : Fin 8) : slotSt (faultSeen s k) k = { s.tray.slot[k] with faultN := false } := by
  rw [faultSeen, slotSt_modSlot_same k.isLt, slotSt_get]

theorem faultSeen_on (s : State) (k : Nat) : slotOn (faultSeen s k) k = slotOn s k :=
  modSlot_on (f := fun x => { x with faultN := false }) fun _ => rfl

/-- PKG_FAULT_N of a slot with power acts where no WAKE_LOCKOUT stands. -/
theorem pkgFaultRecovery_acts (h : s.tray.started = true) (k : Fin 8) (now : Nat) (lockout : Bool) (hon : slotOn s k = true)
    (hfault : (isPkg s k && s.rst.faultN) = false) : exec (.pkgFaultRecovery k lockout now) s =
      .next (if (if isPkg s k then s.rst.lockout else lockout) then faultSeen s k else recover (faultSeen s k) k now) := by
  refine congrArg Host.Outcome.next ((larkspur_started h _).trans (if_neg ?_))
  rw [hon, hfault]
  exact Bool.false_ne_true

/-- A slot as its recovery is counted (R611). -/
def counted (s : State) (k : Nat) (times : List Nat) : State := (faultSeen s k).modSlot k fun x => { x with resets := times }

theorem counted_on (s : State) (k : Nat) (times : List Nat) : slotOn (counted s k times) k = slotOn s k :=
  (modSlot_on (f := fun x => { x with resets := times }) fun _ => rfl).trans (faultSeen_on s k)

/-- A slot that recovers by itself at most three times an hour (R611). -/
theorem recover_resets (k : Fin 8) (now : Nat) (hauto : s.tray.slot[k].recoverAuto = true)
    (hfew : (recent s.tray.slot[k].resets now 3600000).length ≤ 3) : recover (faultSeen s k) k now =
      resetSlot (counted s k (recent s.tray.slot[k].resets now 3600000)) k := by
  unfold recover
  dsimp only
  rw [faultSeen_record]
  exact if_pos (by rw [hauto, decide_eq_true hfew]; rfl)

theorem recover_holds (k : Fin 8) (now : Nat)
    (h : s.tray.slot[k].recoverAuto = false ∨ 3 < (recent s.tray.slot[k].resets now 3600000).length) :
    recover (faultSeen s k) k now = (holdSlot (faultSeen s k) k).emit (.report (some k) .slotFault) := by
  unfold recover
  dsimp only
  rw [faultSeen_record]
  refine if_neg ?_
  rw [Bool.and_eq_true, decide_eq_true_eq]
  rintro ⟨hauto, hfew⟩
  obtain hmanual | hmany := h
  · exact Bool.false_ne_true (hmanual.symm.trans hauto)
  · exact absurd hfew (by simpa using hmany)

theorem recover_other (h : s.tray.started = true) (k : Fin 8) (now : Nat) (hpkg : isPkg s k = false) (hon : slotOn s k = true) :
    (s.tray.slot[k].recoverAuto = true → (recent s.tray.slot[k].resets now 3600000).length ≤ 3 → exec (.pkgFaultRecovery k false now) s =
      .next { s with
        tray := { s.tray with
          slot := s.tray.slot.set k
            { s.tray.slot[k] with smbus := false, faultN := true, resets := recent s.tray.slot[k].resets now 3600000 } },
        out := s.out ++ [.relay k .reset] }) ∧
    (s.tray.slot[k].recoverAuto = false ∨ 3 < (recent s.tray.slot[k].resets now 3600000).length →
      exec (.pkgFaultRecovery k false now) s = .next { s with
        tray := { s.tray with slot := s.tray.slot.set k { s.tray.slot[k] with faultN := false } },
        out := s.out ++ [.relay k .hold, .report (some k) .slotFault] }) ∧
    exec (.pkgFaultRecovery k true now) s =
      .next { s with tray := { s.tray with slot := s.tray.slot.set k { s.tray.slot[k] with faultN := false } } } := by
  have hfault : (isPkg s k && s.rst.faultN) = false := by rw [hpkg, Bool.false_and]
  have hacts (lockout : Bool) := pkgFaultRecovery_acts h k now lockout hon hfault
  simp only [hpkg, Bool.false_eq_true, if_false] at hacts
  refine ⟨fun hauto hfew => ?_, fun hhold => ?_, ?_⟩
  · have hreset := resetSlot_other (s := counted s k (recent s.tray.slot[k].resets now 3600000)) (k := k) hpkg ((counted_on ..).trans hon)
    rw [hacts false, if_neg Bool.false_ne_true, recover_resets k now hauto hfew, hreset, resetBegun, counted, faultSeen, modSlot_twice,
      modSlot_twice, modSlot_eq]
    rfl
  · have hheld : holdSlot (faultSeen s k) k = (faultSeen s k).emit (.relay k .hold) :=
      (if_neg (ne_true_of_eq_false hpkg)).trans (tell_other (s := faultSeen s k) k .hold hpkg ((faultSeen_on s k).trans hon))
    rw [hacts false, if_neg Bool.false_ne_true, recover_holds k now hhold, hheld, emit_twice, faultSeen_eq]
  · rw [hacts true, if_pos rfl, faultSeen_eq]

/-- The modelled package is left in reset where it may not recover by itself (R611). -/
theorem recover_package (h : s.tray.started = true) (k : Fin 8) (now : Nat) (hpkg : isPkg s k = true) (hfault : s.rst.faultN = false)
    (hlive : pinsLive s = true) (hresetN : s.rst.resetN = true)
    (hhold : s.tray.slot[k].recoverAuto = false ∨ 3 < (recent s.tray.slot[k].resets now 3600000).length) :
    ∃ t, exec (.pkgFaultRecovery k false now) s = .next t ∧ t.rst.resetN = false ∧ t.rst.done = false ∧
      .report (some k.val) .slotFault ∈ t.out := by
  have hunlocked : s.rst.lockout = false := by
    simp only [pinsLive, Bool.and_eq_true, Bool.not_eq_true'] at hlive
    exact hlive.1.2
  have hacts := pkgFaultRecovery_acts h k now false (slotOn_live hpkg hlive) (by rw [hfault, Bool.and_false])
  have hheld : holdSlot (faultSeen s k) k = pkgResetNow (faultSeen s k) false :=
    (if_pos hpkg).trans (pkgReset_long (s := faultSeen s k) (perst := false) hlive hresetN (by decide))
  rw [if_pos hpkg, hunlocked, if_neg Bool.false_ne_true, recover_holds k now hhold, hheld] at hacts
  exact ⟨_, hacts, Bool.and_false _, rfl, List.mem_append_right _ List.mem_cons_self⟩

theorem i3cTimeout_smbus (h : s.tray.started = true) (k : Fin 8) (hon : slotOn s k = true) : exec (.i3cDynamicAddressTimeout k) s =
    .next { s with tray := { s.tray with slot := s.tray.slot.set k { s.tray.slot[k] with smbus := true } } } := by
  refine congrArg Host.Outcome.next ((larkspur_started h _).trans ((if_pos hon).trans ?_))
  rw [modSlot_eq]

/-- The banks of a slot, and of the flash and the loader of the modelled package (R617). -/
theorem selectBanks_slot (s : State) (k : Fin 8) (hub sld : Bool) :
    slotSt (selectBanks s k hub sld) k = { slotSt s k with hubBank := hub, sldBank := sld } ∧ (selectBanks s k hub sld).mem = s.mem := by
  have hrecord := slotSt_modSlot_same (s := s) k.isLt fun x => { x with hubBank := hub, sldBank := sld }
  unfold selectBanks
  dsimp only
  split
  · split <;> exact ⟨hrecord, rfl⟩
  · refine ⟨?_, tell_mem ..⟩
    rw [slotSt, (tell_acts _ _ _).tray]
    exact hrecord

theorem selectBanks_package {k : Nat} (hpkg : isPkg s k = true) (hub sld : Bool) :
    (selectBanks s k hub sld).flash = { s.flash with hubBank := hub } ∧
    (s.rst.aon = true → (selectBanks s k hub sld).sld.bank = sld) := by
  have hpkg' : isPkg (s.modSlot k fun x => { x with hubBank := hub, sldBank := sld }) k = true := hpkg
  unfold selectBanks
  dsimp only
  rw [if_pos hpkg']
  refine ⟨?_, fun haon => ?_⟩
  · split <;> rfl
  · have haon' : ((s.modSlot k fun x => { x with hubBank := hub, sldBank := sld }).modFlash fun f => { f with hubBank := hub }).rst.aon = true := haon
    rw [if_pos haon']
    rfl

theorem flashReach_aon {k : Nat} (hpkg : isPkg s k = true) (hreach : flashReach s k = true) : s.rst.aon = true := by
  rw [flashReach, if_pos hpkg, Bool.or_eq_true] at hreach
  obtain hruns | hreset := hreach
  · simp only [hubRuns, Bool.and_eq_true] at hruns
    exact hruns.1.1
  · exact (Bool.and_eq_true_iff.mp hreset).1

theorem setBoot_selects (h : s.tray.started = true) (k : Fin 8) (hub sld : Bool) (hreach : flashReach s k = true) :
    ∃ t, exec (.setBoot .rack k hub sld) s = .next t ∧ t.out.getLast? = some (.response .ok) ∧
      t.tray.slot[k] = { s.tray.slot[k] with hubBank := hub, sldBank := sld } ∧
      (isPkg s k = true → t.flash = { s.flash with hubBank := hub } ∧ t.sld.bank = sld) ∧ t.mem = s.mem := by
  obtain ⟨hrecord, hmem⟩ := selectBanks_slot s k hub sld
  refine ⟨_, congrArg Host.Outcome.next ((command_rack h _).trans (if_pos hreach)), answer_last .., ?_, fun hpkg => ?_, hmem⟩
  · rw [slotSt_get, slotSt_get] at hrecord
    exact hrecord
  · obtain ⟨hflash, hbank⟩ := selectBanks_package hpkg hub sld
    exact ⟨hflash, hbank (flashReach_aon hpkg hreach)⟩

theorem setBoot_unreached (h : s.tray.started = true) (k : Fin 8) (hub sld : Bool) (hreach : flashReach s k = false) :
    exec (.setBoot .rack k hub sld) s = .next { s with out := s.out ++ [.responseOpen ((freeVal s).setWidth 16)], free := s.free + 1 } :=
  congrArg Host.Outcome.next ((command_rack h _).trans (if_neg (ne_true_of_eq_false hreach)))

/-- Power removed where the rack or the host orders OFF stays off, and LAST_CAUSE holds the time (R593, R594, R613). -/
theorem removed_slotDown (k : Fin 8) (now : Nat) (hon : slotOn s k = true)
    (hoff : (slotOrders s k).rack = .off ∨ (slotOrders s k).host = .off) : slotDown k now (trayChange (removePower s k now) id) := by
  have hpowers := trayChange_powers (removePower s k now) id
  have horders : ordersOff (standing (removePower s k now) k) := by
    rw [standing, removePower_orders k.isLt now hon]
    exact hoff.imp (fun hrack => ⟨hrack, rfl⟩) id
  obtain ⟨c, hcause, hnow⟩ := removePower_cause k.isLt now hon
  refine ⟨(hpowers.barred k (.inr (.inr horders))).trans (removePower_off k.isLt now), c, ?_, hnow⟩
  rw [← slotSt_get]
  exact (hpowers.acts.slotGet k (·.lastCause) fun _ => rfl).trans hcause

theorem offReady_down (h : s.tray.started = true) (k : Fin 8) (now : Nat) (hon : slotOn s k = true) (hstands : offStands s k = true)
    (hoff : (slotOrders s k).rack = .off ∨ (slotOrders s k).host = .off) (hready : isPkg s k = false ∨ s.pwr.offReady = true) :
    ∃ t, exec (.offReady k now) s = .next t ∧ slotDown k now t := by
  have hgoes : (slotOn s k && offStands s k && (!isPkg s k || s.pwr.offReady)) = true := by
    obtain hother | hpackage := hready <;> simp [*]
  exact ⟨_, congrArg Host.Outcome.next ((larkspur_started h _).trans (if_pos hgoes)), removed_slotDown k now hon hoff⟩

theorem offReadyTimeout_down (h : s.tray.started = true) (k : Fin 8) (now : Nat) (hon : slotOn s k = true) (hstands : offStands s k = true)
    (hoff : (slotOrders s k).rack = .off ∨ (slotOrders s k).host = .off) :
    ∃ t, exec (.offReadyTimeout k now) s = .next t ∧ slotDown k now t :=
  ⟨_, congrArg Host.Outcome.next ((larkspur_started h _).trans (if_pos (by rw [hon, hstands]; rfl))), removed_slotDown k now hon hoff⟩
end

/-- Settles O58: what Larkspur keeps of a slot through the powering of others is `TrayActs`, and `barred` says which slots a change of its orders
powers in no case. What a COLD reset restores and what the bus, the recovery and the SPI mux do between the states the manual names are the
model's choices (logs 59, 61, 62, 64, 70). -/
theorem slotsAndGates : Obligations.SlotsAndGates := by
  unfold Obligations.SlotsAndGates
  rintro k x now s rfl
  refine ⟨fun strap => ?_, fun hpresent => ?_, fun id haon hnext hnew => ?_, fun hgood hpkg => ⟨pkgGoodFall_closed k now hgood hpkg,
    pkgGoodFall_open k now hgood hpkg⟩, fun h => ?_⟩
  · obtain ⟨hstart, hbad, hliquid⟩ := startLarkspur_tray s strap
    refine ⟨startLarkspur s strap, rfl, hstart, hbad, hliquid, fun hfits hgood hpresent hforced hheld => ?_, fun hstrap hpresent hfits => ?_,
      startLarkspur_badStrap k⟩
    · rw [← slotSt_get]
      rw [← slotSt_get] at hpresent hforced hheld
      exact startLarkspur_opens k hfits hgood hpresent hforced hheld
    · rw [← slotSt_get]
      rw [← slotSt_get] at hpresent
      exact startLarkspur_misfit k hstrap hpresent hfits
  · rw [← slotSt_get] at hpresent
    obtain ⟨t, hstep, hleft⟩ := slotPresentRise_leaves k hpresent
    rw [slotSt_get] at hleft
    exact ⟨t, hstep, hleft⟩
  · exact ⟨_, rfl, (writeRank_acts s id k).tray, writeRank_mem s id k, writeRank_new haon hnext hnew⟩
  refine ⟨fun b hoff hempty hstrap hbin => ?_, pkgGoodRise_opens k h, gateForce_closes h k, gateRelease_reopens h k, setRecover_sets h k,
    fun p id b1 b2 w => host_refused h k p id b1 b2 w now, setTrayId_writes h, fun hfits hstrap => ?_, resetPkg_package h k,
    fun hpkg hon => ⟨resetPkg_other h k hpkg hon, retrain_other h k hpkg hon, recover_other h k now hpkg hon⟩,
    recover_package h k now, retrain_package h k, i3cTimeout_smbus h k, setBoot_selects h k, setBoot_unreached h k,
    fun hon hstands hoff => ⟨offReady_down h k now hon hstands hoff, offReadyTimeout_down h k now hon hstands hoff⟩⟩
  · rw [← slotSt_get] at hempty
    obtain ⟨t, hstep, harrives⟩ := binIdRead_arrives k b h hoff hempty hstrap hbin
    rw [slotSt_get] at harrives
    exact ⟨t, hstep, harrives⟩
  · obtain ⟨t, hstep, hon, hanswer, hcause⟩ := coldCycle_powers h k now hfits hstrap
    rw [slotSt_get] at hcause
    exact ⟨t, hstep, hon, hanswer, hcause⟩
end Sys2Proof.Proofs


namespace Sys2Proof.Proofs

open Sys2Proof Sys2Proof.Machine Sys2Proof.Laws

/-! ## State orders over Larkspur (R591 to R593, R615) -/

section
variable {s : State} {k : Nat}

theorem signal_acts (u : State) (fn vec : Nat) : PkgActs u (u.signal fn vec) := by
  unfold State.signal
  split
  · exact .of_quiet rfl rfl
  · exact .ite (.emit ..) (.refl u)

theorem signalPower_acts (u : State) : PkgActs u u.signalPower :=
  (signal_acts u 0 8).trans (.each (fun _ n => .ite (signal_acts _ (n + 1) 1) (.refl _)) _ _)

theorem rackOrdered_acts (u : State) : PkgActs u (rackOrdered u) := .of_quiet rfl rfl

theorem offAnnounced_acts (u : State) : PkgActs u (offAnnounced u) :=
  ((rackOrdered_acts u).trans (powerEvent_acts (rackOrdered u) evRackOff)).trans (signalPower_acts ((rackOrdered u).powerEvent evRackOff))

/-- A rack state order reaches the package: the state it names is the rack's, answered OK (R485, R487). -/
theorem rackState_ordered (s : State) (v : PState) (grace : Option Nat) (force : Bool) :
    PkgActs s (rackState s v grace force).1 ∧ (rackState s v grace force).1.pwr.orders.rack = v ∧ (rackState s v grace force).2 = .ok := by
  by_cases hoff : v = .off ∧ force = false
  · obtain ⟨rfl, rfl⟩ := hoff
    rw [rackState_off]
    exact ⟨(offAnnounced_acts s).trans (order_acts (offAnnounced s) fun o => o.rackOff (grace.getD 10)), by rw [order_orders]; rfl, rfl⟩
  · have hplain : v ≠ .off ∨ force = true := by
      by_cases hv : v = .off
      · exact .inr (Bool.eq_true_of_not_eq_false fun hforce => hoff ⟨hv, hforce⟩)
      · exact .inl hv
    rw [rackState_plain hplain]
    exact ⟨(rackOrdered_acts s).trans (order_acts (rackOrdered s) fun o => o.rackPlain v), by rw [order_orders]; rfl, rfl⟩

theorem stateOrder_rack (on : Bool) (v : PState) (grace : Option Nat) (force : Bool) (o : Orders) :
    (stateOrder on true v grace force o).1.rack = v ∧ (stateOrder on true v grace force o).2 = .ok := by
  rw [stateOrder, if_pos rfl]
  split
  · next h =>
    simp only [Bool.and_eq_true, beq_iff_eq] at h
    exact ⟨h.1.2.symm, rfl⟩
  · exact ⟨rfl, rfl⟩

/-- A rack state order for a slot stands in its orders, and is answered OK (R593). -/
theorem slotState_rack (hk : k < 8) (v : PState) (grace : Option Nat) (force : Bool) :
    (slotOrders (slotState s k true v grace force) k).rack = v ∧ .response .ok ∈ (slotState s k true v grace force).out := by
  unfold slotState
  dsimp only
  split
  · next hpkg =>
    obtain ⟨hacts, hrack, hcode⟩ := rackState_ordered s v grace force
    have hpkg' : (isPkg (rackState s v grace force).1 k && (rackState s v grace force).1.rst.aon) = true := by
      rw [(TrayActs.of_pkg hacts).isPkg, hacts.aon, hpkg]
    rw [if_pos rfl, hcode]
    refine ⟨?_, List.mem_append_right _ List.mem_cons_self⟩
    rw [slotOrders]
    exact (congrArg Orders.rack (if_pos hpkg')).trans hrack
  · next hpkg =>
    obtain ⟨hrack, hcode⟩ := stateOrder_rack (slotOn s k) v grace force (slotSt s k).orders
    have hacts := tell_acts (s.modSlot k fun x => { x with orders := (stateOrder (slotOn s k) true v grace force (slotSt s k).orders).1 }) k
      (.state true v grace force)
    rw [hcode]
    refine ⟨?_, List.mem_append_right _ List.mem_cons_self⟩
    have hrecord := slotSt_modSlot_same (s := s) hk fun x =>
      { x with orders := (stateOrder (slotOn s k) true v grace force (slotSt s k).orders).1 }
    have hpkg' := (congrArg₂ and ((TrayActs.of_pkg hacts).isPkg k) hacts.aon).trans (Bool.eq_false_iff.mpr hpkg)
    rw [slotOrders]
    refine (congrArg Orders.rack (if_neg (ne_true_of_eq_false hpkg'))).trans ?_
    show (slotSt (State.tell _ k _) k).orders.rack = v
    rw [slotSt, hacts.tray, ← slotSt, hrecord]
    exact hrack

theorem standing_rack (u : State) (k : Nat) : (standing u k).rack = (slotOrders u k).rack := rfl

theorem redfishState_powers (s : State) (k : Nat) (v : PState) (grace : Option Nat) (force : Bool) :
    Powers (slotState s k true v grace force) (redfishState s k v grace force) := trayChange_powers s fun s => slotState s k true v grace force

theorem redfishState_orders (k : Fin 8) (v : PState) (grace : Option Nat) (force : Bool) :
    (slotOrders (redfishState s k v grace force) k).rack = v ∧ .response .ok ∈ (redfishState s k v grace force).out := by
  have hpowers := redfishState_powers s k v grace force
  obtain ⟨hrack, hanswer⟩ := slotState_rack (s := s) k.isLt v grace force
  refine ⟨?_, hpowers.acts.out.subset hanswer⟩
  rw [← standing_rack, hpowers.orders, standing_rack]
  exact hrack

theorem processorReset_graceful {g : Option Nat} (h : (g.any fun n => decide (60 < n)) = false) (k now : Nat) :
    processorReset s k (.gracefulShutdown g) now = redfishState s k .off (some (g.getD 10)) false := if_neg (ne_true_of_eq_false h)

/-- The states that Redfish names for a Processor Reset (Table 17-5). -/
theorem processorReset_state (k : Fin 8) (now : Nat) (e : RedfishReset × PState)
    (he : e ∈ [(RedfishReset.on, PState.run), (.resume, .run), (.suspend, .park), (.forceOff, .off), (.gracefulShutdown none, .off),
      (.gracefulShutdown (some 0), .off), (.gracefulShutdown (some 60), .off)]) :
    (slotOrders (processorReset s k e.1 now) k).rack = e.2 ∧ .response .ok ∈ (processorReset s k e.1 now).out := by
  simp only [List.mem_cons, List.not_mem_nil, or_false] at he
  rcases he with rfl | rfl | rfl | rfl | rfl | rfl | rfl
  · exact redfishState_orders k .run none false
  · exact redfishState_orders k .run none false
  · exact redfishState_orders k .park none false
  · exact redfishState_orders k .off none true
  · rw [processorReset_graceful rfl]
    exact redfishState_orders k .off _ false
  · rw [processorReset_graceful rfl]
    exact redfishState_orders k .off _ false
  · rw [processorReset_graceful rfl]
    exact redfishState_orders k .off _ false

/-! ## Banks and firmware sets (R616 to R621) -/

/-- A slot's record without its banks. -/
def bankless (x : Slot) : Slot := { x with hubBank := false, sldBank := false }

/-- A change of banks: the sets of firmware, and what a slot's record holds but for its banks, stay. -/
structure BankActs (s t : State) : Prop where
  slot : ∀ j, bankless (slotSt t j) = bankless (slotSt s j)
  on : ∀ j, slotOn t j = slotOn s j
  staged : t.tray.staged = s.tray.staged
  active : t.tray.active = s.tray.active
  started : t.tray.started = s.tray.started

theorem BankActs.refl (s : State) : BankActs s s := ⟨fun _ => rfl, fun _ => rfl, rfl, rfl, rfl⟩
theorem BankActs.trans {s t u : State} (h : BankActs s t) (k : BankActs t u) : BankActs s u :=
  ⟨fun j => (k.slot j).trans (h.slot j), fun j => (k.on j).trans (h.on j), k.staged.trans h.staged, k.active.trans h.active,
    k.started.trans h.started⟩
theorem BankActs.each {α : Type} {f : State → α → State} (h : ∀ s x, BankActs s (f s x)) (xs : List α) (s : State) : BankActs s (s.each xs f) :=
  List.foldlRecOn (motive := BankActs s) xs f (.refl s) fun _ hu x _ => hu.trans (h _ x)

/-- A slot with its banks written in Larkspur's record. -/
def banksNoted (s : State) (k : Nat) (hub sld : Bool) : State := s.modSlot k fun x => { x with hubBank := hub, sldBank := sld }

theorem selectBanks_seat (s : State) (k : Nat) (hub sld : Bool) : (selectBanks s k hub sld).tray = (banksNoted s k hub sld).tray ∧
    (selectBanks s k hub sld).rst.aon = s.rst.aon := by
  unfold selectBanks
  dsimp only
  split
  · split <;> exact ⟨rfl, rfl⟩
  · exact ⟨(tell_acts _ _ _).tray, (tell_acts _ _ _).aon⟩

theorem selectBanks_acts (s : State) (k : Nat) (hub sld : Bool) : BankActs s (selectBanks s k hub sld) := by
  obtain ⟨htray, haon⟩ := selectBanks_seat s k hub sld
  have hslot (j : Nat) : bankless (slotSt (selectBanks s k hub sld) j) = bankless (slotSt s j) := by
    rw [slotSt, htray, ← slotSt, banksNoted, slotSt_modSlot]
    split <;> rfl
  refine ⟨hslot, fun j => ?_, (congrArg Tray.staged htray :), (congrArg Tray.active htray :), (congrArg Tray.started htray :)⟩
  have hpowered : (slotSt (selectBanks s k hub sld) j).powered = (slotSt s j).powered := (congrArg Slot.powered (hslot j) :)
  have hpkg : isPkg (selectBanks s k hub sld) j = isPkg s j := (congrArg (fun y : Tray => (y.pkgSlot.map (·.val)) == some j) htray :)
  rw [slotOn, slotOn, hpkg, haon, hpowered]

theorem selectBank_acts (s : State) (c : Component) (b : Bool) : BankActs s (selectBank s c b) := by
  cases c with
  | larkspur => exact ⟨fun _ => rfl, fun _ => rfl, rfl, rfl, rfl⟩
  | hub k => exact selectBanks_acts s k b _
  | bitstream k => exact selectBanks_acts s k _ b

/-- The bank that was selected is selected. -/
theorem selectedBank_selectBank (s : State) (c : Component) (b : Bool) : selectedBank (selectBank s c b) c = b := by
  cases c with
  | larkspur => rfl
  | hub k =>
    have hrecord := (selectBanks_slot s k b (slotSt s k).sldBank).1
    show hubBankOf (selectBanks s k b (slotSt s k).sldBank) k = b
    have hpkg : isPkg (selectBanks s k b (slotSt s k).sldBank) k = isPkg s k :=
      (congrArg (fun y : Tray => (y.pkgSlot.map (·.val)) == some k.val) (selectBanks_seat s k b (slotSt s k).sldBank).1 :)
    rw [hubBankOf, hpkg]
    split
    · next h => rw [(selectBanks_package h b _).1]
    · rw [hrecord]
  | bitstream k =>
    show (slotSt (selectBanks s k _ b) k).sldBank = b
    rw [(selectBanks_slot s k _ b).1]

/-- The banks of a set, each selected. -/
def banksSelected (s : State) (set : List (Component × Bool)) : State := s.each set fun s e => selectBank s e.1 e.2

theorem banksSelected_acts (s : State) (set : List (Component × Bool)) : BankActs s (banksSelected s set) :=
  .each (f := fun s (e : Component × Bool) => selectBank s e.1 e.2) (fun u e => selectBank_acts u e.1 e.2) set s

/-- A set is selected; nothing else changes but the sets under health check. -/
theorem activate_eq (s : State) (set : List (Component × Bool)) : ∃ sets, activate s set =
    (banksSelected s set).modTray fun t => { t with active := sets } := ⟨_, rfl⟩

theorem activate_single (s : State) (c : Component) (b : Bool) : selectedBank (activate s [(c, b)]) c = b := by
  obtain ⟨sets, hactivate⟩ := activate_eq s [(c, b)]
  rw [hactivate]
  refine Eq.trans ?_ (selectedBank_selectBank s c b)
  cases c <;> rfl

/-! ### A power cycle of the tray (R613, R619) -/

/-- The staged set is selected as Larkspur starts anew: the slots keep their rails and their LAST_CAUSE. -/
theorem cycleTray_restarts (s : State) : (cycleTray s).tray.started = false ∧ (cycleTray s).tray.staged = [] ∧
    (∀ j, slotOn (cycleTray s) j = slotOn s j) ∧ (∀ j, (slotSt (cycleTray s) j).lastCause = (slotSt s j).lastCause) ∧
    ∀ e, s.tray.staged = [e] → selectedBank (cycleTray s) e.1 = e.2 := by
  by_cases hset : s.tray.staged.isEmpty
  · have hcycle : cycleTray s = s.modTray fun t => { t with started := false } := by rw [cycleTray, activateStaged, if_pos hset]
    have hempty := List.isEmpty_iff.mp hset
    refine ⟨rfl, by rw [hcycle]; exact hempty, fun j => by rw [hcycle]; rfl, fun j => by rw [hcycle]; rfl, fun e he => ?_⟩
    rw [hempty] at he
    cases he
  · obtain ⟨sets, hactivate⟩ := activate_eq (s.modTray fun t => { t with staged := [] }) s.tray.staged
    have hacts := banksSelected_acts (s.modTray fun t => { t with staged := [] }) s.tray.staged
    have hcycle : cycleTray s = (activate (s.modTray fun t => { t with staged := [] }) s.tray.staged).modTray fun t =>
        { t with started := false } := by rw [cycleTray, activateStaged, if_neg hset]
    refine ⟨rfl, ?_, fun j => ?_, fun j => ?_, fun e he => ?_⟩
    · rw [hcycle, hactivate]
      exact hacts.staged
    · rw [hcycle, hactivate]
      exact hacts.on j
    · rw [hcycle, hactivate]
      exact (congrArg Slot.lastCause (hacts.slot j) :)
    · rw [hcycle, he]
      refine Eq.trans ?_ (activate_single (s.modTray fun t => { t with staged := [] }) e.1 e.2)
      rcases e with ⟨c, b⟩
      cases c <;> rfl

/-- The rails of every slot go. -/
def railsDropped (s : State) : State := s.each slots fun s k => if slotOn s k then railsOut s k else s

theorem railsDropped_off (s : State) (k : Fin 8) : slotOn (railsDropped s) k = false := by
  have hother (u : State) (j : Nat) (hj : j ≠ k) : scene (if slotOn u j then railsOut u j else u) k = scene u k := by
    split
    · exact railsOut_scene hj
    · rfl
  obtain ⟨l, r, heach, -, hr⟩ := slots_each_at (fun s k => if slotOn s k then railsOut s k else s) k s
  rw [railsDropped, heach, scene_on (each_other (g := fun s => scene s k) hother hr _)]
  exact railsOut_if_off k.isLt

theorem railsDropped_face (s : State) : face (railsDropped s) = face s := by
  refine each_proj face (fun s k => if slotOn s k then railsOut s k else s) (fun u k => ?_) slots s
  split
  · exact railsOut_face u k
  · rfl

theorem trayPowerCycle_cycles (k : Fin 8) : ∃ t, exec .trayPowerCycle s = .next t ∧ t.tray.started = false ∧ t.tray.staged = [] ∧
    slotOn t k = false ∧ ∀ e, s.tray.staged = [e] → selectedBank t e.1 = e.2 := by
  obtain ⟨hstarted, hstaged, hon, -, hbank⟩ := cycleTray_restarts (railsDropped s)
  have hsets : (railsDropped s).tray.staged = s.tray.staged := congrArg (fun a : Tray × Fuses => a.1.staged) (railsDropped_face s)
  rw [hsets] at hbank
  exact ⟨_, rfl, hstarted, hstaged, (hon k).trans (railsDropped_off s k), hbank⟩

/-- Every slot without power at a time, which LAST_CAUSE holds (R613). -/
def allRemoved (s : State) (now : Nat) : State := s.each slots fun s k => removePower s k now

theorem allRemoved_slot (s : State) (k : Fin 8) (now : Nat) : slotOn (allRemoved s now) k = false ∧
    (slotOn s k = true → ∃ c, (slotSt (allRemoved s now) k).lastCause = some c ∧ c.atMs = now) := by
  obtain ⟨l, r, heach, hl, hr⟩ := slots_each_at (fun s k => removePower s k now) k s
  have hbefore := each_other (g := fun s => scene s k) (fun u j hj => removePower_scene (s := u) hj now) hl s
  have hafter := each_other (g := fun s => scene s k) (fun u j hj => removePower_scene (s := u) hj now) hr
    (removePower (s.each l fun s k => removePower s k now) k now)
  rw [allRemoved, heach, scene_on hafter, scene_slot hafter]
  exact ⟨removePower_off k.isLt now, fun hon => removePower_cause k.isLt now ((scene_on hbefore).trans hon)⟩

theorem chassisReset_cycles (h : s.tray.started = true) (k : Fin 8) (now : Nat) : ∃ t, exec (.redfishChassisReset true now) s = .next t ∧
    t.tray.started = false ∧ t.tray.staged = [] ∧ slotOn t k = false ∧
    (slotOn s k = true → ∃ c, t.tray.slot[k].lastCause = some c ∧ c.atMs = now) := by
  obtain ⟨hstarted, hstaged, hon, hlast, -⟩ := cycleTray_restarts (allRemoved s now)
  obtain ⟨hoff, hcause⟩ := allRemoved_slot s k now
  refine ⟨_, congrArg Host.Outcome.next (larkspur_started h _), hstarted, hstaged, (hon k).trans hoff, fun hpowered => ?_⟩
  obtain ⟨c, hc, hnow⟩ := hcause hpowered
  refine ⟨c, ?_, hnow⟩
  rw [← slotSt_get]
  exact (hlast k).trans hc
end
end Sys2Proof.Proofs


namespace Sys2Proof.Proofs

open Sys2Proof Sys2Proof.Machine Sys2Proof.Laws

/-! ### Images, and sets that go back (R618 to R620, Table 17-6) -/

section
variable {s : State}

/-- The reset of a slot leaves the tray as `TrayActs` has it. -/
theorem resetSlot_trayActs (s : State) (k : Nat) : TrayActs s (resetSlot s k) := by
  have hbegun : TrayActs s (resetBegun s k) := .modSlot (f := fun x => { x with smbus := false, faultN := true }) (fun _ => rfl) s k
  by_cases hon : slotOn s k = true
  · rw [resetSlot_on hon]
    split
    · exact hbegun.trans (.of_pkg ((pkgReset_acts (resetBegun s k) false 10000000).trans (releaseN_acts _)))
    · exact hbegun.trans (.emit ..)
  · rw [resetSlot, if_pos (by simp [hon])]
    exact .refl s

/-- What the tray and the flash have selected, a change of the tray's power leaves selected. -/
theorem TrayActs.selectedBank {s t : State} (h : TrayActs s t) (c : Component) : selectedBank t c = Machine.selectedBank s c := by
  cases c with
  | larkspur => exact h.get (·.lkBank) fun _ => rfl
  | hub k =>
    have hrecord : (slotSt t k).hubBank = (slotSt s k).hubBank := h.slotGet k (·.hubBank) fun _ => rfl
    show hubBankOf t k = hubBankOf s k
    rw [hubBankOf, hubBankOf, h.isPkg, h.hubBank, hrecord]
  | bitstream k => exact h.slotGet k (·.sldBank) fun _ => rfl

/-- The start of a component keeps the sets and the selected banks. -/
theorem restartComp_keeps (s : State) (c : Component) : (restartComp s c).tray.active = s.tray.active ∧
    (restartComp s c).tray.staged = s.tray.staged ∧ ∀ d, selectedBank (restartComp s c) d = selectedBank s d := by
  cases hslot : compSlot c with
  | none =>
    have hrestart : restartComp s c = s.modTray fun t => { t with started := false } := by rw [restartComp, hslot]
    rw [hrestart]
    exact ⟨rfl, rfl, fun d => by cases d <;> rfl⟩
  | some k =>
    have hrestart : restartComp s c = resetSlot s k := by rw [restartComp, hslot]
    have hacts := resetSlot_trayActs s k
    rw [hrestart]
    exact ⟨hacts.get (·.active) fun _ => rfl, hacts.get (·.staged) fun _ => rfl, hacts.selectedBank⟩

/-- The start of a component whose health check failed; a bitstream takes effect at the next LOAD. -/
def rebooted (s : State) (c : Component) : State := match c with
  | .bitstream _ => s
  | c => restartComp s c

theorem rebooted_keeps (s : State) (c : Component) : (rebooted s c).tray.active = s.tray.active ∧
    ∀ d, selectedBank (rebooted s c) d = selectedBank s d := by
  cases c with
  | bitstream k => exact ⟨rfl, fun _ => rfl⟩
  | larkspur =>
    obtain ⟨hactive, -, hbank⟩ := restartComp_keeps s .larkspur
    exact ⟨hactive, hbank⟩
  | hub k =>
    obtain ⟨hactive, -, hbank⟩ := restartComp_keeps s (.hub k)
    exact ⟨hactive, hbank⟩

/-- A set as it goes back: it stands under no health check, and the banks before are selected. -/
def goneBack (s : State) (set : List (Component × Bool)) : State :=
  banksSelected (s.modTray fun t => { t with active := t.active.filter (· != set) }) set

theorem rollBack_set {c : Component} {set : List (Component × Bool)}
    (h : (s.tray.active.find? fun l => l.any fun e => e.1 == c) = some set) :
    rollBack s c = ((goneBack s set).each set fun s e => rebooted s e.1).emit (.rollback c) := by
  rw [rollBack, h]
  rfl

/-- A component that fails its health check takes its whole set back (R620). -/
theorem healthCheckFail_goesBack (c : Component) (set : List (Component × Bool))
    (h : (s.tray.active.find? fun l => l.any fun e => e.1 == c) = some set) : ∃ t, exec (.healthCheckFail c) s = .next t ∧
      t.tray.active = s.tray.active.filter (· != set) ∧ .rollback c ∈ t.out ∧ ∀ b, set = [(c, b)] → selectedBank t c = b := by
  refine ⟨_, congrArg Host.Outcome.next (rollBack_set h), ?_, List.mem_append_right _ List.mem_cons_self, fun b hset => ?_⟩
  · have hrebooted := each_proj (fun s : State => s.tray.active) (fun s (e : Component × Bool) => rebooted s e.1)
      (fun u e => (rebooted_keeps u e.1).1) set (goneBack s set)
    exact hrebooted.trans (banksSelected_acts _ set).active
  · subst hset
    have hbank := (rebooted_keeps (goneBack s [(c, b)]) c).2 c
    have hselected := selectedBank_selectBank (s.modTray fun t => { t with active := t.active.filter (· != [(c, b)]) }) c b
    refine Eq.trans ?_ (hbank.trans hselected)
    cases c <;> rfl

/-- The write of an image keeps the selections, the sets and memory. -/
theorem writeImage_keeps (s : State) (c : Component) (image : List Byte) : (writeImage s c image).tray.staged = s.tray.staged ∧
    (writeImage s c image).tray.started = s.tray.started ∧ (∀ d, selectedBank (writeImage s c image) d = selectedBank s d) ∧
    (writeImage s c image).mem = s.mem := by
  have htold (k : Nat) (o : Relay) : (s.tell k o).tray.staged = s.tray.staged ∧ (s.tell k o).tray.started = s.tray.started ∧
      (∀ d, selectedBank (s.tell k o) d = selectedBank s d) ∧ (s.tell k o).mem = s.mem := by
    have hacts := TrayActs.of_pkg (tell_acts s k o)
    exact ⟨hacts.get (·.staged) fun _ => rfl, hacts.started, hacts.selectedBank, tell_mem ..⟩
  cases c with
  | larkspur => exact ⟨rfl, rfl, fun d => by cases d <;> rfl, rfl⟩
  | hub k =>
    unfold writeImage
    dsimp only
    split
    · exact ⟨rfl, rfl, fun d => by cases d <;> rfl, rfl⟩
    · exact htold k _
  | bitstream k =>
    unfold writeImage
    dsimp only
    split
    · exact ⟨rfl, rfl, fun d => by cases d <;> rfl, rfl⟩
    · exact htold k _

theorem updateRequest_bad (h : s.tray.started = true) (c : Component) (image : List Byte) (sigOk staged whole : Bool)
    (hbad : imageGood c image sigOk = false) :
    exec (.firmwareUpdateRequest c image sigOk staged whole) s = .next { s with out := s.out ++ [.response .updateBad] } :=
  congrArg Host.Outcome.next ((larkspur_started h _).trans (if_pos (by rw [hbad]; rfl)))

/-- An image that is good and for a flash that Larkspur reaches is taken once it is whole. -/
theorem updateRequest_good (h : s.tray.started = true) (c : Component) (image : List Byte) (sigOk staged whole : Bool)
    (hgood : imageGood c image sigOk = true) (hreach : compReach s c = true) : exec (.firmwareUpdateRequest c image sigOk staged whole) s =
      .next (if whole then (update s c image staged).answer .ok else s) := by
  refine congrArg Host.Outcome.next ((larkspur_started h _).trans ?_)
  rw [hgood, hreach]
  rfl

theorem updateRequest_staged (h : s.tray.started = true) (c : Component) (image : List Byte) (sigOk : Bool)
    (hgood : imageGood c image sigOk = true) (hreach : compReach s c = true) :
    ∃ t, exec (.firmwareUpdateRequest c image sigOk true true) s = .next t ∧
      t.tray.staged = without c s.tray.staged ++ [(c, !runningBank s c)] ∧ selectedBank t c = selectedBank s c ∧ t.tray.started = true ∧
      t.out.getLast? = some (.response .ok) ∧ t.mem = s.mem := by
  obtain ⟨hstaged, hstarted, hbank, hmem⟩ := writeImage_keeps s c image
  refine ⟨_, updateRequest_good h c image sigOk true true hgood hreach, ?_, ?_, hstarted.trans h, answer_last .., hmem⟩
  · show without c (writeImage s c image).tray.staged ++ _ = _
    rw [hstaged]
  · refine Eq.trans ?_ (hbank c)
    cases c <;> rfl

theorem updateRequest_immediate (h : s.tray.started = true) (c : Component) (image : List Byte) (sigOk : Bool)
    (hgood : imageGood c image sigOk = true) (hreach : compReach s c = true) :
    ∃ t, exec (.firmwareUpdateRequest c image sigOk false true) s = .next t ∧ t.tray.staged = s.tray.staged ∧
      selectedBank t c = (!runningBank s c) ∧ t.out.getLast? = some (.response .ok) := by
  obtain ⟨hstaged, -, -, -⟩ := writeImage_keeps s c image
  obtain ⟨-, hrestarted, hbank⟩ := restartComp_keeps (activate (writeImage s c image) [(c, !runningBank s c)]) c
  obtain ⟨sets, hactivate⟩ := activate_eq (writeImage s c image) [(c, !runningBank s c)]
  refine ⟨_, updateRequest_good h c image sigOk false true hgood hreach, ?_, ?_, answer_last ..⟩
  · refine hrestarted.trans (Eq.trans ?_ hstaged)
    rw [hactivate]
    exact (banksSelected_acts _ _).staged
  · refine Eq.trans ?_ ((hbank c).trans (activate_single (writeImage s c image) c (!runningBank s c)))
    cases c <;> rfl

/-! ## SPDM (R614, Table 17-4) -/

theorem responder_runs {lk : Bool} (h : (if lk then s.tray.started else hubRuns s) = true) (f : State → State) : responder s lk f = f s := if_pos h

theorem spdmMeasurements_answers {lk : Bool} (h : (if lk then s.tray.started else hubRuns s) = true) (i : Nat) :
    exec (.spdmGetMeasurements lk i) s =
      .next { s with out := s.out ++ [(measurement s lk i).elim .spdmError (Output.spdmMeasurement i)] } := by
  refine congrArg Host.Outcome.next ((responder_runs h _).trans ?_)
  cases measurement s lk i <;> rfl
end

/-- Settles O60: a Redfish reset is a state order, whose state stands through the powering of slots (`redfishState_orders`); a set of firmware
selects its banks one after another (`BankActs`). The answers to values beyond the tables, the sensors' values and the layouts of the measurement
blocks are the model's choices (logs 68, 69, 71, 72). -/
theorem managementAnswers : Obligations.ManagementAnswers := by
  unfold Obligations.ManagementAnswers
  intro k now s
  refine ⟨fun lk hruns => ?_, trayPowerCycle_cycles k, healthCheckFail_goesBack, fun h => ?_⟩
  · have hanswer (f : State → State) : (Host.Outcome.next (responder s lk f) : Host.Outcome State Fault Refusal) = .next (f s) :=
      congrArg Host.Outcome.next (responder_runs hruns f)
    refine ⟨hanswer _, hanswer _, fun a b => hanswer _, hanswer _, fun off len => hanswer _, fun nonce => ?_, fun i b hblock => ?_,
      fun i hnone => ?_⟩
    · exact ⟨(List.range 12).map fun i => Config.freeWord (s.free + i), by rw [List.length_map, List.length_range], hanswer _⟩
    · rw [spdmMeasurements_answers hruns, hblock]
      rfl
    · rw [spdmMeasurements_answers hruns, hnone]
      rfl
  · have hruns (f : State → State) : (Host.Outcome.next (larkspur s f) : Host.Outcome State Fault Refusal) = .next (f s) :=
      congrArg Host.Outcome.next (larkspur_started h f)
    have hreject {g : Nat} (hlong : 60 < g) : processorReset s k (.gracefulShutdown (some g)) now = s.emit .http400 :=
      if_pos (decide_eq_true hlong)
    obtain ⟨hstandby, hok⟩ := redfishState_orders (s := s) k .standby none false
    refine ⟨fun x m => hruns _, ⟨_, hruns _, hstandby, hok⟩, fun e he => ⟨_, hruns _, processorReset_state k now e he⟩, hruns _,
      fun g hlong => (hruns _).trans (congrArg Host.Outcome.next (hreject hlong)), ?_, ?_, chassisReset_cycles h k now, hruns _,
      updateRequest_bad h, fun c image sigOk staged hgood hreach => ⟨updateRequest_good h c image sigOk staged false hgood hreach,
        updateRequest_staged h c image sigOk hgood hreach, updateRequest_immediate h c image sigOk hgood hreach⟩⟩
    · have hreset : exec (.resetPkg .rack k) s = .next ((resetSlot s k).answer .ok) := congrArg Host.Outcome.next (command_started h _)
      exact (hruns _).trans hreset.symm
    · have hcycle : exec (.coldCycle .rack k now) s = .next ((coldSlot s k now).answer .ok) := congrArg Host.Outcome.next (command_rack h _)
      exact (hruns _).trans hcycle.symm
end Sys2Proof.Proofs


namespace Sys2Proof.Proofs

open Sys2Proof Sys2Proof.Machine Sys2Proof.Laws

/-! SUPPORT. The statement on the accesses of the host (16), with the state that refutes it. -/

/-! ## A register write while a BAR2 read waits for its turn (R8, R563, R657) -/

/-- The link is up, the dies have power, and a BAR2 read of the PF, of no bytes, is among the engines' jobs. -/
def readAmongJobs : State := { State.reset with
  pwr := { State.reset.pwr with diesDown := false }
  hif := { State.reset.hif with linkUp := true }
  grn := { State.reset.grn with jobs := [(1, .bar2 0 0 0)] } }

/-- No register lies at this offset of the PF's BAR0. -/
theorem absent_register : regAt readAmongJobs (0 : Fn) 0xB00000 = none := by decide

/-- Its write leaves the registers, and the answer of the read among the jobs leaves the package. -/
theorem absentWrite_answers : ∃ t, exec (.registerWrite 0 0xB00000 4 0) readAmongJobs = .next t ∧
    t.out = [.bar2Data 0 (some []) false] := by
  refine ⟨settle (hostAccess readAmongJobs (0 : Fn) fun s => writeBar0 s (0 : Fn) 0xB00000 4 0), rfl, ?_⟩
  decide

/-- Refutes O55: its clauses on register writes leave out that the engines' jobs go on after the write (log 127), as its clauses on reads have
it; so a write of an absent register while a BAR2 read is among the jobs does not leave the state as it was, for the read's answer leaves. -/
theorem not_hostAccesses : ¬ Obligations.HostAccesses := by
  unfold Obligations.HostAccesses
  intro h
  obtain ⟨-, -, -, -, -, -, -, -, hwrite⟩ := h 0 0xB00000 0 _ [] false 0 readAmongJobs rfl rfl rfl
  obtain ⟨habsent, -⟩ := hwrite rfl (by rw [show 0xB00000 / 8 * 8 = 0xB00000 from rfl, absent_register]; rfl)
  obtain ⟨t, ht, hout⟩ := absentWrite_answers
  have hstays : readAmongJobs = t := Host.Outcome.next.inj ((habsent absent_register).symm.trans ht)
  rw [← hstays] at hout
  exact absurd hout (by decide)

end Sys2Proof.Proofs
